-- ==== Sys2Proof/Word.lean ====
section
/-! DEFINITION. The word types of the JZ-480 (spec/00_scope.md, Conventions): bytes, 16-bit sequence numbers and
fields, 32-bit counts and sample indices, 24-bit audio samples, 12-bit cue numbers. -/

namespace Sys2Proof

/-- One byte of a frame or record. -/
abbrev Byte := BitVec 8

/-- A two-byte field: sequence numbers, times in frames, group masks. -/
abbrev Half := BitVec 16

/-- A four-byte field: stamps, counts, ring indices, the check register. -/
abbrev Word := BitVec 32

/-- One audio sample, 24-bit two's complement (Conventions, Samples). -/
abbrev Sample := BitVec 24

/-- A cue number, 0..4095 (R3). -/
abbrev Cue := BitVec 12

end Sys2Proof
end

