-- ==== Sys2Proof/Syntax.lean ====
section
/-! DEFINITION. The commands of the block: one constructor of `Instr` for each row of spec/opcode_table.json. The table
gives no operands, so each constructor takes those its rule needs (INVENTORY.md, Instructions). -/

namespace Sys2Proof

/-- The two rigs, and all that belongs to one of them: port, receiver, ring, button (Conventions, Rigs). -/
inductive Rig where
  | A | B
  deriving DecidableEq, Repr

/-- The eight fault causes, in the bit order of R7. -/
inductive Cause where
  | linkDown | frameErrors | stampStall | stampJump | beatLost | silence | slip | selfFault
  deriving DecidableEq, Repr

/-- The clock sources of R24. -/
inductive Source where
  | ref | gang | rigA | rigB | free
  deriving DecidableEq, Repr

/-- The chassis lines as the part samples them at a boundary or as a reset ends (R109, R161, R162, R171; log 5).
`true` is asserted for KEY, BTN_A and BTN_B, and high for the strap pins. -/
structure Lines where
  key    : Bool
  btnA   : Bool
  btnB   : Bool
  roleS1 : Bool
  roleS2 : Bool
  deriving DecidableEq, Repr

/-- How a receiver leaves LOCKED: its line loses activity (R11), or a second sync word in a row is missing (R16). -/
inductive LockLoss where
  | activity | syncWord
  deriving DecidableEq, Repr

/-- The orders that the rules leave open inside one boundary: the world's choice, an operand of the boundary (log 3).
* `framesFirst`: the return frames and the program frame's chunk are begun on the state before the boundary's changes, but
  for those that the boundary begins with, the count among them (R7, R132; log 45);
* `gangFirst`: the same for the gang frame (R111);
* `slipFirstA`, `slipFirstB`: a repeat slip of rig A's or rig B's ring reaches the Health Watch before its turn for that
  rig (R61);
* `buttonsFirst`: presses hand their requests before the MOVE_GROUPs of this boundary execute (R89, R104);
* `bFirst`: where both ports or both buttons act, B's is taken first (R89, R171);
* `proposalsFirst`: a leader's held proposals are taken before the MOVE_GROUPs of its ports (R89, R150);
* `buttonsBeforeProposed`: local presses hand their requests before the button proposals that wait (R89, R104, R120);
* `lossA`, `lossB`: rig A's or rig B's receiver, if it is LOCKED, leaves LOCKED at the boundary's instant, after the tracker
  has classified the offers and before a ring takes the move request (R37, R49; log 38). -/
structure Order where
  framesFirst           : Bool
  gangFirst             : Bool
  slipFirstA            : Bool
  slipFirstB            : Bool
  buttonsFirst          : Bool
  bFirst                : Bool
  proposalsFirst        : Bool
  buttonsBeforeProposed : Bool
  lossA                 : Option LockLoss
  lossB                 : Option LockLoss
  deriving DecidableEq, Repr

/-- A forward frame whose check is good, with the fields R3 and R4 read as they stand on the line. `lane` is the
32-byte control-lane chunk, `audio` the 24 sample periods of 64 slots, period 0 first. -/
structure ForwardFrame where
  seq       : Half
  stamp     : Word
  cueField  : Half
  transport : Byte
  flags     : Byte
  beat      : Byte
  lane      : List Byte
  audio     : List (List Sample)
  deriving DecidableEq, Repr

/-- A MOVE_GROUP in progress as the outside names it (R86, binding): a command by its rig port and tag, or a follower
proposal by its ref. Tags may repeat; the oldest such command not yet executed is meant (log 23). -/
inductive MoveName where
  | command (port : Rig) (tag : Byte)
  | proposal (ref : Fin 8)
  deriving DecidableEq, Repr

/-- The commands, one for each row of spec/opcode_table.json. For the management commands `body` is what follows the
command code in the message: parameter length, parameters, condition part (R129). -/
inductive Instr where
  | powerOnReset (lines : Lines)
  | lineResetAssert
  | lineResetEnd (lines : Lines)
  | commandReset (lines : Lines)
  | localFrameBoundary (lines : Lines) (order : Order)
  | outputSamplePeriod
  | fadeComplete (g : Fin 16)
  | lineActivityLost (rig : Rig)
  | lineActivityPresent (rig : Rig)
  | syncWordFound (rig : Rig)
  | verifyGoodFrame (rig : Rig) (frame : ForwardFrame)
  | verifyFailed (rig : Rig)
  | goodFrame (rig : Rig) (frame : ForwardFrame)
  | badCheckFrame (rig : Rig)
  | missingSyncWord (rig : Rig)
  | sequenceGap (rig : Rig) (frame : ForwardFrame)
  | resync (rig : Rig) (frame : ForwardFrame)
  | refSignalLost
  | refSignalPresent
  | sourceQualified (src : Source)
  | causeConfirmed (rig : Rig) (cause : Cause)
  | causeCleared (rig : Rig) (cause : Cause)
  | beatTimeout (rig : Rig)
  | silenceTimeReached (rig : Rig)
  | jumpRunEnd (rig : Rig)
  | slipWindowExpiry (rig : Rig)
  | returnHoldExpiry (g : Fin 16)
  | takeover
  | keyStateChange
  | buttonPress (button : Rig)
  | alarmPulseEnd
  | writeTakesEffect
  | setModeTakesEffect
  | bypassTakesEffect
  | moveGroupExecute (move : MoveName)
  | moveGroupTimeout (move : MoveName)
  | saveComplete (verified : Bool)
  | deferredLoad
  | gangFrameReceived (bytes : List Byte)
  | gangLinkUp
  | gangLinkLost
  | countAdoption
  | gangMoveStart (g : Fin 16)
  | proposeResend (ref : Fin 8)
  | mismatchRepair (g : Fin 16)
  | buttonProposalApply
  | identify (port : Rig) (tag : Byte) (body : List Byte)
  | readStatus (port : Rig) (tag : Byte) (body : List Byte)
  | readHealth (port : Rig) (tag : Byte) (body : List Byte)
  | readCounts (port : Rig) (tag : Byte) (body : List Byte)
  | readRoute (port : Rig) (tag : Byte) (body : List Byte)
  | readGroup (port : Rig) (tag : Byte) (body : List Byte)
  | readWatch (port : Rig) (tag : Byte) (body : List Byte)
  | readAlign (port : Rig) (tag : Byte) (body : List Byte)
  | writeRoute (port : Rig) (tag : Byte) (body : List Byte)
  | writeGroup (port : Rig) (tag : Byte) (body : List Byte)
  | writeWatch (port : Rig) (tag : Byte) (body : List Byte)
  | writeSetup (port : Rig) (tag : Byte) (body : List Byte)
  | restoreDefaults (port : Rig) (tag : Byte) (body : List Byte)
  | moveGroup (port : Rig) (tag : Byte) (body : List Byte)
  | setMode (port : Rig) (tag : Byte) (body : List Byte)
  | markRig (port : Rig) (tag : Byte) (body : List Byte)
  | cancel (port : Rig) (tag : Byte) (body : List Byte)
  | setLock (port : Rig) (tag : Byte) (body : List Byte)
  | save (port : Rig) (tag : Byte) (body : List Byte)
  | bypass (port : Rig) (tag : Byte) (body : List Byte)
  | reset (port : Rig) (tag : Byte) (body : List Byte)
  | unknownCommand (port : Rig) (tag : Byte) (code : Byte) (body : List Byte)
  | returnFrameSent (port : Rig)
  deriving DecidableEq, Repr

end Sys2Proof
end

