-- ==== Sys2Proof/Decode.lean ====
section
/-! DEFINITION. Decoding by the opcode table's bits. The table gives no row any bits (its commands are events and
messages, not words), so no word spells a command. Messages and frames are read in Machine/Operands.lean and
Machine/Wire.lean. -/

namespace Sys2Proof

/-- The command that a word spells by the table's bits: none, since every row of the table has an empty field list. -/
def decodeTableWord (_nbits _w : Nat) : Option Instr := none

end Sys2Proof
end

