-- ==== Sys2Proof/Machine/Types.lean ====
section
/-! DEFINITION. The types of the machine's state: the named sets of the manual, the records of each block, and the two
containers (a pair for the two rigs, a table of fixed length). Values and behaviour stand in the other files. -/

namespace Sys2Proof.Machine

/-! ## Containers -/

/-- One value for each rig. -/
structure PerRig (α : Type) where
  a : α
  b : α
  deriving DecidableEq, Repr

/-- A table of `n` entries numbered from 0. -/
structure Tbl (n : Nat) (α : Type) where
  cells : List α
  len   : cells.length = n
  deriving DecidableEq, Repr

/-! ## Names of the manual -/

/-- R10. -/
inductive RxState where
  | noSignal | hunting | verifying | locked
  deriving DecidableEq, Repr

/-- R3. -/
inductive Transport where
  | stop | play | locate
  deriving DecidableEq, Repr

/-- Terms, origin; R28. -/
inductive Origin where
  | real | concealed | filled
  deriving DecidableEq, Repr

/-- R39: the reason held while the tracker state is NO_MEASURE. -/
inductive NoMeasure where
  | waiting | stopped | cueDiff
  deriving DecidableEq, Repr

/-- R39: the tracker state with its NO_MEASURE reason. -/
inductive TrackState where
  | noMeasure (why : NoMeasure)
  | settling | aligned | offset | misaligned | outOfReach
  deriving DecidableEq, Repr

/-- R65. -/
inductive CauseState where
  | clear | pending | confirmed | clearing
  deriving DecidableEq, Repr

/-- R68. -/
inductive RigHealth where
  | good | suspect | recovering | failed
  deriving DecidableEq, Repr

/-- A source or destination of a group: a rig or DARK (R87, R89). -/
inductive End where
  | rig (r : Rig)
  | dark
  deriving DecidableEq, Repr

/-- R87: the six fading states. -/
inductive FadeKind where
  | aToB | bToA | aToDark | bToDark | darkToA | darkToB
  deriving DecidableEq, Repr

/-- R78. -/
inductive Mode where
  | auto | manual | fixed
  deriving DecidableEq, Repr

/-- R78. -/
inductive Law where
  | linear | smooth
  deriving DecidableEq, Repr

/-- R78. -/
inductive ReturnPolicy where
  | stay | returnHold | returnAtStop
  deriving DecidableEq, Repr

/-- R78. -/
inductive LastResort where
  | stayOnFailed | goDark
  deriving DecidableEq, Repr

/-- R82. -/
inductive AlarmMode where
  | level | pulse
  deriving DecidableEq, Repr

/-- R161. -/
inductive LockLevel where
  | opened | guarded | frozen
  deriving DecidableEq, Repr

/-- R109. -/
inductive Role where
  | solo | leader | follower
  deriving DecidableEq, Repr

/-- R113. -/
inductive GangState where
  | off | seeking | up | lost
  deriving DecidableEq, Repr

/-- R163. -/
inductive SaveState where
  | none | saving | ok | storeFailed
  deriving DecidableEq, Repr

/-- R131: the completion statuses. -/
inductive Status where
  | ok | cancelled | superseded | timeout | unknownCommand | badLength | badParam | badTarget | locked
  | isProtected | busy | unusable | notAligned | storeFailed
  deriving DecidableEq, Repr

/-- R7, last refused reason. -/
inductive RefuseReason where
  | none | noSlot | broken | orphan | tooLong
  deriving DecidableEq, Repr

/-- R107: the reason of a GROUP_MOVE notice. -/
inductive Reason where
  | autoFailover | autoReturn | command | button | gang | start
  deriving DecidableEq, Repr

/-- R130: the command codes. -/
inductive Code where
  | identify | readStatus | readHealth | readCounts | readRoute | readGroup | readWatch | readAlign
  | writeRoute | writeGroup | writeWatch | writeSetup | restoreDefaults
  | moveGroup | setMode | markRig | cancel | setLock | save | bypass | reset
  deriving DecidableEq, Repr

/-! ## Receivers and rings -/

/-- The audio of one frame: 24 sample periods of 64 slots (R4). -/
abbrev Audio := List (List Sample)

/-- R10, previous-frame record. The audio copy is held only while the origin is REAL. -/
structure PrevFrame where
  origin    : Origin
  stamp     : Word
  cue       : Cue
  transport : Transport
  audio     : Option Audio
  deriving DecidableEq, Repr

/-- R22, in the order of its table. -/
structure Counters where
  good        : Word
  bad         : Word
  lost        : Word
  concealed   : Word
  skipSlips   : Word
  repeatSlips : Word
  resyncs     : Word
  deriving DecidableEq, Repr

/-- R10, with the line-activity condition of R11. -/
structure Receiver where
  activity    : Bool
  state       : RxState
  verifyCount : Nat
  missed      : Bool
  lastSeq     : Option Half
  prev        : Option PrevFrame
  selfFault   : Bool
  returnPause : Bool
  firstLock   : Bool
  score       : Nat
  counters    : Counters
  deriving DecidableEq, Repr

/-- R20: an arrival report. -/
structure Report where
  origin    : Origin
  stamp     : Word
  cue       : Cue
  transport : Transport
  audio     : Audio
  relock    : Bool
  beat      : Option Byte
  deriving DecidableEq, Repr

/-- R28: a written frame, its record and its audio. -/
structure RingFrame where
  start     : Word
  stamp     : Word
  cue       : Cue
  transport : Transport
  origin    : Origin
  audio     : Audio
  deriving DecidableEq, Repr

/-- R28: a History Ring. `frames` is newest first, at most 128. -/
structure Ring where
  W      : Word
  R      : Word
  V      : Word
  H      : Nat
  frames : List RingFrame
  deriving DecidableEq, Repr

/-- R29: what a ring yields at a written position: the frame holding it and the offset in that frame. -/
structure Yield where
  frame  : RingFrame
  offset : Nat
  deriving DecidableEq, Repr

/-! ## Frame Clock -/

/-- R25: the qualification counts. -/
structure Qual where
  ref  : Nat
  gang : Nat
  rigA : Nat
  rigB : Nat
  deriving DecidableEq, Repr

/-- R23, R24, R25, R26. `started` is set by the first boundary after a reset. -/
structure FrameClock where
  phase     : Nat
  frame     : Word
  started   : Bool
  selected  : Source
  qual      : Qual
  refSignal : Bool
  deriving DecidableEq, Repr

/-! ## Alignment Tracker -/

/-- R49: the last correction. -/
structure Correction where
  side    : Rig
  m       : Int
  applied : Int
  deriving DecidableEq, Repr

/-- R50: the three facts (the third is computed) and the transports under the cursors. -/
structure Verdict where
  aligned     : Bool
  bothStopped : Bool
  transport   : PerRig (Option Transport)
  deriving DecidableEq, Repr

/-- R39. `computed` is the verdict of the last boundary, `inForce` the one in force (R50; log 10). -/
structure Tracker where
  state    : TrackState
  history  : List Int
  stable   : Option Int
  residual : Int
  lastCorr : Option Correction
  lastMeas : Option (Int × Word)
  lastCue  : PerRig (Option Cue)
  onAir    : PerRig Bool
  computed : Verdict
  inForce  : Verdict
  deriving DecidableEq, Repr

/-! ## Health Watch -/

/-- R54: one cause's state and timer. -/
structure CauseRec where
  state : CauseState
  timer : Nat
  deriving DecidableEq, Repr

/-- R54, R55: the arrival reference. -/
structure ArrivalRef where
  stamp     : Word
  cue       : Cue
  transport : Transport
  count     : Nat
  deriving DecidableEq, Repr

/-- R54, for one rig. The activities of STAMP_STALL and STAMP_JUMP are held; the others are computed in Flags.lean. -/
structure Health where
  causes     : Tbl 8 CauseRec
  stall      : Bool
  jump       : Bool
  arrival    : Option ArrivalRef
  jumpRun    : Nat
  beat       : Option Byte
  beatAge    : Nat
  silenceRun : Nat
  slipWindow : Nat
  mark       : Bool
  sticky     : BitVec 8
  health     : RigHealth
  published  : BitVec 8
  inForce    : BitVec 8
  deriving DecidableEq, Repr

/-! ## Working tables -/

/-- R74. -/
structure RouteEntry where
  used  : Bool
  slotA : Option (Fin 64)
  slotB : Option (Fin 64)
  group : Fin 16
  deriving DecidableEq, Repr

/-- R78. -/
structure GroupEntry where
  mode         : Mode
  home         : Rig
  mask         : BitVec 8
  fade         : Fin 7
  law          : Law
  policy       : ReturnPolicy
  hold         : Half
  requireAlign : Bool
  lastResort   : LastResort
  isProtected  : Bool
  ganged       : Bool
  deriving DecidableEq, Repr

/-- R63, in the coding of R144: `p1` is the FRAME_ERRORS or SILENCE threshold, `p2` the beat timeout or silence time;
a parameter that the cause does not have is zero. -/
structure WatchEntry where
  enabled : Bool
  confirm : Half
  clear   : Half
  p1      : BitVec 24
  p2      : Half
  deriving DecidableEq, Repr

/-- R63: one rig's Watch Table. -/
structure WatchRig where
  causes : Tbl 8 WatchEntry
  slots  : List (Fin 64)
  deriving DecidableEq, Repr

/-- R82. -/
structure Setup where
  fill      : Half
  tolerance : Half
  reference : Rig
  alarm     : AlarmMode
  startHold : Half
  deriving DecidableEq, Repr

/-- The four working tables (R163). -/
structure Tables where
  routes : Tbl 64 RouteEntry
  groups : Tbl 16 GroupEntry
  watch  : PerRig WatchRig
  setup  : Setup
  deriving DecidableEq, Repr

/-! ## Commands in progress -/

/-- What a group is bound to, and what a request may carry (R86): a part of a held command, named by its port and its
number (`ganged` is the proposed part of a split command, R119), or a follower proposal on a leader. -/
inductive Owner where
  | command (port : Rig) (id : Nat) (ganged : Bool)
  | proposal (ref : Fin 8)
  deriving DecidableEq, Repr

/-- R89: a request that has reached a group. -/
structure Request where
  dest   : End
  reason : Reason
  owner  : Option Owner
  deriving DecidableEq, Repr

/-- R129: the condition part. -/
structure Cond where
  targetUsable  : Bool
  aligned       : Bool
  targetStopped : Bool
  bothStopped   : Bool
  timeout       : Half
  deriving DecidableEq, Repr

/-- R149: what a MOVE_GROUP asks for, its mask apart. -/
structure MoveReq where
  target : End
  force  : Bool
  cond   : Option Cond
  deriving DecidableEq, Repr

/-- How far one part of a MOVE_GROUP has come (R150, R151, R152, R119). -/
inductive Stage where
  | held
  | waiting (count : Nat)
  | executed (bound : Half) (frame : Word)
  | proposed (ref : Fin 8)
  | ended (results : List Byte)
  deriving DecidableEq, Repr

/-- One part of a MOVE_GROUP: the groups it names and how far it has come. -/
structure MovePart where
  mask  : Half
  stage : Stage
  deriving DecidableEq, Repr

/-- A MOVE_GROUP in a slot: its local part and its proposed part (R119), and the first status other than OK that a
part has ended with, with its results. -/
structure MoveCmd where
  req   : MoveReq
  own   : Option MovePart
  gang  : Option MovePart
  first : Option (Status × List Byte)
  deriving DecidableEq, Repr

/-- What a held command is doing (R155). -/
inductive Phase where
  | taken
  | pendingWrite
  | move (m : MoveCmd)
  | saving
  | done
  deriving DecidableEq, Repr

/-- R124: a command slot that holds a command. `id` tells commands apart where tags repeat (log 23). -/
structure Held where
  id       : Nat
  tag      : Byte
  code     : Byte
  reserved : Bool
  phase    : Phase
  deriving DecidableEq, Repr

/-- What a pending write does at its boundary (R73, R153, R159, R166). -/
inductive WriteAct where
  | route (first : Nat) (entries : List RouteEntry)
  | group (g : Fin 16) (entry : GroupEntry)
  | watchCause (rig : Rig) (cause : Fin 8) (entry : WatchEntry)
  | watchSlots (rig : Rig) (slots : List (Fin 64))
  | setup (rec : Setup)
  | defaults
  | setMode (g : Fin 16) (mode : Mode)
  | bypass (engage : Bool)
  | load
  deriving DecidableEq, Repr

/-- A pending write and the command that carried it (none for the deferred load). -/
structure PendingWrite where
  owner : Option (Rig × Nat)
  act   : WriteAct
  deriving DecidableEq, Repr

/-! ## Switch Engine -/

/-- The fade of a fading group (R86), with what its DONE notice repeats (R107). -/
structure Fade where
  kind      : FadeKind
  q         : Nat
  len       : Nat
  law       : Law
  reason    : Reason
  unaligned : Bool
  q0        : Nat
  deriving DecidableEq, Repr

/-- R87: a group is steady on a source or fading. -/
inductive Course where
  | steady (on : End)
  | fading (f : Fade)
  deriving DecidableEq, Repr

/-- R86: a group's runtime record, with the requests it holds (R89). -/
structure GroupRec where
  course        : Course
  binding       : Option Owner
  failedOver    : Bool
  holdTimer     : Nat
  darkByRequest : Bool
  startPending  : Bool
  requests      : List Request
  deriving DecidableEq, Repr

/-- R105. -/
structure Takeover where
  done  : Bool
  ready : PerRig Nat
  deriving DecidableEq, Repr

/-! ## Notices, senders and ports -/

/-- R137: the notice bodies. -/
inductive NoticeBody where
  | groupMove (g : Fin 16) (isDone : Bool) (src dst : End) (reason : Reason) (unaligned : Bool) (q0 len : Nat)
  | rigHealth (rig : Rig) (old new : RigHealth) (pending confirmed clearing sticky : BitVec 8)
  | align (old new : TrackState) (stable : Option Int) (corr : Option (Correction × Int))
  | clock (old new : Source) (loss : Bool)
  | lock (old new : LockLevel) (byKey : Bool)
  | gang (role : Role) (old new : GangState)
  | store (event : Nat) (valid : Bool)
  | relay (energized : Bool) (byCommand : Bool)
  deriving DecidableEq, Repr

/-- R136: a notice, with the local frame count of its raising. -/
structure Notice where
  frame : Word
  body  : NoticeBody
  deriving DecidableEq, Repr

/-- R131: a response record. -/
structure Response where
  id      : Nat
  tag     : Byte
  code    : Byte
  status  : Status
  index   : Nat
  results : List Byte
  deriving DecidableEq, Repr

/-- What the message in send is: a response (the slot it frees, and whether it is an OK RESET response, R134) or a
notice with its gap flag. -/
inductive SendKind where
  | response (id : Nat) (resets : Bool)
  | notice (gap : Bool)
  deriving DecidableEq, Repr

/-- R124: the message in send and the count of its bytes already sent. -/
structure InSend where
  kind  : SendKind
  bytes : List Byte
  sent  : Nat
  deriving DecidableEq, Repr

/-- R124: the part of a lane's state that rig ports and the Program Port share. -/
structure Lane where
  notices     : List Notice
  gapPending  : Bool
  inSend      : Option InSend
  cancelFirst : Bool
  deriving DecidableEq, Repr

/-- R124, R125: message assembly. -/
inductive Assembly where
  | idle
  | assembling (bytes : List Byte)
  | skipping
  deriving DecidableEq, Repr

/-- R124: the Management Unit's state for one rig port, with its Return Framer (R6). `out` is the return frame on the
line, until it has been sent whole. -/
structure Port where
  assembly  : Assembly
  slots     : List Held
  responses : List Response
  lane      : Lane
  refTag    : Byte
  refReason : RefuseReason
  seq       : Half
  out       : Option (List Byte)
  deriving DecidableEq, Repr

/-- R8, R9: the program frame being sent; `audio` grows by one period at a time. -/
structure ProgramFrame where
  seq       : Half
  stamp     : Word
  cue       : Cue
  transport : Transport
  beat      : Byte
  lane      : List Byte
  audio     : Audio
  deriving DecidableEq, Repr

/-- R8, R9, R124: the Program Framer and the Program Port's sender. -/
structure Program where
  seq   : Half
  beat  : Byte
  stamp : Word
  cue   : Cue
  lane  : Lane
  out   : Option ProgramFrame
  deriving DecidableEq, Repr

/-! ## Gang Port -/

/-- R116: a MOVE. -/
structure MoveMsg where
  group         : Fin 16
  src           : End
  dst           : End
  law           : Law
  len           : Nat
  q0            : Nat
  start         : Word
  unaligned     : Bool
  failedOver    : Bool
  darkByRequest : Bool
  deriving DecidableEq, Repr

/-- R111: a PROPOSE. Ref 8 is a button proposal. -/
structure ProposeMsg where
  ref    : Fin 9
  round  : Bool
  mask   : Half
  target : End
  force  : Bool
  cond   : Option Cond
  deriving DecidableEq, Repr

/-- R111: an ANSWER. -/
structure AnswerMsg where
  ref    : Fin 8
  round  : Bool
  status : Status
  deriving DecidableEq, Repr

/-- R111: the message of a gang frame. -/
inductive GangMsg where
  | none
  | move (m : MoveMsg)
  | propose (p : ProposeMsg)
  | answer (a : AnswerMsg)
  deriving DecidableEq, Repr

/-- R111: a board entry as a gang frame carries it. -/
structure BoardCell where
  round  : Bool
  state  : BitVec 2
  status : Byte
  deriving DecidableEq, Repr

/-- R110, R112: the partner's report. Codes are kept as received. -/
structure GangReport where
  state  : Byte
  frame  : Word
  unus   : PerRig (BitVec 8)
  ganged : Half
  codes  : Tbl 16 (BitVec 4)
  board  : Tbl 8 BoardCell
  deriving DecidableEq, Repr

/-- R110, R120: what a board entry holds. -/
inductive BoardState where
  | idle
  | held (req : MoveReq) (part : MovePart)
  | answered (status : Status)
  deriving DecidableEq, Repr

/-- R110: a board entry of the leader. -/
structure BoardEntry where
  round : Bool
  state : BoardState
  deriving DecidableEq, Repr

/-- R110: a proposal record of the follower. `serves` is the command, absent for a withdrawal; `sentAt` the count at
which the PROPOSE was last sent, absent while none has been. -/
structure PropRecord where
  awaiting : Bool
  round    : Bool
  serves   : Option (Rig × Nat)
  sentAt   : Option Word
  message  : Option ProposeMsg
  deriving DecidableEq, Repr

/-- R120, R123: a button proposal waiting for the next boundary; `matchedOnly` on a leader. -/
structure Press where
  target      : End
  mask        : Half
  matchedOnly : Bool
  deriving DecidableEq, Repr

/-- R110. -/
structure Gang where
  role       : Role
  state      : GangState
  goodRun    : Nat
  silence    : Nat
  arrived    : Bool
  partner    : Option GangReport
  matched    : Half
  moves      : List MoveMsg
  answers    : List AnswerMsg
  board      : Tbl 8 BoardEntry
  mismatch   : Tbl 16 Nat
  fresh      : Bool
  records    : Tbl 8 PropRecord
  btnRound   : Bool
  proposes   : List ProposeMsg
  pending    : Tbl 16 (Option MoveMsg)
  adopt      : Bool
  presses    : List Press
  out        : Option (List Byte)
  deriving DecidableEq, Repr

/-! ## Lock, store, panel -/

/-- R161. -/
structure ShowLock where
  level : LockLevel
  key   : Bool
  count : Nat
  deriving DecidableEq, Repr

/-- R163, R165. `owesDefaults` is the DEFAULTS_LOADED notice due at the first boundary. -/
structure Store where
  image        : Tables
  valid        : Bool
  storeValid   : Bool
  save         : SaveState
  snapshot     : Option Tables
  reload       : Bool
  owesDefaults : Bool
  deriving DecidableEq, Repr

/-- R171: one take button. -/
structure Button where
  run   : Nat
  taken : Bool
  deriving DecidableEq, Repr

/-- R168, R170, R171. -/
structure Panel where
  bypass  : Bool
  pulse   : Nat
  buttons : PerRig Button
  deriving DecidableEq, Repr

end Sys2Proof.Machine
end

