-- ==== Sys2Proof/Machine/Arith.lean ====
section
/-! DEFINITION. The plainest operations on the types: reading and writing the containers, signed differences, byte
order, limits, and the order in which the manual lists rigs, causes and groups. -/

namespace Sys2Proof

/-- The other rig (Conventions, Rigs). -/
def Rig.other : Rig → Rig
  | .A => .B
  | .B => .A

/-- The bit of a cause in a cause set (R7). -/
def Cause.idx : Cause → Fin 8
  | .linkDown => 0 | .frameErrors => 1 | .stampStall => 2 | .stampJump => 3
  | .beatLost => 4 | .silence => 5 | .slip => 6 | .selfFault => 7

/-- The causes in bit order (R7). -/
def Cause.all : List Cause :=
  [.linkDown, .frameErrors, .stampStall, .stampJump, .beatLost, .silence, .slip, .selfFault]

end Sys2Proof

namespace Sys2Proof.Machine

/-! ## Containers -/

def PerRig.get {α : Type} (p : PerRig α) : Rig → α
  | .A => p.a
  | .B => p.b

def PerRig.set {α : Type} (p : PerRig α) (r : Rig) (x : α) : PerRig α :=
  match r with
  | .A => { p with a := x }
  | .B => { p with b := x }

def PerRig.map {α β : Type} (f : α → β) (p : PerRig α) : PerRig β := ⟨f p.a, f p.b⟩

def PerRig.both {α : Type} (x : α) : PerRig α := ⟨x, x⟩

def Tbl.get {n : Nat} {α : Type} (t : Tbl n α) (i : Fin n) : α := t.cells[i.val]'(by rw [t.len]; exact i.isLt)

def Tbl.set {n : Nat} {α : Type} (t : Tbl n α) (i : Fin n) (x : α) : Tbl n α :=
  ⟨t.cells.set i.val x, by rw [List.length_set, t.len]⟩

def Tbl.map {n : Nat} {α β : Type} (f : α → β) (t : Tbl n α) : Tbl n β :=
  ⟨t.cells.map f, by rw [List.length_map, t.len]⟩

def Tbl.ofFn {n : Nat} {α : Type} (f : Fin n → α) : Tbl n α := ⟨List.ofFn f, List.length_ofFn⟩

def Tbl.fill {n : Nat} {α : Type} (x : α) : Tbl n α := ⟨List.replicate n x, List.length_replicate⟩

/-- The groups, lowest number first. -/
def allGroups : List (Fin 16) := List.finRange 16

/-- The refs of the proposal board, lowest first. -/
def allRefs : List (Fin 8) := List.finRange 8

/-! ## Numbers -/

/-- The signed difference of two 32-bit counts (Conventions, Counts and differences). -/
def sdiff (a b : Word) : Int := (a - b).toInt

/-- A count that rises by 1 and stops at `lim`. -/
def rise (n lim : Nat) : Nat := min (n + 1) lim

/-- The magnitude of a sample: that of −8388608 is 8388608 (Conventions, Samples). -/
def magnitude (x : Sample) : Nat := x.toInt.natAbs

/-- Whether bit `i` of a mask is set. -/
def inMask {w : Nat} (m : BitVec w) (i : Fin w) : Bool := m.getLsbD i.val

/-- The mask of the members that `p` holds of. -/
def maskOf (w : Nat) (p : Fin w → Bool) : BitVec w :=
  (List.finRange w).foldl (fun m i => if p i then m ||| BitVec.twoPow w i.val else m) 0#w

/-- A truth value as a bit. -/
def bit (b : Bool) : Nat := if b then 1 else 0

/-! ## Byte order (Conventions: big-endian) -/

def be8 (n : Nat) : List Byte := [BitVec.ofNat 8 n]
def be16 (h : Half) : List Byte := [h.extractLsb' 8 8, h.extractLsb' 0 8]
def be24 (x : BitVec 24) : List Byte := [x.extractLsb' 16 8, x.extractLsb' 8 8, x.extractLsb' 0 8]
def be32 (w : Word) : List Byte := [w.extractLsb' 24 8, w.extractLsb' 16 8, w.extractLsb' 8 8, w.extractLsb' 0 8]
def be64 (x : BitVec 64) : List Byte := be32 (x.extractLsb' 32 32) ++ be32 (x.extractLsb' 0 32)

/-- A signed value in four bytes. -/
def beInt (i : Int) : List Byte := be32 (BitVec.ofInt 32 i)

/-- Byte `i` of a list, 0 beyond its end. -/
def byteAt (l : List Byte) (i : Nat) : Byte := l.getD i 0#8

def half (l : List Byte) (i : Nat) : Half := byteAt l i ++ byteAt l (i + 1)
def word24 (l : List Byte) (i : Nat) : BitVec 24 := byteAt l i ++ byteAt l (i + 1) ++ byteAt l (i + 2)
def word (l : List Byte) (i : Nat) : Word := byteAt l i ++ byteAt l (i + 1) ++ byteAt l (i + 2) ++ byteAt l (i + 3)

end Sys2Proof.Machine
end

