-- ==== Sys2Proof/Machine/Factory.lean ====
section
/-! DEFINITION. The factory tables (R63, R84) and the value that each block's state takes at every reset (R10, R23,
R25, R26, R28, R39, R54, R86, R105, R110, R124). The values that differ between the kinds of reset are in Resets.lean. -/

namespace Sys2Proof.Machine

/-! ## Factory tables -/

/-- R84: channel n takes slot n of either rig, in group 0. -/
def factoryRoutes : Tbl 64 RouteEntry :=
  Tbl.ofFn fun n => { used := true, slotA := some n, slotB := some n, group := 0 }

/-- R84. -/
def factoryGroup : GroupEntry :=
  { mode := .auto, home := .A, mask := 0xFF#8, fade := 3, law := .smooth, policy := .stay, hold := 10000#16,
    requireAlign := true, lastResort := .stayOnFailed, isProtected := false, ganged := false }

/-- R63. -/
def factoryCause : Cause → WatchEntry
  | .linkDown    => ⟨true, 2#16, 4000#16, 0#24, 0#16⟩
  | .frameErrors => ⟨true, 0#16, 2000#16, 40#24, 0#16⟩
  | .stampStall  => ⟨true, 20#16, 2000#16, 0#24, 0#16⟩
  | .stampJump   => ⟨false, 0#16, 2000#16, 0#24, 0#16⟩
  | .beatLost    => ⟨false, 0#16, 2000#16, 0#24, 200#16⟩
  | .silence     => ⟨false, 0#16, 2000#16, 256#24, 4000#16⟩
  | .slip        => ⟨false, 0#16, 2000#16, 0#24, 0#16⟩
  | .selfFault   => ⟨true, 0#16, 0#16, 0#24, 0#16⟩

/-- R63: the factory values are the same for both rigs; the slot list holds slot 0 alone. -/
def factoryWatch : WatchRig := { causes := ⟨Cause.all.map factoryCause, rfl⟩, slots := [0] }

/-- R84. -/
def factorySetup : Setup :=
  { fill := 240#16, tolerance := 2#16, reference := .A, alarm := .level, startHold := 2000#16 }

def factoryTables : Tables :=
  { routes := factoryRoutes, groups := Tbl.fill factoryGroup, watch := PerRig.both factoryWatch, setup := factorySetup }

/-! ## Values after every reset -/

def Counters.zero : Counters := ⟨0#32, 0#32, 0#32, 0#32, 0#32, 0#32, 0#32⟩

/-- R10. The line condition is not the receiver's to reset; with activity present the receiver enters HUNTING at once
when the reset ends (R11), which Resets.lean does. -/
def Receiver.initial (activity : Bool) : Receiver :=
  { activity, state := .noSignal, verifyCount := 0, missed := false, lastSeq := none, prev := none,
    selfFault := false, returnPause := false, firstLock := false, score := 0, counters := Counters.zero }

/-- R28. -/
def Ring.initial : Ring := { W := 0#32, R := 0#32, V := 0#32, H := 0, frames := [] }

/-- R23, R25, R26. -/
def FrameClock.initial (refSignal : Bool) : FrameClock :=
  { phase := 0, frame := 0#32, started := false, selected := .free, qual := ⟨0, 0, 0, 0⟩, refSignal }

/-- R50: until the first verdict is computed. -/
def Verdict.initial : Verdict := { aligned := false, bothStopped := false, transport := PerRig.both none }

/-- R39. -/
def Tracker.initial : Tracker :=
  { state := .noMeasure .waiting, history := [], stable := none, residual := 0, lastCorr := none, lastMeas := none,
    lastCue := PerRig.both none, onAir := PerRig.both false, computed := Verdict.initial, inForce := Verdict.initial }

/-- R54. -/
def Health.initial : Health :=
  { causes := Tbl.fill ⟨.clear, 0⟩, stall := false, jump := false, arrival := none, jumpRun := 0, beat := none,
    beatAge := 0, silenceRun := 0, slipWindow := 0, mark := false, sticky := 0#8, health := .good,
    published := 0#8, inForce := 0#8 }

/-- R86. -/
def GroupRec.initial : GroupRec :=
  { course := .steady .dark, binding := none, failedOver := false, holdTimer := 0, darkByRequest := false,
    startPending := true, requests := [] }

/-- R105. -/
def Takeover.initial : Takeover := { done := false, ready := PerRig.both 0 }

/-- R124. -/
def Lane.initial : Lane := { notices := [], gapPending := false, inSend := none, cancelFirst := true }

/-- R124, R6. -/
def Port.initial : Port :=
  { assembly := .idle, slots := [], responses := [], lane := Lane.initial, refTag := 0xFF#8, refReason := .none,
    seq := 0#16, out := none }

/-- R8, R9, R124. -/
def Program.initial : Program :=
  { seq := 0#16, beat := 0#8, stamp := 0#32, cue := 0#12, lane := Lane.initial, out := none }

/-- R109: the role the strap pins read. -/
def linesRole (l : Lines) : Role :=
  match l.roleS1, l.roleS2 with
  | true, false => .leader
  | false, true => .follower
  | false, false | true, true => .solo

/-- R109, R110. The round of the button proposal, which R110 does not list, is 0 like the other rounds (log 41). -/
def Gang.initial (role : Role) : Gang :=
  { role, state := if role = .solo then .off else .seeking, goodRun := 0, silence := 0, arrived := false,
    partner := none, matched := 0#16, moves := [], answers := [],
    board := Tbl.fill ⟨false, .idle⟩, mismatch := Tbl.fill 0, fresh := false,
    records := Tbl.fill ⟨false, false, none, none, none⟩, btnRound := false, proposes := [],
    pending := Tbl.fill none, adopt := false, presses := [], out := none }

/-- R171: the run count is 0 and the taken mark holds a button that is asserted as the reset ends. -/
def Button.initial (line : Bool) : Button := { run := 0, taken := line }

/-- R94: the output of a part whose groups are all DARK. -/
def silentPeriod : List Sample := List.replicate 64 0#24

/-- R15, R17: a frame of silence in all 64 slots. -/
def silentAudio : Audio := List.replicate 24 (List.replicate 64 0#24)

end Sys2Proof.Machine
end

