-- ==== Sys2Proof/Machine/State.lean ====
section
/-! DEFINITION. The state of the JZ-480: every block's state (`Part`), and the queue of commands that are waiting
(`State`). INVENTORY.md lists every field with its rule and reset value. -/

namespace Sys2Proof.Machine

/-- What a command acts on: everything but the queue. The relay, the tallies and ALARM are computed (Flags.lean), as are
the activities of six causes and the intake's count of free slots.
* `writes`: the pending writes in the order of acceptance (R73);
* `nextId`: the next command number, the model's own counter (log 23);
* `resetRequested`: a command reset is awaited (R134);
* `inReset`: the RESET line holds the part in line reset (R167);
* `samples`: the output samples of the last period (R94). -/
structure Part where
  rx             : PerRig Receiver
  clock          : FrameClock
  ring           : PerRig Ring
  tracker        : Tracker
  health         : PerRig Health
  tables         : Tables
  writes         : List PendingWrite
  groups         : Tbl 16 GroupRec
  takeover       : Takeover
  samples        : List Sample
  program        : Program
  port           : PerRig Port
  nextId         : Nat
  resetRequested : Bool
  inReset        : Bool
  gang           : Gang
  lock           : ShowLock
  store          : Store
  panel          : Panel
  deriving DecidableEq, Repr

/-- The machine: the part, and the commands that wait, first in first out. -/
structure State extends Part where
  pending : List Instr
  deriving DecidableEq, Repr

/-- Why the block stops with a fault. The spec names no event that stops it (INVENTORY.md, Faults), so no meaning raises
one; safe. -/
inductive Fault where
  /-- Raised by no command: the spec describes no stop. Safe. -/
  | noneDescribed
  deriving DecidableEq, Repr

/-- Why a command is refused. -/
inductive Refusal where
  /-- Raised by `exec` alone, for a command that has no meaning yet. Safe. -/
  | notModelled (mnemonic : String)
  deriving DecidableEq, Repr

/-- Right after a power-on reset (R10 to R171). The chassis as the model takes it: no line activity and no REF signal
yet, no panel line asserted, straps low (SOLO), an INVALID image in the store, so the factory tables are loaded and the
DEFAULTS_LOADED notice is owed at the first boundary (R165; log 6). -/
def State.reset : State :=
  { rx := PerRig.both (Receiver.initial false)
    clock := FrameClock.initial false
    ring := PerRig.both Ring.initial
    tracker := Tracker.initial
    health := PerRig.both Health.initial
    tables := factoryTables
    writes := []
    groups := Tbl.fill GroupRec.initial
    takeover := Takeover.initial
    samples := silentPeriod
    program := Program.initial
    port := PerRig.both Port.initial
    nextId := 0
    resetRequested := false
    inReset := false
    gang := Gang.initial .solo
    lock := { level := .opened, key := false, count := 0 }
    store := { image := factoryTables, valid := false, storeValid := false, save := .none, snapshot := none,
               reload := false, owesDefaults := true }
    panel := { bypass := false, pulse := 0, buttons := PerRig.both (Button.initial false) }
    pending := [] }

end Sys2Proof.Machine
end

