-- ==== Sys2Proof/Machine/Flags.lean ====
section
/-! DEFINITION. What is computed from the state: a group's destination and codes, the rings' positions and fills, the
activities of the causes, usability, the alignment requirement, the relay, the tallies and ALARM. -/

namespace Sys2Proof.Machine

/-! ## Group states (R87) -/

def FadeKind.src : FadeKind → End
  | .aToB | .aToDark => .rig .A
  | .bToA | .bToDark => .rig .B
  | .darkToA | .darkToB => .dark

def FadeKind.dst : FadeKind → End
  | .bToA | .darkToA => .rig .A
  | .aToB | .darkToB => .rig .B
  | .aToDark | .bToDark => .dark

/-- The fade between two different sources. -/
def FadeKind.between : End → End → Option FadeKind
  | .rig .A, .rig .B => some .aToB
  | .rig .B, .rig .A => some .bToA
  | .rig .A, .dark => some .aToDark
  | .rig .B, .dark => some .bToDark
  | .dark, .rig .A => some .darkToA
  | .dark, .rig .B => some .darkToB
  | .rig .A, .rig .A | .rig .B, .rig .B | .dark, .dark => none

/-- R87: the source a group plays when steady, or the "to" end of its fade. -/
def Course.dest : Course → End
  | .steady e => e
  | .fading f => f.kind.dst

/-- R76: whether a group is fading. -/
def Course.isFading : Course → Bool
  | .steady _ => false
  | .fading _ => true

/-- R7, group state codes. -/
def Course.code : Course → Nat
  | .steady .dark => 0
  | .steady (.rig .A) => 1
  | .steady (.rig .B) => 2
  | .fading f =>
    match f.kind with
    | .aToB => 3 | .bToA => 4 | .aToDark => 5 | .bToDark => 6 | .darkToA => 7 | .darkToB => 8

/-- R78: the lengths of fade codes 0..6. -/
def fadeLength (code : Fin 7) : Nat := [1, 24, 48, 96, 192, 480, 960].getD code.val 1

/-- Whether some group is fading (R85, R166). -/
def anyFading (s : Part) : Bool := allGroups.any fun g => (s.groups.get g).course.isFading

/-! ## Rings (R29, R31) -/

/-- R31: the fill, W − R as a signed difference. -/
def Ring.fill (r : Ring) : Int := sdiff r.W r.R

/-- R29: whether index `i` is a written position. -/
def Ring.written (r : Ring) (i : Word) : Bool := decide (1 ≤ (r.W - i).toNat) && decide ((r.W - i).toNat ≤ r.H)

/-- R29: what the ring yields at index `i`. -/
def Ring.at (r : Ring) (i : Word) : Option Yield :=
  if r.written i then
    (r.frames.find? fun f => decide ((i - f.start).toNat < 24)).map fun f => ⟨f, (i - f.start).toNat⟩
  else none

/-- R29: the yield of an output sample period, at the read cursor. -/
def Ring.yield (r : Ring) : Option Yield := r.at r.R

/-- R38: the song position of a yielded position. -/
def Yield.position (y : Yield) : Word := y.frame.stamp + BitVec.ofNat 32 y.offset

/-- R94: the sample of a slot at a yielded position; silence, or a slot NONE, contributes 0. -/
def slotSample (y : Option Yield) (slot : Option (Fin 64)) : Sample :=
  match y, slot with
  | some y, some n => (y.frame.audio.getD y.offset []).getD n.val 0#24
  | _, _ => 0#24

/-! ## Receivers and clock -/

def isLocked (s : Part) (r : Rig) : Bool := (s.rx.get r).state == .locked

def rigSource : Rig → Source
  | .A => .rigA
  | .B => .rigB

/-- R24: whether a source is present. -/
def sourcePresent (s : Part) : Source → Bool
  | .ref => s.clock.refSignal
  | .gang => s.gang.role == .follower && s.gang.state == .up
  | .rigA => isLocked s .A
  | .rigB => isLocked s .B
  | .free => true

/-- R24: the sources in priority order, by the reference rig in force. -/
def sourceOrder (reference : Rig) : List Source :=
  [.ref, .gang, rigSource reference, rigSource reference.other, .free]

def Qual.get (q : Qual) : Source → Nat
  | .ref => q.ref
  | .gang => q.gang
  | .rigA => q.rigA
  | .rigB => q.rigB
  | .free => 200

def Qual.set (q : Qual) (src : Source) (n : Nat) : Qual :=
  match src with
  | .ref => { q with ref := n }
  | .gang => { q with gang := n }
  | .rigA => { q with rigA := n }
  | .rigB => { q with rigB := n }
  | .free => q

/-- R25: a source is qualified while its count stands at 200; FREE always is. -/
def Qual.qualified (q : Qual) (src : Source) : Bool := decide (200 ≤ q.get src)

/-- R26: the highest-priority qualified source. FREE is always qualified. -/
def bestSource (reference : Rig) (q : Qual) : Source :=
  ((sourceOrder reference).find? fun src => q.qualified src).getD .free

/-- The rank of a source, 0 highest (R24). -/
def sourceRank (reference : Rig) (src : Source) : Nat := (sourceOrder reference).idxOf src

/-! ## Activities of the causes (R56 to R62) -/

/-- R62: SELF_FAULT's header half is the receiver's held flag. -/
def activity (rx : Receiver) (w : WatchRig) (h : Health) : Cause → Bool
  | .linkDown => rx.state != .locked
  | .frameErrors => decide ((w.causes.get Cause.frameErrors.idx).p1.toNat ≤ rx.score)
  | .stampStall => h.stall
  | .stampJump => h.jump
  | .beatLost => rx.state == .locked && decide ((w.causes.get Cause.beatLost.idx).p2.toNat ≤ h.beatAge)
  | .silence => decide ((w.causes.get Cause.silence.idx).p2.toNat ≤ h.silenceRun)
  | .slip => decide (0 < h.slipWindow)
  | .selfFault => h.mark || rx.selfFault

/-- The set of causes of a rig that are in a given state. -/
def Health.inState (h : Health) (st : CauseState) : BitVec 8 := maskOf 8 fun c => (h.causes.get c).state == st

/-- R69: the causes that are CONFIRMED or CLEARING. -/
def Health.unusable (h : Health) : BitVec 8 := h.inState .confirmed ||| h.inState .clearing

/-- R68: the worst state held by any cause. -/
def Health.worst (h : Health) : RigHealth :=
  if h.inState .confirmed ≠ 0#8 then .failed
  else if h.inState .clearing ≠ 0#8 then .recovering
  else if h.inState .pending ≠ 0#8 then .suspect
  else .good

/-! ## The gang pair and usability (R69, R115, R118) -/

def groupEntry (s : Part) (g : Fin 16) : GroupEntry := s.tables.groups.get g

/-- A unit in UP with the given role, and group `g` in its matched set (R113). -/
def matchedAs (s : Part) (role : Role) (g : Fin 16) : Bool :=
  s.gang.role == role && s.gang.state == .up && inMask s.gang.matched g

/-- R118: on a follower in UP, a matched group changes only by the leader's MOVEs. -/
def isLed (s : Part) (g : Fin 16) : Bool := matchedAs s .follower g

/-- R116: on a leader in UP, a matched group's transitions are sent to the follower. -/
def isLeading (s : Part) (g : Fin 16) : Bool := matchedAs s .leader g

/-- R69: rig X is usable for a cause mask by the published set in force. -/
def localUsable (s : Part) (mask : BitVec 8) (x : Rig) : Bool := (s.health.get x).inForce &&& mask == 0#8

/-- R115: the partner's report leaves rig X usable for a cause mask. -/
def partnerUsable (s : Part) (mask : BitVec 8) (x : Rig) : Bool :=
  match s.gang.partner with
  | some p => p.unus.get x &&& mask == 0#8
  | none => true

/-- R69, R115: usability of rig X for group `g`, combined for a matched group on a leader in UP. -/
def rigUsable (s : Part) (g : Fin 16) (x : Rig) : Bool :=
  localUsable s (groupEntry s g).mask x && (!isLeading s g || partnerUsable s (groupEntry s g).mask x)

/-- R69: DARK is usable for every group. -/
def usable (s : Part) (g : Fin 16) : End → Bool
  | .rig x => rigUsable s g x
  | .dark => true

/-- R105, R106: a rig is start-ready for a cause mask or a group when its receiver is LOCKED and it is usable. -/
def startReady (s : Part) (g : Fin 16) (x : Rig) : Bool := isLocked s x && rigUsable s g x

/-- R50: the alignment requirement of a verdict. -/
def Verdict.met (v : Verdict) : Bool := v.aligned || v.bothStopped

/-- The alignment requirement in force (R50). -/
def alignMet (s : Part) : Bool := s.tracker.inForce.met

/-! ## Panel outputs (R168, R169, R170) -/

/-- R168: the relay is ENERGIZED while takeover is done and the bypass-engaged mark is clear. -/
def relay (s : Part) : Bool := s.takeover.done && !s.panel.bypass

/-- R169: asserted while any group is steady on the rig or fading to it, before takeover too (log 52). -/
def tally (s : Part) (x : Rig) : Bool := allGroups.any fun g => (s.groups.get g).course.dest == .rig x

/-- R170; deasserted throughout every reset. -/
def alarm (s : Part) : Bool :=
  !s.inReset &&
    match s.tables.setup.alarm with
    | .pulse => decide (0 < s.panel.pulse)
    | .level =>
      (allGroups.any fun g => (groupEntry s g).mode == .auto && (s.groups.get g).failedOver) ||
        (s.health.get .A).health != .good || (s.health.get .B).health != .good ||
        (s.takeover.done && !relay s)

/-! ## Intake (R128) -/

/-- R128: the count of FREE general slots. -/
def Port.free (p : Port) : Nat := 8 - (p.slots.filter fun h => !h.reserved).length

/-- R133: a rig port is paused while its receiver holds RETURN_PAUSE. -/
def paused (s : Part) (r : Rig) : Bool := (s.rx.get r).returnPause

/-- R135: the summary's notice-gap flag. -/
def Lane.gapFlag (l : Lane) : Bool :=
  l.gapPending ||
    match l.inSend with
    | some ⟨.notice gap, _, _⟩ => gap
    | _ => false

end Sys2Proof.Machine
end

