-- ==== Sys2Proof/Machine/Health.lean ====
section
/-! DEFINITION. One rig's Health Watch (R55 to R72): what an arrival report does, what a boundary does, and the
evaluation of the causes. -/

namespace Sys2Proof.Machine

/-- R55, step 1: the references are cleared, at a relock mark and when the receiver leaves LOCKED. -/
def Health.clearRefs (h : Health) : Health :=
  { h with arrival := none, beat := none, beatAge := 0, jumpRun := 0, silenceRun := 0, stall := false, jump := false }

/-- R55: the advance against a reference, and whether it is normal: 24·j, j being the reference's count plus 1. -/
def advanceOf (ref : ArrivalRef) (stamp : Word) : Int := sdiff stamp ref.stamp
def normalAdvance (ref : ArrivalRef) (stamp : Word) : Bool := advanceOf ref stamp == 24 * ((ref.count : Int) + 1)

/-- R57: STAMP_STALL after a REAL arrival. -/
def stallAfter (h : Health) (rep : Report) : Bool :=
  if rep.transport ≠ .play then false
  else
    match h.arrival with
    | none => false
    | some ref => if advanceOf ref rep.stamp = 0 then true else if normalAdvance ref rep.stamp then false else h.stall

/-- R58: STAMP_JUMP and the jump run after a REAL arrival. -/
def jumpAfter (h : Health) (rep : Report) : Bool × Nat :=
  if rep.transport ≠ .play then (false, 0)
  else
    match h.arrival with
    | none => (h.jump, h.jumpRun)
    | some ref =>
      if ref.cue ≠ rep.cue then (false, 0)
      else if ref.transport ≠ .play then (h.jump, h.jumpRun)
      else if advanceOf ref rep.stamp = 0 then (h.jump, 0)
      else if !normalAdvance ref rep.stamp then (true, 0)
      else if !h.jump then (h.jump, h.jumpRun)
      else if 8 ≤ h.jumpRun + 1 then (false, 0)
      else (true, h.jumpRun + 1)

/-- R60: the peak magnitude over the watched slots and the periods of a frame. -/
def peak (audio : Audio) (slots : List (Fin 64)) : Nat :=
  audio.foldl (fun m period => slots.foldl (fun m n => max m (magnitude (period.getD n.val 0#24))) m) 0

/-- R60: the silence run after a REAL arrival. -/
def silenceAfter (h : Health) (rep : Report) (w : WatchRig) : Nat :=
  if rep.transport = .play ∧ peak rep.audio w.slots < (w.causes.get Cause.silence.idx).p1.toNat then rise h.silenceRun 65535
  else 0

/-- R59: whether a REAL arrival brings a new app beat. -/
def newBeat (h : Health) (beat : Option Byte) : Bool :=
  match beat with
  | none => false
  | some b => h.beat != some b

/-- R55: the Health Watch takes an arrival report. -/
def Health.arrive (h0 : Health) (rep : Report) (w : WatchRig) : Health :=
  let h := if rep.relock then h0.clearRefs else h0
  match rep.origin with
  | .concealed | .filled =>
    { h with arrival := h.arrival.map fun ref => { ref with count := rise ref.count 65535 } }
  | .real =>
    { h with
      stall := stallAfter h rep
      jump := (jumpAfter h rep).1
      jumpRun := (jumpAfter h rep).2
      beat := if newBeat h rep.beat then rep.beat else h.beat
      beatAge := if newBeat h rep.beat then 0 else h.beatAge
      silenceRun := silenceAfter h rep w
      arrival := some { stamp := rep.stamp, cue := rep.cue, transport := rep.transport, count := 0 } }

/-- R61: a slip report. -/
def Health.slipped (h : Health) : Health := { h with slipWindow := 2000 }

/-- R59, R61: the frame-timed activities at a boundary. -/
def Health.advance (h : Health) (locked : Bool) : Health :=
  { h with beatAge := if locked then rise h.beatAge 65535 else h.beatAge, slipWindow := h.slipWindow - 1 }

/-- R65: the evaluation of one enabled cause. -/
def evalEnabled (w : WatchEntry) (active : Bool) (c : CauseRec) : CauseRec :=
  match c.state, active with
  | .clear, true => if w.confirm.toNat = 0 then ⟨.confirmed, 0⟩ else ⟨.pending, 0⟩
  | .clear, false => c
  | .pending, true =>
    if w.confirm.toNat ≤ rise c.timer 65535 then ⟨.confirmed, 0⟩ else ⟨.pending, rise c.timer 65535⟩
  | .pending, false => ⟨.clear, 0⟩
  | .confirmed, true => c
  | .confirmed, false => if w.clear.toNat = 0 then ⟨.clear, 0⟩ else ⟨.clearing, 0⟩
  | .clearing, true => ⟨.confirmed, 0⟩
  | .clearing, false =>
    if w.clear.toNat ≤ rise c.timer 65535 then ⟨.clear, 0⟩ else ⟨.clearing, rise c.timer 65535⟩

/-- R65, R66: a cause that is not enabled is CLEAR with timer 0. -/
def evalCause (w : WatchEntry) (active : Bool) (c : CauseRec) : CauseRec :=
  if w.enabled then evalEnabled w active c else ⟨.clear, 0⟩

/-- R70: the causes that leave CLEAR join the sticky set. -/
def leftClear (old new : Tbl 8 CauseRec) : BitVec 8 :=
  maskOf 8 fun i => (old.get i).state == .clear && (new.get i).state != .clear

/-- A rig's causes with new states: the sticky set follows (R70), then rig health (R68) and the publication (R69). -/
def Health.withCauses (h : Health) (causes : Tbl 8 CauseRec) : Health :=
  let h' : Health := { h with causes, sticky := h.sticky ||| leftClear h.causes causes }
  { h' with health := h'.worst, published := h'.unusable }

/-- R65: every cause of a rig, evaluated once on the activities as they stand. -/
def evaluated (h : Health) (rx : Receiver) (w : WatchRig) : Tbl 8 CauseRec :=
  Tbl.ofFn fun i => evalCause (w.causes.get i) (activity rx w h (Cause.all.getD i.val .linkDown)) (h.causes.get i)

/-- R65, R68, R69, R70: the evaluation of a rig at a boundary. -/
def Health.evaluate (h : Health) (rx : Receiver) (w : WatchRig) : Health := h.withCauses (evaluated h rx w)

/-- R66: a disable takes effect: the causes named enter CLEAR at once, with timer 0. Rig health and the published set follow
with the evaluation of that boundary (R68, R69). -/
def Health.drop (h : Health) (off : Fin 8 → Bool) : Health :=
  { h with causes := Tbl.ofFn fun i => if off i then ⟨.clear, 0⟩ else h.causes.get i }

/-- R72: the rig health, the CONFIRMED set or the CLEARING set differs. -/
def Health.shiftedFrom (new old : Health) : Bool :=
  old.health != new.health || old.inState .confirmed != new.inState .confirmed ||
    old.inState .clearing != new.inState .clearing

/-- R72: whether a boundary raises a RIG_HEALTH notice, and the notice. `mid` is the rig after the boundary's disables (R66)
and before its evaluation: a change by the one or by the other raises the notice (log 48). -/
def healthNotice (rig : Rig) (old mid new : Health) : Option NoticeBody :=
  if mid.shiftedFrom old ∨ new.shiftedFrom mid then
    some (.rigHealth rig old.health new.health (new.inState .pending) (new.inState .confirmed) (new.inState .clearing)
      new.sticky)
  else none

end Sys2Proof.Machine
end

