-- ==== Sys2Proof/Machine/Ring.lean ====
section
/-! DEFINITION. What happens to one History Ring (R30 to R37): a write with its overrun check and relock placement, the
underrun check, a flush, an alignment move, and the advance of the read cursor. -/

namespace Sys2Proof.Machine

/-- R30, steps 3 and 4: the frame is stored at W and W advances; at most 128 frame records are held. -/
def Ring.store (r : Ring) (rep : Report) : Ring :=
  { r with
    W := r.W + 24#32
    H := min (r.H + 24) 3072
    frames := { start := r.W, stamp := rep.stamp, cue := rep.cue, transport := rep.transport, origin := rep.origin,
                audio := rep.audio } :: r.frames.take 127 }

/-- R30, step 1: a write finds the fill above 3048. -/
def Ring.overrun (r : Ring) : Bool := decide (3048 < r.fill)

/-- R30, step 1: a skip slip. -/
def Ring.skip (r : Ring) : Ring := { r with R := r.R + 24#32 }

/-- R30, steps 2 to 5, with the relock placement of R35 by the fill target `D`. -/
def Ring.place (r : Ring) (rep : Report) (D : Half) : Ring :=
  if rep.relock then
    let r' := ({ r with V := r.W } : Ring).store rep
    { r' with R := r'.W - D.setWidth 32 }
  else r.store rep

/-- R30: the ring takes an arrival report; the flag says whether a skip slip was made. -/
def Ring.take (r : Ring) (rep : Report) (D : Half) : Ring × Bool :=
  ((if r.overrun then r.skip else r).place rep D, r.overrun)

/-- R34. -/
def Ring.flush (r : Ring) : Ring := { r with V := r.W, H := 0, R := r.W }

/-- R32: how many repeat slips the underrun check makes: as many moves of 24 as bring the fill to 24 or more. -/
def Ring.repeats (r : Ring) : Nat := if r.fill < 24 then ((24 - r.fill + 23) / 24).toNat else 0

/-- R32: the underrun check. -/
def Ring.underrun (r : Ring) : Ring := { r with R := r.R - BitVec.ofNat 32 (24 * r.repeats) }

/-- R37, step 3: the amount that a clamp allows never goes against δ nor beyond it. -/
def clampMove (amount delta : Int) : Int :=
  if amount = 0 ∨ (0 < amount ↔ ¬ 0 < delta) then 0
  else if delta.natAbs < amount.natAbs then delta
  else amount

/-- R37, steps 2 and 3: the move made for a request δ, from the present fill. -/
def moveMade (fill delta : Int) : Int :=
  if fill - delta > 3048 then clampMove (fill - 3048) delta
  else if fill - delta < 24 then clampMove (fill - 24) delta
  else delta

/-- R37: a LOCKED ring takes a move request. -/
def Ring.move (r : Ring) (delta : Int) : Ring := { r with R := r.R + BitVec.ofInt 32 (moveMade r.fill delta) }

/-- R31: the read cursor advances after a period's yield while the receiver is LOCKED. -/
def Ring.advance (r : Ring) (locked : Bool) : Ring := if locked then { r with R := r.R + 1#32 } else r

end Sys2Proof.Machine
end

