-- ==== Sys2Proof/Machine/Tracker.lean ====
section
/-! DEFINITION. The Alignment Tracker's work at a boundary (R40 to R50), on the two rings' offers. -/

namespace Sys2Proof.Machine

/-- R41: the class of a boundary. -/
inductive OfferClass where
  | noMeasure (why : NoMeasure)
  | skipped
  | valid (m : Int)
  deriving DecidableEq, Repr

def offerNotPlaying (y : Option Yield) : Bool :=
  match y with
  | some y => y.frame.transport != .play
  | none => false

/-- R40, R41: the two offers, with the receivers' states. A positive m means rig B presents the later position. -/
def classify (lockedA lockedB : Bool) (ya yb : Option Yield) : OfferClass :=
  if !(lockedA && lockedB) then .noMeasure .waiting
  else if offerNotPlaying ya || offerNotPlaying yb then .noMeasure .stopped
  else
    match ya, yb with
    | some a, some b =>
      if a.frame.cue ≠ b.frame.cue then .noMeasure .cueDiff
      else if a.frame.origin = .real ∧ b.frame.origin = .real then .valid (sdiff b.position a.position)
      else .skipped
    | _, _ => .skipped

/-- R42: a measurement joins the newest end; at most five are held. -/
def pushMeasure (h : List Int) (m : Int) : List Int := (if 5 ≤ h.length then h.drop 1 else h) ++ [m]

/-- R42: the offset of a stable history: five equal measurements. -/
def stableOf (h : List Int) : Option Int :=
  match h with
  | [a, b, c, d, e] => if b = a ∧ c = a ∧ d = a ∧ e = a then some a else none
  | _ => none

/-- R43: an offered position whose cue differs from the rig's last cue. -/
def cueChanged (last : Option Cue) (y : Option Yield) : Bool :=
  match last, y with
  | some c, some y => y.frame.cue != c
  | _, _ => false

/-- R41: a written offer sets the rig's last cue. -/
def nextCue (last : Option Cue) (y : Option Yield) : Option Cue :=
  match y with
  | some y => some y.frame.cue
  | none => last

/-- R41, R42, R43: the clears and the push of a boundary, and the records it leaves. -/
def Tracker.note (t : Tracker) (cls : OfferClass) (ya yb : Option Yield) (frame : Word) : Tracker :=
  let kept := if cueChanged t.lastCue.a ya || cueChanged t.lastCue.b yb then [] else t.history
  { t with
    history := match cls with
      | .noMeasure _ => []
      | .skipped => kept
      | .valid m => pushMeasure kept m
    lastMeas := match cls with
      | .valid m => some (m, frame)
      | .noMeasure _ | .skipped => t.lastMeas
    lastCue := ⟨nextCue t.lastCue.a ya, nextCue t.lastCue.b yb⟩ }

/-- R44: the state that a stable offset gives by the tolerance. -/
def stateOf (m : Int) (tolerance : Half) : TrackState :=
  if m = 0 then .aligned else if m.natAbs ≤ tolerance.toNat then .offset else .misaligned

/-- R44, R45: the derivation of state, stable offset and residual. A skipped boundary derives as well, from the history as
it stands (log 28). -/
def Tracker.derive (t : Tracker) (cls : OfferClass) (tolerance : Half) : Tracker :=
  match cls with
  | .noMeasure why => { t with state := .noMeasure why, stable := none, residual := 0 }
  | .skipped | .valid _ =>
    match stableOf t.history with
    | none => { t with state := if t.state = .outOfReach then .outOfReach else .settling, stable := none }
    | some m =>
      if t.state = .outOfReach then
        if m = 0 then { t with state := .aligned, stable := some 0, residual := 0 } else { t with stable := some m }
      else { t with state := stateOf m tolerance, stable := some m }

/-- R47: the side to move for a stable offset other than 0: the rig that is not the reference rig if it is off air,
otherwise the reference rig if it is off air. -/
def Tracker.side (t : Tracker) (reference : Rig) : Option (Rig × Int) :=
  match stableOf t.history with
  | none => none
  | some m =>
    if m = 0 then none
    else if !t.onAir.get reference.other then some (reference.other, m)
    else if !t.onAir.get reference then some (reference, m)
    else none

/-- R48: the move asked of a rig's ring. -/
def moveAsked (side : Rig) (m : Int) : Int :=
  match side with
  | .B => -m
  | .A => m

/-- R49: the amount applied, from the move the ring made. -/
def amountApplied (side : Rig) (made : Int) : Int :=
  match side with
  | .B => -made
  | .A => made

/-- R49: the correction is recorded, the residual set, the state settled and the history cleared. -/
def Tracker.settle (t : Tracker) (side : Rig) (m applied : Int) (tolerance : Half) : Tracker :=
  { t with
    lastCorr := some ⟨side, m, applied⟩
    residual := m - applied
    state :=
      if m - applied ≠ 0 then .outOfReach
      else if t.state = .outOfReach then stateOf m tolerance
      else t.state
    history := [] }

def offerTransport (y : Option Yield) : Option Transport := y.map fun y => y.frame.transport

/-- R50: the verdict computed after a boundary's work. -/
def Tracker.verdict (t : Tracker) (lockedA lockedB : Bool) (ya yb : Option Yield) : Verdict :=
  { aligned := t.state == .aligned || t.state == .offset
    bothStopped := lockedA && lockedB && offerTransport ya == some .stop && offerTransport yb == some .stop
    transport := ⟨offerTransport ya, offerTransport yb⟩ }

end Sys2Proof.Machine
end

