-- ==== Sys2Proof/Config.lean ====
section
/-! DEFINITION. What one unit fixes and the manual does not state: opaque constants, so that a claim is true whatever
they are. -/

namespace Sys2Proof.Config

/-- Which of the 26 capitals the revision letter is (R141); not stated (log 7). -/
opaque revisionIndex : Fin 26

/-- The revision letter of the part, an ASCII capital (R141). -/
def revision : BitVec 8 := BitVec.ofNat 8 (0x41 + revisionIndex.val)

/-- The serial number, eight bytes fixed at manufacture (R141); its value is not stated (log 7). -/
opaque serial : BitVec 64

/-- Whether a PROPOSE with no condition flag and timeout 0 stands for a command WITHOUT a condition part. R111 gives
the PROPOSE no field that says it (log 8). -/
opaque bareProposeHasNoCondition : Bool

end Sys2Proof.Config
end

