-- ==== Sys2Proof/Machine/Wire.lean ====
section
/-! DEFINITION. What stands on the lines: the 32-bit check (R2), the codes of R7, R131 and R137, and the layouts of the
forward and program frame (R3, R4, R8), the chunk (R5), the response, notice and table records (R131, R136, R137, R144)
and the gang frame (R111). -/

namespace Sys2Proof.Machine

/-! ## The frame check (R2) -/

/-- R2, step 3: one bit fed into the check register. -/
def checkBit (reg : Word) (b : Bool) : Word :=
  if reg.msb != b then (reg <<< 1) ^^^ 0x04C11DB7#32 else reg <<< 1

/-- R2, step 2: a byte is fed most significant bit first. -/
def checkByte (reg : Word) (x : Byte) : Word :=
  [7, 6, 5, 4, 3, 2, 1, 0].foldl (fun r i => checkBit r (x.getLsbD i)) reg

/-- R2: the check of the covered bytes. -/
def frameCheck (covered : List Byte) : Word := ~~~ (covered.foldl checkByte 0xFFFFFFFF#32)

/-- The sync word that every frame kind begins with (section 1.1). -/
def syncWord : List Byte := [0xE7#8, 0x1D#8]

/-- A frame on the line: sync word, covered bytes, check (R2). -/
def sealFrame (covered : List Byte) : List Byte := syncWord ++ covered ++ be32 (frameCheck covered)

/-- R2: whether a received frame of `len` bytes begins with the sync word and its check field is the recomputed one. -/
def goodCheck (len : Nat) (bytes : List Byte) : Bool :=
  bytes.length == len && bytes.take 2 == syncWord &&
    word bytes (len - 4) == frameCheck ((bytes.drop 2).take (len - 6))

/-! ## Codes (R7, R111, R131, R137) -/

def RxState.code : RxState → Nat
  | .noSignal => 0 | .hunting => 1 | .verifying => 2 | .locked => 3

def Transport.code : Transport → Nat
  | .stop => 0 | .play => 1 | .locate => 2

/-- R3: any other value is read as LOCATE. -/
def readTransport (b : Byte) : Transport := if b = 0#8 then .stop else if b = 1#8 then .play else .locate

def TrackState.code : TrackState → Nat
  | .noMeasure _ => 0 | .settling => 1 | .aligned => 2 | .offset => 3 | .misaligned => 4 | .outOfReach => 5

/-- R7, NO_MEASURE reason: 0 when the state is not NO_MEASURE. -/
def TrackState.whyCode : TrackState → Nat
  | .noMeasure .waiting => 1 | .noMeasure .stopped => 2 | .noMeasure .cueDiff => 3
  | .settling | .aligned | .offset | .misaligned | .outOfReach => 0

def CauseState.code : CauseState → Nat
  | .clear => 0 | .pending => 1 | .confirmed => 2 | .clearing => 3

def RigHealth.code : RigHealth → Nat
  | .good => 0 | .suspect => 1 | .recovering => 2 | .failed => 3

def rigCode : Rig → Nat
  | .A => 0 | .B => 1

def endCode : End → Nat
  | .rig .A => 0 | .rig .B => 1 | .dark => 2

def readEnd (b : Byte) : Option End :=
  if b = 0#8 then some (.rig .A) else if b = 1#8 then some (.rig .B) else if b = 2#8 then some .dark else none

def Mode.code : Mode → Nat
  | .auto => 0 | .manual => 1 | .fixed => 2

def Law.code : Law → Nat
  | .linear => 0 | .smooth => 1

def ReturnPolicy.code : ReturnPolicy → Nat
  | .stay => 0 | .returnHold => 1 | .returnAtStop => 2

def LastResort.code : LastResort → Nat
  | .stayOnFailed => 0 | .goDark => 1

def AlarmMode.code : AlarmMode → Nat
  | .level => 0 | .pulse => 1

def LockLevel.code : LockLevel → Nat
  | .opened => 0 | .guarded => 1 | .frozen => 2

def Role.code : Role → Nat
  | .solo => 0 | .leader => 1 | .follower => 2

def GangState.code : GangState → Nat
  | .off => 0 | .seeking => 1 | .up => 2 | .lost => 3

def SaveState.code : SaveState → Nat
  | .none => 0 | .saving => 1 | .ok => 2 | .storeFailed => 3

def sourceCode : Source → Nat
  | .ref => 0 | .gang => 1 | .rigA => 2 | .rigB => 3 | .free => 4

def RefuseReason.code : RefuseReason → Nat
  | .none => 0 | .noSlot => 1 | .broken => 2 | .orphan => 3 | .tooLong => 4

def Reason.code : Reason → Nat
  | .autoFailover => 0 | .autoReturn => 1 | .command => 2 | .button => 3 | .gang => 4 | .start => 5

/-- R131. -/
def Status.code : Status → Nat
  | .ok => 0 | .cancelled => 1 | .superseded => 2 | .timeout => 3 | .unknownCommand => 4 | .badLength => 5
  | .badParam => 6 | .badTarget => 7 | .locked => 8 | .isProtected => 9 | .busy => 10 | .unusable => 11
  | .notAligned => 12 | .storeFailed => 13

/-- The statuses in the order of their codes (R131). -/
def statuses : List Status :=
  [.ok, .cancelled, .superseded, .timeout, .unknownCommand, .badLength, .badParam, .badTarget, .locked, .isProtected,
   .busy, .unusable, .notAligned, .storeFailed]

def readStatusCode (b : Byte) : Option Status := statuses[b.toNat]?

/-- R130: the table of command codes. -/
def Code.byte : Code → Byte
  | .identify => 0x01#8 | .readStatus => 0x02#8 | .readHealth => 0x03#8 | .readCounts => 0x04#8
  | .readRoute => 0x05#8 | .readGroup => 0x06#8 | .readWatch => 0x07#8 | .readAlign => 0x08#8
  | .writeRoute => 0x20#8 | .writeGroup => 0x21#8 | .writeWatch => 0x22#8 | .writeSetup => 0x23#8
  | .restoreDefaults => 0x24#8 | .moveGroup => 0x40#8 | .setMode => 0x41#8 | .markRig => 0x42#8
  | .cancel => 0x43#8 | .setLock => 0x44#8 | .save => 0x45#8 | .bypass => 0x46#8 | .reset => 0x47#8

def codes : List Code :=
  [.identify, .readStatus, .readHealth, .readCounts, .readRoute, .readGroup, .readWatch, .readAlign, .writeRoute,
   .writeGroup, .writeWatch, .writeSetup, .restoreDefaults, .moveGroup, .setMode, .markRig, .cancel, .setLock, .save,
   .bypass, .reset]

/-- R130: the command of a code, none where the code is not in the table. -/
def readCode (b : Byte) : Option Code := codes.find? fun c => c.byte == b

/-! ## Chunks (R5, R125, R132) -/

/-- A 32-byte chunk of the given type and payload, zero beyond the payload (R5). -/
def chunk (type : Byte) (payload : List Byte) : List Byte :=
  [type, BitVec.ofNat 8 payload.length] ++ payload ++ List.replicate (30 - payload.length) 0#8

def emptyChunk : List Byte := chunk 0x00#8 []
def cancelChunk : List Byte := chunk 0x05#8 []

/-- R132: the next chunk of a message in send, and the count of bytes then sent. -/
def nextChunk (m : InSend) : List Byte × Nat :=
  let rest := m.bytes.drop m.sent
  let type : Byte :=
    if m.sent = 0 then (if rest.length ≤ 30 then 0x04#8 else 0x01#8)
    else (if rest.length ≤ 30 then 0x03#8 else 0x02#8)
  (chunk type (rest.take 30), m.sent + min 30 rest.length)

/-- Whether the last chunk of the message in send has gone (R132). -/
def InSend.finished (m : InSend) : Bool := decide (0 < m.sent) && decide (m.bytes.length ≤ m.sent)

/-! ## Responses and notices (R131, R136, R137) -/

/-- R131: the response record. -/
def Response.bytes (r : Response) : List Byte :=
  [r.tag, r.code] ++ be8 r.status.code ++ be8 r.index ++ be8 r.results.length ++ r.results

/-- R137: the kind of a notice and its body. -/
def NoticeBody.bytes : NoticeBody → Nat × List Byte
  | .groupMove g fin src dst reason unaligned q0 len =>
    (1, be8 g.val ++ be8 (bit fin) ++ be8 (endCode src) ++ be8 (endCode dst) ++ be8 reason.code ++ be8 (bit unaligned) ++
      be16 (BitVec.ofNat 16 q0) ++ be16 (BitVec.ofNat 16 len))
  | .rigHealth rig old new p c l st => (2, be8 (rigCode rig) ++ be8 old.code ++ be8 new.code ++ [p, c, l, st])
  | .align old new stable corr =>
    (3, be8 old.code ++ be8 new.code ++ be8 new.whyCode ++ be8 (bit stable.isSome + 2 * bit corr.isSome) ++
      beInt (stable.getD 0) ++
      match corr with
      | some (c, residual) => be8 (rigCode c.side) ++ beInt c.m ++ beInt c.applied ++ beInt residual
      | none => List.replicate 13 0#8)
  | .clock old new loss => (4, be8 (sourceCode old) ++ be8 (sourceCode new) ++ be8 (bit loss))
  | .lock old new byKey => (5, be8 old.code ++ be8 new.code ++ be8 (bit byKey))
  | .gang role old new => (6, be8 role.code ++ be8 old.code ++ be8 new.code)
  | .store event valid => (7, be8 event ++ be8 (bit valid))
  | .relay energized byCommand => (8, be8 (bit energized) ++ be8 (bit byCommand))

/-- R136: the notice record, with the gap flag written when the notice is begun. -/
def Notice.bytes (n : Notice) (gap : Bool) : List Byte :=
  [0xFF#8] ++ be8 n.body.bytes.1 ++ be8 (bit gap) ++ be32 n.frame ++ n.body.bytes.2

/-! ## Table entries (R144) -/

def slotByte : Option (Fin 64) → Byte
  | some n => BitVec.ofNat 8 n.val
  | none => 0xFF#8

/-- R144: a slot, 0..63 or 0xFF for NONE. -/
def readSlot (b : Byte) : Option (Option (Fin 64)) :=
  if b = 0xFF#8 then some none
  else if h : b.toNat < 64 then some (some ⟨b.toNat, h⟩) else none

def RouteEntry.bytes (e : RouteEntry) : List Byte :=
  be8 (128 * bit e.used + e.group.val) ++ [slotByte e.slotA, slotByte e.slotB]

def GroupEntry.bytes (e : GroupEntry) : List Byte :=
  be8 e.mode.code ++ be8 (rigCode e.home) ++ [e.mask] ++ be8 e.fade.val ++ be8 e.law.code ++ be8 e.policy.code ++
    be16 e.hold ++ be8 (bit e.requireAlign) ++ be8 e.lastResort.code ++ be8 (bit e.isProtected) ++ be8 (bit e.ganged)

def WatchEntry.bytes (e : WatchEntry) : List Byte :=
  be8 (bit e.enabled) ++ be16 e.confirm ++ be16 e.clear ++ be24 e.p1 ++ be16 e.p2

/-- R144: a slot list; positions beyond the count read as 0xFF. -/
def slotListBytes (slots : List (Fin 64)) : List Byte :=
  be8 slots.length ++ slots.map (fun n => BitVec.ofNat 8 n.val) ++ List.replicate (4 - slots.length) 0xFF#8

/-! ## The forward frame (R3, R4) and the program frame (R8) -/

/-- R4: the sample of period `p`, slot `s`, at byte 48 + 3·(64·p + s). -/
def frameSample (bytes : List Byte) (p s : Nat) : Sample := word24 bytes (48 + 3 * (64 * p + s))

/-- R3, R4: the fields of a 4660-byte forward frame whose check is good. -/
def readForward (bytes : List Byte) : ForwardFrame :=
  { seq := half bytes 2
    stamp := word bytes 4
    cueField := half bytes 8
    transport := byteAt bytes 10
    flags := byteAt bytes 11
    beat := byteAt bytes 12
    lane := (bytes.drop 16).take 32
    audio := (List.range 24).map fun p => (List.range 64).map fun s => frameSample bytes p s }

/-- R3: the cue number is the low 12 bits. -/
def frameCue (f : ForwardFrame) : Cue := f.cueField.extractLsb' 0 12

/-- R3: flags bit 0 is SELF_FAULT, bit 1 is RETURN_PAUSE. -/
def frameSelfFault (f : ForwardFrame) : Bool := f.flags.getLsbD 0
def frameReturnPause (f : ForwardFrame) : Bool := f.flags.getLsbD 1

/-- R8: the bytes of a program frame once its 24 periods are formed. -/
def ProgramFrame.bytes (f : ProgramFrame) : List Byte :=
  sealFrame (be16 f.seq ++ be32 f.stamp ++ be16 (0#4 ++ f.cue) ++ be8 f.transport.code ++ be8 0 ++ [f.beat] ++
    List.replicate 3 0#8 ++ f.lane ++ (f.audio.flatten.flatMap be24))

/-- What the line brings at a frame position: bytes that begin with a sync word, or no sync word (R10). -/
inductive LineItem where
  | frame (bytes : List Byte)
  | missing
  deriving DecidableEq, Repr

/-- R17: k, the frame's sequence minus the last sequence minus 1, modulo 65536. -/
def seqGap (last seq : Half) : Nat := (seq - last - 1#16).toNat

/-- R10, R13 to R18: which command an item at a frame position is for a receiver, none while the receiver reads nothing
there (R11, R12). -/
def lineEvent (rig : Rig) (rx : Receiver) (item : LineItem) : Option Instr :=
  match rx.state, item with
  | .noSignal, _ | .hunting, _ => none
  | .verifying, .missing => some (.verifyFailed rig)
  | .verifying, .frame b =>
    if goodCheck 4660 b then some (.verifyGoodFrame rig (readForward b)) else some (.verifyFailed rig)
  | .locked, .missing => some (.missingSyncWord rig)
  | .locked, .frame b =>
    if goodCheck 4660 b then
      match rx.lastSeq with
      | none => some (.goodFrame rig (readForward b))
      | some last =>
        if seqGap last (readForward b).seq = 0 then some (.goodFrame rig (readForward b))
        else if seqGap last (readForward b).seq ≤ 8 then some (.sequenceGap rig (readForward b))
        else some (.resync rig (readForward b))
    else some (.badCheckFrame rig)

/-- R12: in HUNTING the receiver finds a frame start at the first 0xE7 followed by 0x1D. -/
def huntSync : List Byte → Option Nat
  | a :: b :: rest =>
    if a = 0xE7#8 ∧ b = 0x1D#8 then some 0 else (huntSync (b :: rest)).map (· + 1)
  | [_] | [] => none

/-! ## The gang frame (R111) -/

/-- Two group state codes in one byte: the even group in bits 7..4 (R6). -/
def packCodes (codes : Fin 16 → Nat) : List Byte :=
  (List.finRange 8).map fun k =>
    BitVec.ofNat 8 (16 * codes ⟨2 * k.val, by omega⟩ + codes ⟨2 * k.val + 1, by omega⟩)

def Cond.flagBits (c : Cond) : Nat :=
  bit c.targetUsable + 2 * bit c.aligned + 4 * bit c.targetStopped + 8 * bit c.bothStopped

/-- The condition part of flags and timeout bytes (R129, R111). -/
def readCond (flags : Byte) (timeout : Half) : Cond :=
  { targetUsable := flags.getLsbD 0, aligned := flags.getLsbD 1, targetStopped := flags.getLsbD 2,
    bothStopped := flags.getLsbD 3, timeout }

/-- R111: message kind and its fields from byte 37. -/
def GangMsg.bytes : GangMsg → List Byte
  | .none => be8 0 ++ List.replicate 19 0#8
  | .move m =>
    be8 1 ++ be8 m.group.val ++ be8 (endCode m.src) ++ be8 (endCode m.dst) ++ be8 m.law.code ++
      be16 (BitVec.ofNat 16 m.len) ++ be16 (BitVec.ofNat 16 m.q0) ++ be32 m.start ++
      be8 (bit m.unaligned + 2 * bit m.failedOver + 4 * bit m.darkByRequest) ++ List.replicate 6 0#8
  | .propose p =>
    be8 2 ++ be8 p.ref.val ++ be8 (bit p.round) ++ be16 p.mask ++ be8 (endCode p.target) ++ be8 (bit p.force) ++
      (match p.cond with
       | some c => be8 c.flagBits ++ be16 c.timeout
       | Option.none => be8 0 ++ be16 0#16) ++ List.replicate 10 0#8
  | .answer a => be8 3 ++ be8 a.ref.val ++ be8 (bit a.round) ++ be8 a.status.code ++ List.replicate 16 0#8

/-- R111: a board entry. The rules give no status to an entry that is IDLE or HELD; its second byte is sent as 0 (log 56). -/
def BoardEntry.bytes (e : BoardEntry) : List Byte :=
  match e.state with
  | .idle => be8 (128 * bit e.round) ++ be8 0
  | .held _ _ => be8 (128 * bit e.round + 1) ++ be8 0
  | .answered st => be8 (128 * bit e.round + 2) ++ be8 st.code

/-- R111: bytes 2..59 of the gang frame, as the part stands. A follower's board is zeros (R111); a SOLO unit has a
ganged mask of 0 and a board of zeros (R109). -/
def gangCovered (s : Part) (m : GangMsg) : List Byte :=
  be8 s.gang.role.code ++ be8 s.gang.state.code ++ be32 s.clock.frame ++
    [(s.health.get .A).published, (s.health.get .B).published] ++
    be16 (if s.gang.role = .solo then 0#16 else maskOf 16 fun g => (groupEntry s g).ganged) ++
    packCodes (fun g => (s.groups.get g).course.code) ++
    (if s.gang.role = .leader then allRefs.flatMap fun r => (s.gang.board.get r).bytes else List.replicate 16 0#8) ++
    m.bytes ++ List.replicate 4 0#8

/-- R112: the partner's report in a received gang frame. -/
def readReport (b : List Byte) : GangReport :=
  { state := byteAt b 3
    frame := word b 4
    unus := ⟨byteAt b 8, byteAt b 9⟩
    ganged := half b 10
    codes := Tbl.ofFn fun g =>
      if g.val % 2 = 0 then (byteAt b (12 + g.val / 2)).extractLsb' 4 4 else (byteAt b (12 + g.val / 2)).extractLsb' 0 4
    board := Tbl.ofFn fun r =>
      { round := (byteAt b (20 + 2 * r.val)).getLsbD 7
        state := (byteAt b (20 + 2 * r.val)).extractLsb' 0 2
        status := byteAt b (21 + 2 * r.val) } }

def readBit (b : Byte) : Option Bool := if b = 0#8 then some false else if b = 1#8 then some true else none

def readLaw (b : Byte) : Option Law := if b = 0#8 then some .linear else if b = 1#8 then some .smooth else none

def readGroup16 (b : Byte) : Option (Fin 16) := if h : b.toNat < 16 then some ⟨b.toNat, h⟩ else none

/-- R112: a MOVE, none where a value lies outside R111, or from and to are equal with q0 below L, or q0 exceeds L. -/
def readMove (b : List Byte) : Option MoveMsg :=
  match readGroup16 (byteAt b 37), readEnd (byteAt b 38), readEnd (byteAt b 39), readLaw (byteAt b 40) with
  | some g, some src, some dst, some law =>
    let len := (half b 41).toNat
    let q0 := (half b 43).toNat
    if [1, 24, 48, 96, 192, 480, 960].contains len && decide (q0 ≤ len) && !(src == dst && decide (q0 < len)) then
      some { group := g, src, dst, law, len, q0, start := word b 45, unaligned := (byteAt b 49).getLsbD 0,
             failedOver := (byteAt b 49).getLsbD 1, darkByRequest := (byteAt b 49).getLsbD 2 }
    else none
  | _, _, _, _ => none

/-- R111, R120: a PROPOSE. Whether flags 0 with timeout 0 stand for no condition part is not stated (log 8). -/
def readPropose (b : List Byte) : Option ProposeMsg :=
  match readBit (byteAt b 38), readEnd (byteAt b 41) with
  | some round, some target =>
    if h : (byteAt b 37).toNat < 9 then
      let c := readCond (byteAt b 43) (half b 44)
      let bare := c.flagBits == 0 && c.timeout == 0#16
      some { ref := ⟨(byteAt b 37).toNat, h⟩, round, mask := half b 39, target, force := (byteAt b 42).getLsbD 0,
             cond := if bare && Config.bareProposeHasNoCondition then none else some c }
    else none
  | _, _ => none

/-- R111: an ANSWER. -/
def readAnswer (b : List Byte) : Option AnswerMsg :=
  match readBit (byteAt b 38), readStatusCode (byteAt b 39) with
  | some round, some status =>
    if h : (byteAt b 37).toNat < 8 then some { ref := ⟨(byteAt b 37).toNat, h⟩, round, status } else none
  | _, _ => none

/-- R112: the message of a received gang frame; a message outside the values of R111 is discarded. -/
def readGangMsg (b : List Byte) : GangMsg :=
  if byteAt b 36 = 1#8 then (match readMove b with | some m => .move m | none => .none)
  else if byteAt b 36 = 2#8 then (match readPropose b with | some p => .propose p | none => .none)
  else if byteAt b 36 = 3#8 then (match readAnswer b with | some a => .answer a | none => .none)
  else .none

end Sys2Proof.Machine
end

