-- ==== Sys2Proof/Machine/Ops.lean ====
section
/-! DEFINITION. The named operations that the blocks share: raising a notice (R135), completing a command (R131), ending
one part of a MOVE_GROUP or a proposal and unbinding its groups (R102, R103, R119, R120, R155), refusing a message
(R126), losing a clock source (R26, R27), flushing a ring (R34), and handing slips on (R33). -/

namespace Sys2Proof.Machine

/-! ## The outcome of a command -/

/-- A command's effect on the part; the queue stands. -/
def onPart (f : Part → Part) (s : State) : Host.Outcome State Fault Refusal := .next { s with toPart := f s.toPart }

/-- While the RESET line holds the part in line reset a command changes nothing (R1, R167; log 21). -/
def unlessReset (f : Part → Part) (s : Part) : Part := if s.inReset then s else f s

/-! ## Access to one rig's or one group's state -/

def Part.setRx (s : Part) (r : Rig) (x : Receiver) : Part := { s with rx := s.rx.set r x }
def Part.setRing (s : Part) (r : Rig) (x : Ring) : Part := { s with ring := s.ring.set r x }
def Part.setHealth (s : Part) (r : Rig) (x : Health) : Part := { s with health := s.health.set r x }
def Part.setPort (s : Part) (r : Rig) (x : Port) : Part := { s with port := s.port.set r x }
def Part.setGroup (s : Part) (g : Fin 16) (x : GroupRec) : Part := { s with groups := s.groups.set g x }

/-! ## Notices (R135) -/

/-- R135: a notice reaches a queue; where the queue holds 8, the oldest is discarded and gap pending is set. -/
def Lane.push (l : Lane) (n : Notice) : Lane :=
  if 8 ≤ l.notices.length then { l with notices := l.notices.drop 1 ++ [n], gapPending := true }
  else { l with notices := l.notices ++ [n] }

def Port.push (p : Port) (n : Notice) : Port := { p with lane := p.lane.push n }

/-- R135: a raised notice is copied to the three notice queues, with the local frame count of its raising. -/
def raise (b : NoticeBody) (s : Part) : Part :=
  let n : Notice := { frame := s.clock.frame, body := b }
  { s with port := s.port.map fun p => p.push n, program := { s.program with lane := s.program.lane.push n } }

def raiseAll (bs : List NoticeBody) (s : Part) : Part := bs.foldl (fun s b => raise b s) s

/-! ## Slots and responses (R128, R131) -/

def Port.find (p : Port) (id : Nat) : Option Held := p.slots.find? fun h => h.id == id

def Port.setPhase (p : Port) (id : Nat) (ph : Phase) : Port :=
  { p with slots := p.slots.map fun h => if h.id == id then { h with phase := ph } else h }

/-- R131: the command completes: its response is formed and placed at the back of its port's queue. A command that has
completed already, or that a reset has ended, is not there to complete. -/
def Port.respond (p : Port) (id : Nat) (st : Status) (index : Nat) (results : List Byte) : Port :=
  match p.find id with
  | none => p
  | some h =>
    if h.phase = .done then p
    else
      { p.setPhase id .done with
        responses := p.responses ++ [{ id, tag := h.tag, code := h.code, status := st, index, results }] }

def respond (r : Rig) (id : Nat) (st : Status) (index : Nat) (results : List Byte) (s : Part) : Part :=
  s.setPort r ((s.port.get r).respond id st index results)

def setPhase (r : Rig) (id : Nat) (ph : Phase) (s : Part) : Part := s.setPort r ((s.port.get r).setPhase id ph)

/-- R126: a refusal records its reason and tag in the port's intake status. -/
def refuseMessage (r : Rig) (tag : Byte) (why : RefuseReason) (s : Part) : Part :=
  s.setPort r { s.port.get r with refTag := tag, refReason := why }

/-! ## Parts of a MOVE_GROUP and proposals (R102, R103, R119, R120) -/

/-- The MOVE_GROUP in a slot. -/
def moveOf (s : Part) (r : Rig) (id : Nat) : Option MoveCmd :=
  match (s.port.get r).find id with
  | some ⟨_, _, _, _, .move m⟩ => some m
  | _ => none

def MoveCmd.part (m : MoveCmd) (ganged : Bool) : Option MovePart := if ganged then m.gang else m.own

def MoveCmd.setPart (m : MoveCmd) (ganged : Bool) (p : MovePart) : MoveCmd :=
  if ganged then { m with gang := some p } else { m with own := some p }

/-- What an owner asks for and how far it has come. -/
def ownerRun (s : Part) : Owner → Option (MoveReq × MovePart)
  | .command r id ganged =>
    match moveOf s r id with
    | some m => (m.part ganged).map fun p => (m.req, p)
    | none => none
  | .proposal ref =>
    match (s.gang.board.get ref).state with
    | .held req part => some (req, part)
    | .idle | .answered _ => none

def ownerStage (s : Part) (o : Owner) : Option Stage := (ownerRun s o).map fun x => x.2.stage

/-- The part of an owner takes a new stage. -/
def setStage (o : Owner) (st : Stage) (s : Part) : Part :=
  match o with
  | .command r id ganged =>
    match moveOf s r id with
    | some m =>
      match m.part ganged with
      | some p => setPhase r id (.move (m.setPart ganged { p with stage := st })) s
      | none => s
    | none => s
  | .proposal ref =>
    match (s.gang.board.get ref).state with
    | .held req part =>
      { s with gang := { s.gang with
          board := s.gang.board.set ref { s.gang.board.get ref with state := .held req { part with stage := st } } } }
    | .idle | .answered _ => s

/-- R102, R103: a binding is removed from every group that holds it; the groups play on as before. -/
def unbind (o : Owner) (s : Part) : Part :=
  { s with groups := s.groups.map fun r => if r.binding = some o then { r with binding := none } else r }

/-- R117: a newer ANSWER for a ref replaces an unsent older one in its place. -/
def pushAnswer (q : List AnswerMsg) (a : AnswerMsg) : List AnswerMsg :=
  if q.any fun x => x.ref == a.ref then q.map fun x => if x.ref == a.ref then a else x else q ++ [a]

def Stage.isEnded : Stage → Bool
  | .ended _ => true
  | .held | .waiting _ | .executed _ _ | .proposed _ => false

def partEnded : Option MovePart → Bool
  | none => true
  | some p => p.stage.isEnded

def partResults : Option MovePart → List Byte
  | some ⟨_, .ended r⟩ => r
  | _ => []

/-- R119, R152: the status and results of a MOVE_GROUP both of whose parts have ended. -/
def MoveCmd.outcome (m : MoveCmd) : Status × List Byte :=
  match m.first with
  | some x => x
  | none => (.ok, if m.own.isSome then partResults m.own else partResults m.gang)

/-- R119: a part of the command has ended with a status; the first status other than OK stands. -/
def MoveCmd.endPart (m : MoveCmd) (ganged : Bool) (p : MovePart) (st : Status) (results : List Byte) : MoveCmd :=
  let m' := m.setPart ganged { p with stage := .ended results }
  if st ≠ .ok ∧ m.first = none then { m' with first := some (st, results) } else m'

/-- The part of a MOVE_GROUP, or the proposal, ends with a status: its binding is removed from every group, and the
command completes once both parts have ended (R119), or the board entry becomes ANSWERED and an ANSWER is queued (R120). -/
def endOwner (o : Owner) (st : Status) (results : List Byte) (s : Part) : Part :=
  match o with
  | .command r id ganged =>
    match moveOf s r id with
    | none => s
    | some m =>
      match m.part ganged with
      | none => s
      | some p =>
        if p.stage.isEnded then s
        else
          let m' := m.endPart ganged p st results
          let s' := unbind o (setPhase r id (.move m') s)
          if partEnded m'.own && partEnded m'.gang then respond r id m'.outcome.1 0 m'.outcome.2 s' else s'
  | .proposal ref =>
    match (s.gang.board.get ref).state with
    | .held _ _ =>
      let e := s.gang.board.get ref
      unbind o { s with gang := { s.gang with
        board := s.gang.board.set ref { e with state := .answered st }
        answers := pushAnswer s.gang.answers ⟨ref, e.round, st⟩ } }
    | .idle | .answered _ => s

/-- R152: bound mask and execution frame of an executed part. -/
def executionBytes : Stage → List Byte
  | .executed bound frame => be16 bound ++ be32 frame
  | .held | .waiting _ | .proposed _ | .ended _ => []

/-- R103, R152: a bound command is superseded; the group whose departure or rebinding did it is named. -/
def supersede (o : Owner) (g : Fin 16) (s : Part) : Part :=
  match ownerStage s o with
  | some st => endOwner o .superseded (executionBytes st ++ be8 g.val) s
  | none => s

/-- R102: an executed part has arrived when every group that holds its binding is steady on the target. -/
def hasArrived (s : Part) (o : Owner) : Bool :=
  match ownerRun s o with
  | some (req, ⟨_, .executed _ _⟩) =>
    allGroups.all fun g => (s.groups.get g).binding != some o || (s.groups.get g).course == .steady req.target
  | _ => false

/-- The owners that groups are bound to, by group number. -/
def boundOwners (s : Part) : List Owner := (allGroups.filterMap fun g => (s.groups.get g).binding).dedup

/-- R102: the command completes OK when the last of its bound groups becomes steady on the target. -/
def settleArrival (o : Owner) (s : Part) : Part :=
  if hasArrived s o then
    match ownerStage s o with
    | some st => endOwner o .ok (executionBytes st) s
    | none => s
  else s

def settleArrivals (s : Part) : Part := (boundOwners s).foldl (fun s o => settleArrival o s) s

/-! ## Clock sources (R25, R26, R27) -/

/-- R27: a change of selected source raises a CLOCK notice. -/
def selectSource (src : Source) (loss : Bool) (s : Part) : Part :=
  raise (.clock s.clock.selected src loss) { s with clock := { s.clock with selected := src } }

/-- R25, R26: a source ceases to be present: its count becomes 0, and if it was selected the highest-priority source
still qualified is selected at once, with cause LOSS. -/
def sourceLost (src : Source) (s : Part) : Part :=
  let q := s.clock.qual.set src 0
  let s' := { s with clock := { s.clock with qual := q } }
  if s.clock.selected = src ∧ src ≠ .free then selectSource (bestSource s.tables.setup.reference q) true s' else s'

/-! ## Rings, slips and flushes (R33, R34, R43) -/

/-- R43: the tracker's history is emptied; the rest stands. -/
def clearHistory (s : Part) : Part := { s with tracker := { s.tracker with history := [] } }

/-- R34: a flush, which the tracker sees at once. -/
def flushRing (r : Rig) (s : Part) : Part := clearHistory (s.setRing r (s.ring.get r).flush)

def Counters.addSkip (c : Counters) : Counters := { c with skipSlips := c.skipSlips + 1#32 }
def Counters.addRepeats (c : Counters) (n : Nat) : Counters := { c with repeatSlips := c.repeatSlips + BitVec.ofNat 32 n }

/-- R33: a skip slip is reported to the receiver's counter and to the Health Watch. -/
def reportSkip (r : Rig) (s : Part) : Part :=
  let rx := s.rx.get r
  (s.setRx r { rx with counters := rx.counters.addSkip }).setHealth r (s.health.get r).slipped

/-- R20, R30, R55: one frame is written to the ring and reported to the Health Watch. A relock placement clears the
tracker's history (R35, R43). -/
def writeFrame (r : Rig) (rep : Report) (s : Part) : Part :=
  let (ring', slip) := (s.ring.get r).take rep s.tables.setup.fill
  let s1 := if slip then reportSkip r s else s
  let s2 := s1.setRing r ring'
  let s3 := s2.setHealth r ((s2.health.get r).arrive rep (s.tables.watch.get r))
  if rep.relock then clearHistory s3 else s3

/-! ## Relay and lock notices (R157, R162, R168) -/

/-- R168: a change of relay state raises a RELAY notice. -/
def relayChange (byCommand : Bool) (old : Bool) (s : Part) : Part :=
  if relay s ≠ old then raise (.relay (relay s) byCommand) s else s

/-- R157, R162: a change of lock level raises a LOCK notice. -/
def setLevel (level : LockLevel) (byKey : Bool) (s : Part) : Part :=
  if s.lock.level = level then s
  else raise (.lock s.lock.level level byKey) { s with lock := { s.lock with level } }

/-! ## The MOVE queue of a leader (R116) -/

/-- R116, R117: a new MOVE replaces an unsent one for its group in its place; the group's mismatch run becomes 0 (R121). -/
def queueMove (m : MoveMsg) (s : Part) : Part :=
  { s with gang := { s.gang with
      moves :=
        if s.gang.moves.any fun x => x.group == m.group then
          s.gang.moves.map fun x => if x.group == m.group then m else x
        else s.gang.moves ++ [m]
      mismatch := s.gang.mismatch.set m.group 0 } }

/-- R116, R121: a MOVE that sets the follower's group steady on its source at once: from DARK, with q0 equal to L. Its law,
which no rule gives, is the group's (log 42). -/
def steadyMove (s : Part) (g : Fin 16) (onto : End) : MoveMsg :=
  let r := s.groups.get g
  let len := fadeLength (groupEntry s g).fade
  { group := g, src := .dark, dst := onto, law := (groupEntry s g).law, len, q0 := len, start := s.clock.frame + 2#32,
    unaligned := false, failedOver := r.failedOver, darkByRequest := r.darkByRequest }

/-! ## Chunks that a lane sends (R132, R135) -/

/-- R132: the lane's choice once no pause holds it: the message in send, the oldest response, the oldest notice, or
EMPTY. The first response of `responses` leaves its queue when it is begun. -/
def Lane.choose (l : Lane) (responses : List Response) : List Byte × Lane × List Response :=
  match l.inSend with
  | some m => ((nextChunk m).1, { l with inSend := some { m with sent := (nextChunk m).2 } }, responses)
  | none =>
    match responses with
    | r :: rest =>
      let m : InSend := ⟨.response r.id (r.code == Code.reset.byte && r.status == .ok), r.bytes, 0⟩
      ((nextChunk m).1, { l with inSend := some { m with sent := (nextChunk m).2 } }, rest)
    | [] =>
      match l.notices with
      | n :: rest =>
        let m : InSend := ⟨.notice l.gapPending, n.bytes l.gapPending, 0⟩
        ((nextChunk m).1, { l with inSend := some { m with sent := (nextChunk m).2 }, notices := rest, gapPending := false },
          [])
      | [] => (emptyChunk, l, [])

/-- R132, R133: the chunk of a frame: CANCEL first after a reset, EMPTY while paused, otherwise the lane's choice. -/
def Lane.send (l : Lane) (isPaused : Bool) (responses : List Response) : List Byte × Lane × List Response :=
  if l.cancelFirst then (cancelChunk, { l with cancelFirst := false }, responses)
  else if isPaused then (emptyChunk, l, responses)
  else l.choose responses

/-- R132: a message whose last chunk has gone is no longer in send. -/
def Lane.sent (l : Lane) : Lane :=
  match l.inSend with
  | some m => if m.finished then { l with inSend := none } else l
  | none => l

end Sys2Proof.Machine
end

