-- ==== Sys2Proof/Machine/Frames.lean ====
section
/-! DEFINITION. The frames that the part begins at a boundary: the return frame with its summary (R6, R7, R132), the
program frame (R8, R9) and the gang frame (R111, R117); and the end of a frame (R128, R134). -/

namespace Sys2Proof.Machine

/-! ## The summary (R6, R7) -/

/-- R7: the stable offset clamped to −32767..32767, 0 while there is none. -/
def clampOffset (stable : Option Int) : Half := BitVec.ofInt 16 (max (-32767) (min 32767 (stable.getD 0)))

/-- R6, bytes 8 and 9, or 10 and 11: receiver state, health state, confirmed-cause set. -/
def rigSummary (s : Part) (x : Rig) : List Byte :=
  be8 (16 * (s.rx.get x).state.code + (s.health.get x).health.code) ++ [(s.health.get x).inState .confirmed]

/-- R6: bytes 4..27 of the summary that port `r` sends. -/
def summaryBytes (s : Part) (r : Rig) : List Byte :=
  let p := s.port.get r
  be16 (s.clock.frame.extractLsb' 0 16) ++
    be8 (16 * s.gang.role.code + s.gang.state.code) ++
    be8 (s.lock.level.code + 4 * bit s.lock.key + 8 * bit (relay s) + 16 * sourceCode s.clock.selected) ++
    rigSummary s .A ++ rigSummary s .B ++
    be8 (16 * s.tracker.state.code + s.tracker.state.whyCode) ++
    be16 (clampOffset s.tracker.stable) ++
    packCodes (fun g => (s.groups.get g).course.code) ++
    be8 p.free ++ [p.refTag] ++ be8 p.refReason.code ++ be8 s.store.save.code ++
    be8 (bit s.store.storeValid + 2 * bit p.lane.gapFlag)

/-! ## Return frames (R1, R6, R132, R133) -/

/-- R132: the sender's choice for the frame begun at this boundary. -/
def sendChunk (r : Rig) (s : Part) : List Byte × Part :=
  let p := s.port.get r
  let c := p.lane.send (paused s r) p.responses
  (c.1, s.setPort r { p with lane := c.2.1, responses := c.2.2 })

/-- R1, R6: a return frame is begun on a port; the summary is taken after the sender's choice (R135, R138). -/
def beginReturn (r : Rig) (s : Part) : Part :=
  let c := sendChunk r s
  let p := c.2.port.get r
  c.2.setPort r
    { p with
      seq := p.seq + 1#16
      out := some (sealFrame (be16 p.seq ++ summaryBytes c.2 r ++ List.replicate 4 0#8 ++ c.1)) }

/-- R128, R131: the response with this number has been sent, and its slot is freed. -/
def Port.freeSlot (p : Port) (id : Nat) : Port := { p with slots := p.slots.filter fun h => h.id != id }

/-- R128, R132, R134: the return frame on a port has been sent. A message whose last chunk it carried is no longer in
send; a response frees its slot, and an OK RESET response hands the reset request on. -/
def endReturn (r : Rig) (s : Part) : Part :=
  let p := s.port.get r
  match p.out with
  | none => s
  | some _ =>
    let p' := { p with out := none, lane := p.lane.sent }
    match p.lane.inSend with
    | none => s.setPort r p'
    | some m =>
      if m.finished then
        match m.kind with
        | .response id resets =>
          { s.setPort r (p'.freeSlot id) with resetRequested := s.resetRequested || resets }
        | .notice _ => s.setPort r p'
      else s.setPort r p'

/-! ## The program frame (R8, R9, R132) -/

/-- R132, R8: the program frame is begun with the chunk its sender chooses; the header follows. -/
def programLane (s : Part) : Part :=
  let p := s.program
  let c := p.lane.send false []
  { s with program := { p with
      lane := c.2.1
      out := some { seq := p.seq, stamp := p.stamp, cue := p.cue, transport := .stop, beat := p.beat, lane := c.1,
                    audio := [] }
      seq := p.seq + 1#16
      beat := p.beat + 1#8 } }

/-- R9: the position of a rig whose receiver is LOCKED and whose sample lies at a written position. -/
def headerYield (s : Part) (x : Rig) : Option Yield := if isLocked s x then (s.ring.get x).yield else none

/-- R9: stamp, cue and transport of the program frame begun at this boundary. -/
def headerFields (s : Part) : Word × Cue × Transport :=
  match headerYield s s.tables.setup.reference with
  | some y => (y.position, y.frame.cue, y.frame.transport)
  | none =>
    match headerYield s s.tables.setup.reference.other with
    | some y => (y.position, y.frame.cue, y.frame.transport)
    | none => (s.program.stamp + 24#32, s.program.cue, .stop)

/-- R9: the header is filled in, after any alignment move of the boundary (R38), from the state at the boundary: an arrival or
a loss of lock before the first sample period does not change it (log 46). -/
def programHeader (s : Part) : Part :=
  let h := headerFields s
  { s with program := { s.program with
      stamp := h.1
      cue := h.2.1
      out := s.program.out.map fun f => { f with stamp := h.1, cue := h.2.1, transport := h.2.2 } } }

/-- The program frame has been sent: its notice is no longer in send (R132). -/
def endProgram (s : Part) : Part :=
  match s.program.out with
  | none => s
  | some _ => { s with program := { s.program with lane := s.program.lane.sent } }

/-! ## The gang frame (R111, R117) -/

/-- R117, R122: a PROPOSE leaves its queue; its ref's send count is renewed. -/
def noteSent (p : ProposeMsg) (s : Part) : Part :=
  if h : p.ref.val < 8 then
    { s with gang := { s.gang with
        records := s.gang.records.set ⟨p.ref.val, h⟩
          { s.gang.records.get ⟨p.ref.val, h⟩ with sentAt := some s.clock.frame } } }
  else s

/-- R117: the message of the gang frame begun now: the oldest MOVE, else the oldest ANSWER, else the oldest PROPOSE. -/
def takeGangMsg (s : Part) : GangMsg × Part :=
  match s.gang.moves with
  | m :: rest => (.move m, { s with gang := { s.gang with moves := rest } })
  | [] =>
    match s.gang.answers with
    | a :: rest => (.answer a, { s with gang := { s.gang with answers := rest } })
    | [] =>
      match s.gang.proposes with
      | p :: rest => (.propose p, noteSent p { s with gang := { s.gang with proposes := rest } })
      | [] => (.none, s)

/-- R1, R111: the gang frame is begun. -/
def beginGang (s : Part) : Part :=
  let c := takeGangMsg s
  { c.2 with gang := { c.2.gang with out := some (sealFrame (gangCovered c.2 c.1)) } }

/-! ## All frames of a boundary -/

def beginFrames (s : Part) : Part := programLane (beginReturn .B (beginReturn .A s))

/-- The frames begun at the last boundary have been sent whole (R1; log 26). -/
def endFrames (s : Part) : Part := endProgram (endReturn .B (endReturn .A s))

end Sys2Proof.Machine
end

