-- ==== Sys2Proof/Machine/Groups.lean ====
section
/-! DEFINITION. The Switch Engine: fade arithmetic and the output samples (R91 to R94), the decision of a group at a
boundary (R88 to R101), the start states (R105, R106), the button requests (R104), and the checks and evaluation of
MOVE_GROUP and of proposals (R149 to R151). -/

namespace Sys2Proof.Machine

/-! ## Gains and mix (R92, R93) -/

/-- R92, step 1. -/
def fadePosition (q len : Nat) : Nat := q * 65536 / len

/-- R92, step 2: the "to" gain. -/
def gainTo (law : Law) (q len : Nat) : Nat :=
  match law with
  | .linear => fadePosition q len
  | .smooth => (3 * fadePosition q len ^ 2 * 65536 - 2 * fadePosition q len ^ 3) / 2 ^ 32

/-- R92, step 3: the "from" gain. -/
def gainFrom (law : Law) (q len : Nat) : Nat := 65536 - gainTo law q len

/-- R93: the exact mix, rounded to nearest with ties towards +∞ (division by a positive number is floor). -/
def mixInt (a b : Int) (gFrom gTo : Nat) : Int := (a * gFrom + b * gTo + 32768) / 65536

def mix (a b : Sample) (gFrom gTo : Nat) : Sample := BitVec.ofInt 24 (mixInt a.toInt b.toInt gFrom gTo)

/-- R94: what a source contributes to a channel. -/
def contribution (e : RouteEntry) (ya yb : Option Yield) : End → Sample
  | .rig .A => slotSample ya e.slotA
  | .rig .B => slotSample yb e.slotB
  | .dark => 0#24

/-- R94: the output sample of a channel by its route entry and its group's course. -/
def channelSample (e : RouteEntry) (c : Course) (ya yb : Option Yield) : Sample :=
  if !e.used then 0#24
  else
    match c with
    | .steady src => contribution e ya yb src
    | .fading f =>
      mix (contribution e ya yb f.kind.src) (contribution e ya yb f.kind.dst) (gainFrom f.law f.q f.len)
        (gainTo f.law f.q f.len)

/-- R94: the 64 output samples of a period. -/
def periodSamples (s : Part) : List Sample :=
  s.tables.routes.cells.map fun e =>
    channelSample e (s.groups.get e.group).course (s.ring.get .A).yield (s.ring.get .B).yield

/-! ## Fade progress (R91) -/

/-- R91: q rises by 1 while a group is fading, and stays within 0..L. -/
def Course.tick : Course → Course
  | .steady e => .steady e
  | .fading f => .fading { f with q := rise f.q f.len }

def tickFades (s : Part) : Part := { s with groups := s.groups.map fun r => { r with course := r.course.tick } }

/-- R107: the DONE notice repeats the fade's ends, reason, unaligned flag, initial q and L. -/
def doneNotice (g : Fin 16) (f : Fade) : NoticeBody :=
  .groupMove g true f.kind.src f.kind.dst f.reason f.unaligned f.q0 f.len

/-- R91: a fade that has reached L is complete: the group is steady on its "to" source and raises DONE. -/
def completeFade (g : Fin 16) (s : Part) : Part :=
  match (s.groups.get g).course with
  | .steady _ => s
  | .fading f =>
    if f.len ≤ f.q then
      raise (doneNotice g f) (s.setGroup g { s.groups.get g with course := .steady f.kind.dst })
    else s

def completeFades (s : Part) : Part := allGroups.foldl (fun s g => completeFade g s) s

/-! ## Transitions (R90) and what they set (R97, R98, R99, R107) -/

/-- R90: the fade that takes a course to a target: a start from 0, or a reversal or redirect from L − q; none where the
target is the present destination. -/
def turn (c : Course) (target : End) (len : Nat) (law : Law) : Option (FadeKind × Nat × Nat × Law) :=
  match c with
  | .steady x => (FadeKind.between x target).map fun k => (k, 0, len, law)
  | .fading f => (FadeKind.between f.kind.dst target).map fun k => (k, f.len - f.q, f.len, f.law)

/-- R107: rig A at one end and rig B at the other. -/
def FadeKind.crossesRigs : FadeKind → Bool
  | .aToB | .bToA => true
  | .aToDark | .bToDark | .darkToA | .darkToB => false

def Reason.isAuto : Reason → Bool
  | .autoFailover | .autoReturn => true
  | .command | .button | .gang | .start => false

/-- The result of a group's decision: its record, and the fade that a transition began. -/
structure Decision where
  after : GroupRec
  begun : Option Fade
  deriving DecidableEq, Repr

/-- R90, R97, R98, R99: the transition to a target for a reason, with the flags and the timer it sets. Where the target is
the present destination nothing changes, the failed-over flag and its timer neither (log 49). -/
def transition (s : Part) (g : Fin 16) (r : GroupRec) (target : End) (reason : Reason) : Decision :=
  let e := groupEntry s g
  match turn r.course target (fadeLength e.fade) e.law with
  | none => ⟨r, none⟩
  | some (kind, q, len, law) =>
    let f : Fade := { kind, q, len, law, reason, q0 := q,
                      unaligned := kind.crossesRigs && e.requireAlign && !alignMet s }
    ⟨{ r with
        course := .fading f
        failedOver := reason.isAuto && target == .rig e.home.other
        holdTimer := 0
        darkByRequest :=
          match target with
          | .rig _ => false
          | .dark => if reason.isAuto then r.darkByRequest else true },
      some f⟩

/-! ## Automatic policy (R96, R97, R99, R100) -/

/-- R96: failover and last resort for a destination. -/
def failoverTarget (s : Part) (g : Fin 16) : End → Option End
  | .dark => none
  | .rig x =>
    if rigUsable s g x then none
    else if rigUsable s g x.other then some (.rig x.other)
    else
      match (groupEntry s g).lastResort with
      | .goDark => some .dark
      | .stayOnFailed => none

/-- R97: the way out of DARK. -/
def darkReturn (s : Part) (g : Fin 16) (r : GroupRec) : Option (End × Reason) :=
  let home := (groupEntry s g).home
  if r.course = .steady .dark ∧ r.startPending = false ∧ r.darkByRequest = false then
    if rigUsable s g home then some (.rig home, .autoReturn)
    else if rigUsable s g home.other then some (.rig home.other, .autoFailover)
    else none
  else none

/-- R99: the return-hold timer's count at a boundary. -/
def countHold (s : Part) (g : Fin 16) (r : GroupRec) : GroupRec :=
  if r.failedOver then
    { r with holdTimer := if rigUsable s g (groupEntry s g).home then rise r.holdTimer 65535 else 0 }
  else r

/-- R99, R100: whether a failed-over group returns home, its timer being counted. Home must be usable, also under a hold of
0 (log 39). -/
def returnsHome (s : Part) (g : Fin 16) (r : GroupRec) : Bool :=
  let e := groupEntry s g
  r.failedOver && r.course == .steady (.rig e.home.other) && rigUsable s g e.home &&
    (!e.requireAlign || alignMet s) &&
    match e.policy with
    | .stay => false
    | .returnHold => decide (e.hold.toNat ≤ r.holdTimer)
    | .returnAtStop => s.tracker.inForce.bothStopped

/-- R88, step 3, where R96 leaves the course as it is: the way out of DARK, then the return policy. Each that acts replaces
`target`, which the requests or R96 have set; where none acts the transition is to `target`. -/
def decideReturns (s : Part) (g : Fin 16) (r : GroupRec) (target : Option (End × Reason)) : Decision :=
  match darkReturn s g r with
  | some (t, reason) => transition s g r t reason
  | none =>
    let r' := countHold s g r
    if returnsHome s g r' then transition s g r' (.rig (groupEntry s g).home) .autoReturn
    else
      match target with
      | some (t, reason) => transition s g r' t reason
      | none => ⟨r', none⟩

/-- R88, steps 3 and 4, for an AUTO group whose requests have set `asked`. Where R96 sets the present destination, the course
stays as it is (log 50); where it gives no target under STAY_ON_FAILED, a request stands (log 61). -/
def decideAuto (s : Part) (g : Fin 16) (r : GroupRec) (asked : Option (End × Reason)) : Decision :=
  let dest := match asked with
    | some (t, _) => t
    | none => r.course.dest
  match failoverTarget s g dest with
  | some t =>
    if t = r.course.dest then decideReturns s g r (some (t, .autoFailover)) else transition s g r t .autoFailover
  | none => decideReturns s g r asked

/-! ## The decision of a group (R88, R89) -/

/-- R89: the requests are taken in arrival order; the last one sets target and reason. -/
def askedFor (r : GroupRec) : Option (End × Reason) := r.requests.getLast?.map fun q => (q.dest, q.reason)

/-- R88: the decision of a group that is not start-pending and not led by a partner. -/
def decide88 (s : Part) (g : Fin 16) : Decision :=
  let r0 := s.groups.get g
  let r := { r0 with requests := [] }
  match (groupEntry s g).mode with
  | .fixed => ⟨r, none⟩
  | .manual =>
    match askedFor r0 with
    | some (t, reason) => transition s g r t reason
    | none => ⟨r, none⟩
  | .auto => decideAuto s g r (askedFor r0)

/-- R107: the BEGUN notice of a transition. -/
def begunNotice (g : Fin 16) (f : Fade) : NoticeBody :=
  .groupMove g false f.kind.src f.kind.dst f.reason f.unaligned f.q f.len

/-- R116: the MOVE of a leader's transition, on the state after it. -/
def transitionMove (s : Part) (g : Fin 16) (f : Fade) : MoveMsg :=
  { group := g, src := f.kind.src, dst := f.kind.dst, law := f.law, len := f.len, q0 := min (f.q + 48) f.len,
    start := s.clock.frame + 2#32, unaligned := f.unaligned, failedOver := (s.groups.get g).failedOver,
    darkByRequest := (s.groups.get g).darkByRequest }

/-- What follows a transition: the BEGUN notice, and on a leader in UP the MOVE of a matched group. -/
def announce (g : Fin 16) (f : Fade) (s : Part) : Part :=
  let s' := raise (begunNotice g f) s
  if isLeading s g then queueMove (transitionMove s' g f) s' else s'

/-- R103: a bound group that goes elsewhere than its command's target supersedes the command. -/
def supersedeIfElsewhere (g : Fin 16) (s : Part) : Part :=
  match (s.groups.get g).binding with
  | none => s
  | some o =>
    match ownerRun s o with
    | some (req, _) => if (s.groups.get g).course.dest ≠ req.target then supersede o g s else s
    | none => s

/-- R89, R104: a later request of the same boundary replaces an earlier one where the two differ, in their destination or
because the later carries a binding of its own (log 14). -/
def Request.replaces (later earlier : Request) : Bool :=
  later.dest != earlier.dest || (later.owner.isSome && later.owner != earlier.owner)

/-- R89: the bindings that the requests of one boundary carry and a later one replaces, in arrival order. -/
def replacedOwners : List Request → List Owner
  | [] => []
  | q :: rest => (if rest.any fun later => later.replaces q then q.owner.toList else []) ++ replacedOwners rest

/-- R89, R103: the commands whose requests a later one replaced at this group are superseded. -/
def supersedeReplaced (g : Fin 16) (requests : List Request) (s : Part) : Part :=
  (replacedOwners requests).foldl (fun t o => supersede o g t) s

/-- R88, step 5, R103: what a group's requests and its decision supersede. -/
def settleBinding (g : Fin 16) (requests : List Request) (s : Part) : Part :=
  supersedeIfElsewhere g (supersedeReplaced g requests s)

/-- R89, R101: a group that takes no request refuses those that have reached it, and the MOVE_GROUP or proposal that
made one ends. -/
def refuseRequests (st : Status) (g : Fin 16) (s : Part) : Part :=
  let r := s.groups.get g
  (r.requests.filterMap fun q => q.owner).foldl (fun s o => endOwner o st (be8 g.val) s)
    (s.setGroup g { r with requests := [] })

/-- R86: which groups decide at a boundary: those that are not led and that nothing else has taken up at it. -/
def decides (s : Part) (takenUp : Fin 16 → Bool) (g : Fin 16) : Bool := !takenUp g && !isLed s g

/-- R88 to R103, R107: all sixteen groups decide, each on its own record; then notices, MOVEs and supersessions. The notices and
the MOVEs of one boundary are queued in the order of the groups' numbers (logs 4 and 58). -/
def decideGroups (takenUp : Fin 16 → Bool) (s : Part) : Part :=
  let mine := allGroups.filter fun g => decides s takenUp g
  let s0 := (allGroups.filter fun g => !decides s takenUp g).foldl (fun s g => refuseRequests .busy g s) s
  let s1 := (mine.filter fun g => (groupEntry s g).mode == .fixed).foldl (fun s g => refuseRequests .badTarget g s) s0
  let s2 := { s1 with groups := Tbl.ofFn fun g => if decides s takenUp g then (decide88 s1 g).after else s1.groups.get g }
  let s3 := mine.foldl (fun t g => match (decide88 s1 g).begun with | some f => announce g f t | none => t) s2
  let failed := mine.any fun g => match (decide88 s1 g).begun with | some f => f.reason == .autoFailover | none => false
  let s4 := mine.foldl (fun t g => settleBinding g (s1.groups.get g).requests t) s3
  let pulse :=
    if s4.tables.setup.alarm = .pulse ∧ failed then 200 else s4.panel.pulse - 1
  { s4 with panel := { s4.panel with pulse } }

/-! ## Take buttons (R104) -/

/-- R104: whether a press reaches a group. A button proposal for DARK is judged in the same way, DARK being usable, for an AUTO
group too (log 59). -/
def pressQualifies (s : Part) (target : End) (g : Fin 16) : Bool :=
  let e := groupEntry s g
  let r := s.groups.get g
  !e.isProtected && e.mode != .fixed && !r.startPending && usable s g target && r.course.dest != target

def addRequest (g : Fin 16) (q : Request) (s : Part) : Part :=
  s.setGroup g { s.groups.get g with requests := (s.groups.get g).requests ++ [q] }

/-- R104: the press hands a BUTTON request to each group that qualifies; a follower's matched groups are passed over. -/
def handPress (target : End) (among : Fin 16 → Bool) (s : Part) : Part :=
  (allGroups.filter fun g => among g && !isLed s g && pressQualifies s target g).foldl
    (fun t g => addRequest g ⟨target, .button, none⟩ t) s

/-- R119: on a follower in UP a press with a matched set that is not empty queues a button proposal, also before takeover
(log 53); a newer one replaces an unsent older one in its place (R117). -/
def proposePress (b : Rig) (s : Part) : Part :=
  if s.gang.role = .follower ∧ s.gang.state = .up ∧ s.gang.matched ≠ 0#16 then
    let p : ProposeMsg := { ref := 8, round := !s.gang.btnRound, mask := s.gang.matched, target := .rig b,
                            force := false, cond := none }
    { s with gang := { s.gang with
        btnRound := !s.gang.btnRound
        proposes :=
          if s.gang.proposes.any fun x => x.ref == 8 then
            s.gang.proposes.map fun x => if x.ref == 8 then p else x
          else s.gang.proposes ++ [p] } }
  else s

/-- R104, R119, R171: a recognised press. -/
def press (b : Rig) (s : Part) : Part := proposePress b (handPress (.rig b) (fun _ => true) s)

/-- R120, R123: the button proposals that wait for this boundary hand their requests, also one whose target is DARK (log 59). -/
def applyPresses (s : Part) : Part :=
  s.gang.presses.foldl
    (fun t p => handPress p.target (fun g => inMask p.mask g && (!p.matchedOnly || isLeading t g)) t)
    { s with gang := { s.gang with presses := [] } }

/-! ## Group checks and conditions of MOVE_GROUP (R149, R151) -/

def otherEnd : End → Option End
  | .rig x => some (.rig x.other)
  | .dark => none

/-- R149, check a. -/
def failsA (s : Part) (target : End) (g : Fin 16) : Bool :=
  (groupEntry s g).mode == .fixed || (target == .dark && (groupEntry s g).mode == .auto)

/-- R149, check b. -/
def failsB (s : Part) (g : Fin 16) : Bool := (groupEntry s g).isProtected

/-- R149, check c. -/
def failsC (s : Part) (g : Fin 16) : Bool := (s.groups.get g).startPending

/-- R149, check d. -/
def failsD (s : Part) (target : End) (force : Bool) (g : Fin 16) : Bool :=
  (s.groups.get g).course.dest != target && !usable s g target && (!force || (groupEntry s g).mode != .manual)

/-- R149, check e. -/
def failsE (s : Part) (target : End) (force : Bool) (g : Fin 16) : Bool :=
  !force && (groupEntry s g).requireAlign && otherEnd target == some (s.groups.get g).course.dest && !alignMet s

/-- The lowest-numbered masked group that fails a check. -/
def firstFailing (mask : Half) (fails : Fin 16 → Bool) : Option (Fin 16) :=
  allGroups.find? fun g => inMask mask g && fails g

/-- R149, checks a and b in order. -/
def checkAB (s : Part) (mask : Half) (req : MoveReq) : Option (Status × Fin 16) :=
  match firstFailing mask (failsA s req.target) with
  | some g => some (.badTarget, g)
  | none => (firstFailing mask (failsB s)).map fun g => (.isProtected, g)

/-- R149, checks c, d and e in order. -/
def checkCDE (s : Part) (mask : Half) (req : MoveReq) : Option (Status × Fin 16) :=
  match firstFailing mask (failsC s) with
  | some g => some (.busy, g)
  | none =>
    match firstFailing mask (failsD s req.target req.force) with
    | some g => some (.unusable, g)
    | none => (firstFailing mask (failsE s req.target req.force)).map fun g => (.notAligned, g)

/-- R149, checks a to e. -/
def checkAll (s : Part) (mask : Half) (req : MoveReq) : Option (Status × Fin 16) :=
  match checkAB s mask req with
  | some x => some x
  | none => checkCDE s mask req

/-- R149: the checks at taking: a to e without a condition part, a and b with one. -/
def checkTaking (s : Part) (mask : Half) (req : MoveReq) : Option (Status × Fin 16) :=
  match req.cond with
  | none => checkAll s mask req
  | some _ => checkAB s mask req

/-- R151: the named conditions. -/
def condHolds (s : Part) (mask : Half) (target : End) (c : Cond) : Bool :=
  (!c.targetUsable || (firstFailing mask fun g => !usable s g target).isNone) &&
    (!c.aligned || s.tracker.inForce.aligned) &&
    (!c.targetStopped ||
      match target with
      | .dark => true
      | .rig x => s.tracker.inForce.transport.get x == some .stop) &&
    (!c.bothStopped || s.tracker.inForce.bothStopped)

/-- What the evaluation of a held or waiting MOVE_GROUP comes to at a boundary (R150, R151). -/
inductive Eval where
  | fail (st : Status) (g : Fin 16)
  | execute
  | timeout
  | wait (count : Nat)
  | idle
  deriving DecidableEq, Repr

/-- R120: a proposal's masked group that is not in the leader's matched set. -/
def checkMatched (s : Part) (o : Owner) (mask : Half) : Option (Status × Fin 16) :=
  match o with
  | .command _ _ _ => none
  | .proposal _ => (firstFailing mask fun g => !isLeading s g).map fun g => (.badTarget, g)

/-- R123: a follower's own part that has come to hold a matched group ends with BUSY (log 13), before the checks of R150 and
R151 (log 57). -/
def checkLed (s : Part) (mask : Half) : Option (Status × Fin 16) :=
  (firstFailing mask (isLed s)).map fun g => (.busy, g)

/-- The first of two checks that fails. -/
def orCheck (a b : Option (Status × Fin 16)) : Option (Status × Fin 16) :=
  match a with
  | some x => some x
  | none => b

/-- R150, R151: the evaluation at a boundary. The checks of the matched set come before checks a to e (logs 35 and 57). -/
def evalRun (s : Part) (o : Owner) (req : MoveReq) (p : MovePart) : Eval :=
  let gate := orCheck (checkMatched s o p.mask) (checkLed s p.mask)
  match p.stage with
  | .held =>
    match orCheck gate (checkAll s p.mask req) with
    | some (st, g) => .fail st g
    | none => .execute
  | .waiting n =>
    match orCheck gate (checkAB s p.mask req) with
    | some (st, g) => .fail st g
    | none =>
      match req.cond with
      | none => .execute
      | some c =>
        if condHolds s p.mask req.target c && (checkCDE s p.mask req).isNone then .execute
        else if c.timeout ≠ 0#16 ∧ c.timeout.toNat ≤ n + 1 then .timeout
        else .wait (n + 1)
  | .executed _ _ | .proposed _ | .ended _ => .idle

/-- R102: the masked groups that are not already steady on the target. -/
def toBind (s : Part) (mask : Half) (target : End) : Half :=
  maskOf 16 fun g => inMask mask g && (s.groups.get g).course != .steady target

/-- R102: the binding is set in a group's record; a command that held it is superseded. -/
def bindGroup (o : Owner) (g : Fin 16) (s : Part) : Part :=
  let s' := match (s.groups.get g).binding with
    | some old => if old = o then s else supersede old g s
    | none => s
  s'.setGroup g { s'.groups.get g with binding := some o }

/-- R102, R150: a MOVE_GROUP executes: it hands a request for the target, with its binding, to every masked group and binds
those not already steady on it; with none to bind it completes OK. -/
def executeRun (o : Owner) (req : MoveReq) (mask : Half) (s : Part) : Part :=
  let bound := toBind s mask req.target
  let s1 := setStage o (.executed bound s.clock.frame) s
  let s2 := (allGroups.filter fun g => inMask bound g).foldl (fun t g => bindGroup o g t) s1
  let s3 := (allGroups.filter fun g => inMask mask g).foldl
    (fun t g => addRequest g ⟨req.target, .command, some o⟩ t) s2
  if bound = 0#16 then endOwner o .ok (be16 bound ++ be32 s.clock.frame) s3 else s3

/-- R150, R151: one held or waiting MOVE_GROUP, or proposal, takes its turn at a boundary. -/
def runOwner (o : Owner) (s : Part) : Part :=
  match ownerRun s o with
  | none => s
  | some (req, p) =>
    match evalRun s o req p with
    | .fail st g => endOwner o st (be8 g.val) s
    | .execute => executeRun o req p.mask s
    | .timeout => endOwner o .timeout [] s
    | .wait n => setStage o (.waiting n) s
    | .idle => s

/-- The parts of a port's held commands, in the order the commands were taken, a command's own part before the part that it
has reclaimed from a lost link (log 55). -/
def portOwners (s : Part) (r : Rig) : List Owner :=
  (s.port.get r).slots.flatMap fun h => [.command r h.id false, .command r h.id true]

/-- The order in which the runs of a boundary take their turns: the ports' and the held proposals by the world's order
(R89, R150; log 3). -/
def allOwners (s : Part) (ord : Order) : List Owner :=
  let ports := if ord.bFirst then portOwners s .B ++ portOwners s .A else portOwners s .A ++ portOwners s .B
  let proposals := allRefs.map fun r => Owner.proposal r
  if ord.proposalsFirst then proposals ++ ports else ports ++ proposals

def runMoves (ord : Order) (s : Part) : Part := (allOwners s ord).foldl (fun t o => runOwner o t) s

/-! ## Takeover (R105, R106) -/

/-- R105: a rig is start-ready when its receiver is LOCKED and it is usable for group 0's cause mask, locally (R115). -/
def triggerReady (s : Part) (x : Rig) : Bool := isLocked s x && localUsable s (groupEntry s 0).mask x

/-- R105: a rig's start-ready count at a boundary. -/
def readyCount (s : Part) (x : Rig) : Nat := if triggerReady s x then rise (s.takeover.ready.get x) 20000 else 0

/-- R105: whether takeover happens, by the counts of this boundary. -/
def takeoverDue (s : Part) : Bool :=
  !s.takeover.done &&
    ((triggerReady s .A && triggerReady s .B) ||
      (triggerReady s .A && decide (s.tables.setup.startHold.toNat ≤ readyCount s .A)) ||
      (triggerReady s .B && decide (s.tables.setup.startHold.toNat ≤ readyCount s .B)))

/-- R106: the start state of a group. -/
def startState (s : Part) (g : Fin 16) : End :=
  let e := groupEntry s g
  match e.mode with
  | .fixed => .rig e.home
  | .auto | .manual =>
    if startReady s g e.home then .rig e.home
    else if startReady s g e.home.other then .rig e.home.other
    else .dark

/-- R106: a start-pending group takes its start state; a follower's matched group in UP stays DARK. The START notice's
"from" end is DARK for every group (log 40). -/
def takeStart (g : Fin 16) (s : Part) : Part :=
  if (s.groups.get g).startPending then
    let e := groupEntry s g
    let st := if isLed s g then .dark else startState s g
    let s0 := refuseRequests .busy g s
    let s1 := s0.setGroup g
      { s0.groups.get g with
        course := .steady st
        startPending := false
        failedOver := e.mode == .auto && st == .rig e.home.other
        holdTimer := 0 }
    let s2 := raise (.groupMove g true .dark st .start false 0 0) s1
    if isLeading s g then queueMove (steadyMove s2 g st) s2 else s2
  else s

/-- R105, R106, R168: takeover: the flag is set, every start-pending group takes its start state, and the relay follows. -/
def takeOver (s : Part) : Part :=
  let s1 := { s with takeover := { done := true, ready := PerRig.both 0 } }
  relayChange false (relay s) (allGroups.foldl (fun t g => takeStart g t) s1)

/-- R105: the counts rise at each boundary while takeover is not done; takeover happens when it is due. -/
def takeoverTurn (s : Part) : Part :=
  if s.takeover.done then s
  else if takeoverDue s then takeOver s
  else { s with takeover := { s.takeover with ready := ⟨readyCount s .A, readyCount s .B⟩ } }

/-! ## On air (R46) -/

/-- R46: some group is steady on the rig or fading from it or to it. -/
def Course.touches (c : Course) (x : Rig) : Bool :=
  match c with
  | .steady e => e == .rig x
  | .fading f => f.kind.src == .rig x || f.kind.dst == .rig x

def rigOnAir (s : Part) (x : Rig) : Bool := allGroups.any fun g => (s.groups.get g).course.touches x

def publishOnAir (s : Part) : Part :=
  { s with tracker := { s.tracker with onAir := ⟨rigOnAir s .A, rigOnAir s .B⟩ } }

end Sys2Proof.Machine
end

