-- ==== Sys2Proof/Machine/Operands.lean ====
section
/-! DEFINITION. What a command message carries: its parts (R129), the length, lock and store gates (R140), and its
parameters with their ranges (R75, R79, R63, R82, R143 to R159), each failure with its parameter index. -/

namespace Sys2Proof.Machine

/-! ## The message (R129) and the gates (R140) -/

/-- R129: parameters and condition part of a message; none where the length agrees with neither form. -/
def readMessage (msg : List Byte) : Option (List Byte × Option (Byte × Half)) :=
  let n := (byteAt msg 2).toNat
  if msg.length = 3 + n then some (msg.drop 3, none)
  else if msg.length = 6 + n then some ((msg.drop 3).take n, some (byteAt msg (3 + n), half msg (4 + n)))
  else none

/-- R140: whether a command of this code accepts a condition part. -/
def Code.takesCond : Code → Bool
  | .moveGroup => true
  | _ => false

/-- R140: the length of WRITE_ROUTE's parameters; outside 1..64 the count is left to the range check. -/
def routeLengthOk (params : List Byte) : Bool :=
  let count := (byteAt params 1).toNat
  decide (2 ≤ params.length) && (!(decide (1 ≤ count) && decide (count ≤ 64)) || params.length == 2 + 3 * count)

/-- R140: the parameter lengths. -/
def Code.lengthOk (c : Code) (params : List Byte) : Bool :=
  match c with
  | .identify | .readStatus | .readAlign | .restoreDefaults | .save | .reset => params.length == 0
  | .readHealth | .readCounts | .readRoute | .readGroup | .setMode | .markRig | .cancel => params.length == 2
  | .readWatch | .setLock | .bypass => params.length == 1
  | .writeRoute => routeLengthOk params
  | .writeGroup => params.length == 13
  | .writeWatch => params.length == 12
  | .writeSetup => params.length == 8
  | .moveGroup => params.length == 4

/-- R140: the lock levels at which a command is taken. -/
def Code.takenAt (c : Code) (level : LockLevel) : Bool :=
  match c with
  | .writeRoute | .writeGroup | .writeWatch | .writeSetup | .restoreDefaults | .bypass | .reset => level == .opened
  | .setMode => level != .frozen
  | .identify | .readStatus | .readAlign | .readHealth | .readCounts | .readRoute | .readGroup | .readWatch
  | .moveGroup | .markRig | .cancel | .setLock | .save => true

/-- R140: the commands that are refused with BUSY during a save. -/
def Code.waitsForStore : Code → Bool
  | .writeRoute | .writeGroup | .writeWatch | .writeSetup | .restoreDefaults | .save => true
  | .identify | .readStatus | .readAlign | .readHealth | .readCounts | .readRoute | .readGroup | .readWatch
  | .moveGroup | .setMode | .markRig | .cancel | .setLock | .bypass | .reset => false

/-! ## Parameters -/

/-- R155: what a CANCEL selects. -/
inductive Scope where
  | tag (t : Byte)
  | waiting
  | all
  deriving DecidableEq, Repr

/-- A command with its parameters read and in range. -/
inductive Command where
  | identify
  | readStatus
  | readHealth (rig : Rig) (clear : Byte)
  | readCounts (rig : Rig) (clear : Bool)
  | readRoute (first count : Nat)
  | readGroup (first count : Nat)
  | readWatch (rig : Rig)
  | readAlign
  | write (act : WriteAct)
  | moveGroup (mask : Half) (req : MoveReq)
  | setMode (g : Fin 16) (mode : Mode)
  | markRig (rig : Rig) (fault : Bool)
  | cancel (scope : Scope)
  | setLock (level : LockLevel)
  | save
  | bypass (engage : Bool)
  | reset
  deriving DecidableEq, Repr

/-- A value read from a byte, or the parameter index of the failure (R139). -/
def field {α : Type} (index : Nat) (x : Option α) : Except Nat α :=
  match x with
  | some a => .ok a
  | none => .error index

/-- A range check that fails at an index. -/
def require (index : Nat) (ok : Bool) : Except Nat Unit := if ok then .ok () else .error index

def readRig (b : Byte) : Option Rig := if b = 0#8 then some .A else if b = 1#8 then some .B else none

def readMode (b : Byte) : Option Mode :=
  if b = 0#8 then some .auto else if b = 1#8 then some .manual else if b = 2#8 then some .fixed else none

def readPolicy (b : Byte) : Option ReturnPolicy :=
  if b = 0#8 then some .stay else if b = 1#8 then some .returnHold else if b = 2#8 then some .returnAtStop else none

def readLastResort (b : Byte) : Option LastResort :=
  if b = 0#8 then some .stayOnFailed else if b = 1#8 then some .goDark else none

def readAlarm (b : Byte) : Option AlarmMode := if b = 0#8 then some .level else if b = 1#8 then some .pulse else none

def readLevel (b : Byte) : Option LockLevel :=
  if b = 0#8 then some .opened else if b = 1#8 then some .guarded else if b = 2#8 then some .frozen else none

def readFade (b : Byte) : Option (Fin 7) := if h : b.toNat < 7 then some ⟨b.toNat, h⟩ else none

def readSlot64 (b : Byte) : Option (Fin 64) := if h : b.toNat < 64 then some ⟨b.toNat, h⟩ else none

/-- R147: the route entry whose first byte has index `i`; a USED entry with both slots NONE fails at its slot on B. -/
def readRouteEntry (p : List Byte) (i : Nat) : Except Nat RouteEntry := do
  let b := byteAt p (i - 1)
  require i (b.extractLsb' 4 3 == 0#3)
  let slotA ← field (i + 1) (readSlot (byteAt p i))
  let slotB ← field (i + 2) (readSlot (byteAt p (i + 1)))
  require (i + 2) (!(b.getLsbD 7 && slotA.isNone && slotB.isNone))
  pure { used := b.getLsbD 7, slotA, slotB, group := (b.extractLsb' 0 4).toFin }

/-- R147: the entries of a WRITE_ROUTE, checked in channel order. -/
def readRouteEntries (p : List Byte) (i : Nat) : Nat → Except Nat (List RouteEntry)
  | 0 => .ok []
  | n + 1 => do
    let e ← readRouteEntry p i
    let rest ← readRouteEntries p (i + 3) n
    pure (e :: rest)

/-- R75, R147. -/
def readWriteRoute (p : List Byte) : Except Nat Command := do
  let first := (byteAt p 0).toNat
  let count := (byteAt p 1).toNat
  require 1 (decide (first ≤ 63))
  require 2 (decide (1 ≤ count) && decide (count ≤ 64))
  require 2 (decide (first + count ≤ 64))
  let entries ← readRouteEntries p 3 count
  pure (.write (.route first entries))

/-- R79, R147: the fields in the order of R78. -/
def readWriteGroup (p : List Byte) : Except Nat Command := do
  let g ← field 1 (readGroup16 (byteAt p 0))
  let mode ← field 2 (readMode (byteAt p 1))
  let home ← field 3 (readRig (byteAt p 2))
  let fade ← field 5 (readFade (byteAt p 4))
  let law ← field 6 (readLaw (byteAt p 5))
  let policy ← field 7 (readPolicy (byteAt p 6))
  let requireAlign ← field 10 (readBit (byteAt p 9))
  let lastResort ← field 11 (readLastResort (byteAt p 10))
  let isProtected ← field 12 (readBit (byteAt p 11))
  let ganged ← field 13 (readBit (byteAt p 12))
  pure (.write (.group g { mode, home, mask := byteAt p 3, fade, law, policy, hold := half p 7, requireAlign, lastResort,
                           isProtected, ganged }))

/-- R63, R148: the first parameter of a cause; zero for a cause that has none. -/
def readP1 (cause : Fin 8) (x : BitVec 24) : Option (BitVec 24) :=
  if cause = Cause.frameErrors.idx then (if 8 ≤ x.toNat ∧ x.toNat ≤ 255 then some x else none)
  else if cause = Cause.silence.idx then (if x.toNat ≤ 8388608 then some x else none)
  else some 0#24

/-- R63, R148: the second parameter of a cause; zero for a cause that has none. -/
def readP2 (cause : Fin 8) (x : Half) : Option Half :=
  if cause = Cause.beatLost.idx ∨ cause = Cause.silence.idx then (if x = 0#16 then none else some x) else some 0#16

/-- R148: a cause item. -/
def readWatchCause (p : List Byte) (rig : Rig) (cause : Fin 8) : Except Nat Command := do
  let enabled ← field 3 (readBit (byteAt p 2))
  let p1 ← field 8 (readP1 cause (word24 p 7))
  let p2 ← field 11 (readP2 cause (half p 10))
  pure (.write (.watchCause rig cause { enabled, confirm := half p 3, clear := half p 5, p1, p2 }))

/-- R148: the slots of a slot list, none out of range or equal to an earlier one. -/
def readSlots (p : List Byte) (i : Nat) (seen : List (Fin 64)) : Nat → Except Nat (List (Fin 64))
  | 0 => .ok seen
  | n + 1 => do
    let slot ← field i (readSlot64 (byteAt p (i - 1)))
    require i (!seen.contains slot)
    readSlots p (i + 1) (seen ++ [slot]) n

/-- R148: the slot-list item. -/
def readWatchSlots (p : List Byte) (rig : Rig) : Except Nat Command := do
  let count := (byteAt p 2).toNat
  require 3 (decide (1 ≤ count) && decide (count ≤ 4))
  let slots ← readSlots p 4 [] count
  pure (.write (.watchSlots rig slots))

/-- R148. -/
def readWriteWatch (p : List Byte) : Except Nat Command := do
  let rig ← field 1 (readRig (byteAt p 0))
  let item := byteAt p 1
  if h : item.toNat < 8 then readWatchCause p rig ⟨item.toNat, h⟩
  else do
    require 2 (item == 8#8)
    readWatchSlots p rig

/-- R82, R148. -/
def readWriteSetup (p : List Byte) : Except Nat Command := do
  let fill := half p 0
  let tolerance := half p 2
  require 1 (decide (48 ≤ fill.toNat) && decide (fill.toNat ≤ 1536))
  require 3 (decide (tolerance.toNat ≤ 480))
  let reference ← field 5 (readRig (byteAt p 4))
  let alarm ← field 6 (readAlarm (byteAt p 5))
  let startHold := half p 6
  require 7 (decide (startHold.toNat ≤ 20000))
  pure (.write (.setup { fill, tolerance, reference, alarm, startHold }))

/-- R129, R149: bits 4..7 of the condition flags are zero; any timeout is in range. -/
def readCondPart (cond : Option (Byte × Half)) : Except Nat (Option Cond) :=
  match cond with
  | none => .ok none
  | some (flags, timeout) => do
    require 5 (flags.extractLsb' 4 4 == 0#4)
    pure (some (readCond flags timeout))

/-- R149. -/
def readMoveGroup (p : List Byte) (cond : Option (Byte × Half)) : Except Nat Command := do
  let mask := half p 0
  require 1 (mask != 0#16)
  let target ← field 3 (readEnd (byteAt p 2))
  let flags := byteAt p 3
  require 4 (flags.extractLsb' 1 7 == 0#7)
  let cond ← readCondPart cond
  pure (.moveGroup mask { target, force := flags.getLsbD 0, cond })

/-- R144: first and count of READ_ROUTE (`n` = 64) and READ_GROUP (`n` = 16). -/
def readSpan (p : List Byte) (n : Nat) : Except Nat (Nat × Nat) := do
  let first := (byteAt p 0).toNat
  let count := (byteAt p 1).toNat
  require 1 (decide (first < n))
  require 2 (decide (1 ≤ count) && decide (count ≤ n))
  require 2 (decide (first + count ≤ n))
  pure (first, count)

/-- R155: under scope TAG the tag must be 0..254. -/
def readCancel (p : List Byte) : Except Nat Command :=
  if byteAt p 0 = 0#8 then do
    require 2 (byteAt p 1 != 0xFF#8)
    pure (.cancel (.tag (byteAt p 1)))
  else if byteAt p 0 = 1#8 then .ok (.cancel .waiting)
  else if byteAt p 0 = 2#8 then .ok (.cancel .all)
  else .error 1

/-- R139, step 5: the parameters in byte order, then the condition part; the index of the first out of range. -/
def readCommand (c : Code) (p : List Byte) (cond : Option (Byte × Half)) : Except Nat Command :=
  match c with
  | .identify => .ok .identify
  | .readStatus => .ok .readStatus
  | .readAlign => .ok .readAlign
  | .readHealth => do
    let rig ← field 1 (readRig (byteAt p 0))
    pure (.readHealth rig (byteAt p 1))
  | .readCounts => do
    let rig ← field 1 (readRig (byteAt p 0))
    let clear ← field 2 (readBit (byteAt p 1))
    pure (.readCounts rig clear)
  | .readRoute => do
    let x ← readSpan p 64
    pure (.readRoute x.1 x.2)
  | .readGroup => do
    let x ← readSpan p 16
    pure (.readGroup x.1 x.2)
  | .readWatch => do
    let rig ← field 1 (readRig (byteAt p 0))
    pure (.readWatch rig)
  | .writeRoute => readWriteRoute p
  | .writeGroup => readWriteGroup p
  | .writeWatch => readWriteWatch p
  | .writeSetup => readWriteSetup p
  | .restoreDefaults => .ok (.write .defaults)
  | .moveGroup => readMoveGroup p cond
  | .setMode => do
    let g ← field 1 (readGroup16 (byteAt p 0))
    let mode ← field 2 (readMode (byteAt p 1))
    pure (.setMode g mode)
  | .markRig => do
    let rig ← field 1 (readRig (byteAt p 0))
    let fault ← field 2 (readBit (byteAt p 1))
    pure (.markRig rig fault)
  | .cancel => readCancel p
  | .setLock => do
    let level ← field 1 (readLevel (byteAt p 0))
    pure (.setLock level)
  | .save => .ok .save
  | .bypass => do
    let release ← field 1 (readBit (byteAt p 0))
    pure (.bypass !release)
  | .reset => .ok .reset

end Sys2Proof.Machine
end

