-- ==== Sys2Proof/Machine/Commands.lean ====
section
/-! DEFINITION. Taking a command (R126, R127), judging it (R139) and what each command does when it is taken (R141 to
R160). What follows at later boundaries stands in Groups.lean, Writes.lean, Gang.lean and Store.lean. -/

namespace Sys2Proof.Machine

/-! ## Reads (R141 to R145) -/

/-- R141. -/
def identifyBytes (s : Part) : List Byte :=
  be16 0x0C31#16 ++ be16 480#16 ++ [Config.revision] ++ be8 s.gang.role.code ++ be64 Config.serial

/-- R142: a bit for each group. -/
def groupBits (s : Part) (p : GroupRec → Bool) : List Byte := be16 (maskOf 16 fun g => p (s.groups.get g))

/-- R142. -/
def statusBytes (s : Part) (r : Rig) : List Byte :=
  let t := s.tables.setup
  summaryBytes s r ++ be16 t.fill ++ be16 t.tolerance ++ be8 (rigCode t.reference) ++ be8 t.alarm.code ++
    be16 t.startHold ++ be8 (bit s.takeover.done + 2 * bit s.panel.bypass) ++
    groupBits s (fun r => r.failedOver) ++ groupBits s (fun r => r.darkByRequest) ++
    groupBits s (fun r => r.binding.isSome) ++ be8 (bit (tally s .A) + 2 * bit (tally s .B) + 4 * bit (alarm s))

/-- R143: the three bytes of a cause. -/
def causeBytes (s : Part) (x : Rig) (c : Cause) : List Byte :=
  let w := s.tables.watch.get x
  let h := s.health.get x
  let k := h.causes.get c.idx
  be8 (bit (w.causes.get c.idx).enabled + 2 * bit (activity (s.rx.get x) w h c) + 4 * k.state.code) ++
    be16 (BitVec.ofNat 16 k.timer)

/-- R71, R143. -/
def healthBytes (s : Part) (x : Rig) : List Byte :=
  let h := s.health.get x
  be8 (rigCode x) ++ (Cause.all.flatMap fun c => causeBytes s x c) ++
    be16 (BitVec.ofNat 16 h.beatAge) ++ be16 (BitVec.ofNat 16 h.silenceRun) ++ be16 (BitVec.ofNat 16 h.slipWindow) ++
    be8 (bit h.mark + 2 * bit (s.rx.get x).selfFault) ++ [h.sticky] ++ be8 h.health.code ++ [h.published]

/-- R143: the rig and its seven counters, in the order of R22. -/
def countBytes (s : Part) (x : Rig) : List Byte :=
  let c := (s.rx.get x).counters
  be8 (rigCode x) ++ be32 c.good ++ be32 c.bad ++ be32 c.lost ++ be32 c.concealed ++ be32 c.skipSlips ++
    be32 c.repeatSlips ++ be32 c.resyncs

/-- R144: READ_ROUTE. -/
def routeBytes (s : Part) (first count : Nat) : List Byte :=
  be8 first ++ be8 count ++ (((s.tables.routes.cells.drop first).take count).flatMap fun e => e.bytes)

/-- R144: READ_GROUP. -/
def groupBytes (s : Part) (first count : Nat) : List Byte :=
  be8 first ++ be8 count ++ (((s.tables.groups.cells.drop first).take count).flatMap fun e => e.bytes)

/-- R144: READ_WATCH. -/
def watchBytes (s : Part) (x : Rig) : List Byte :=
  let w := s.tables.watch.get x
  be8 (rigCode x) ++ (w.causes.cells.flatMap fun e => e.bytes) ++ slotListBytes w.slots

/-- R145: a field whose presence bit is clear is sent as zero. -/
def alignBytes (s : Part) : List Byte :=
  let t := s.tracker
  be8 t.state.code ++ be8 t.state.whyCode ++
    be8 (bit t.stable.isSome + 2 * bit t.lastMeas.isSome + 4 * bit t.lastCorr.isSome) ++
    beInt (t.stable.getD 0) ++
    (match t.lastMeas with
     | some (m, frame) => beInt m ++ be32 frame
     | none => List.replicate 8 0#8) ++
    beInt (s.ring.get .A).fill ++ beInt (s.ring.get .B).fill ++ beInt t.residual ++
    (match t.lastCorr with
     | some c => be8 (rigCode c.side) ++ beInt c.m ++ beInt c.applied
     | none => List.replicate 9 0#8)

/-- R71, R143: the clear mask's causes leave the sticky set. -/
def clearSticky (x : Rig) (clear : Byte) (s : Part) : Part :=
  s.setHealth x { s.health.get x with sticky := (s.health.get x).sticky &&& ~~~clear }

/-- R22, R143: the counters of a rig become 0. -/
def clearCounts (x : Rig) (s : Part) : Part := s.setRx x { s.rx.get x with counters := Counters.zero }

/-! ## Table writes (R76, R80, R85, R146) -/

def groupFading (s : Part) (g : Fin 16) : Bool := (s.groups.get g).course.isFading

/-- R76: the group in force or the new group of a channel is fading. -/
def routeFading (s : Part) (first : Nat) (entries : List RouteEntry) : Bool :=
  (((s.tables.routes.cells.drop first).take entries.length).any fun e => groupFading s e.group) ||
    entries.any fun e => groupFading s e.group

/-- R80: a group would be made FIXED on a rig it is not steady on. -/
def fixesOffHome (s : Part) (g : Fin 16) (mode : Mode) (home : Rig) : Bool :=
  mode == .fixed && !(s.groups.get g).startPending && (s.groups.get g).course != .steady (.rig home)

/-- R147, R148: the own checks of a write. -/
def writeCheck (s : Part) : WriteAct → Option Status
  | .route first entries => if routeFading s first entries then some .busy else none
  | .group g e =>
    if groupFading s g then some .busy else if fixesOffHome s g e.mode e.home then some .badTarget else none
  | .defaults => if anyFading s then some .busy else none
  | .watchCause _ _ _ | .watchSlots _ _ | .setup _ | .setMode _ _ | .bypass _ | .load => none

/-- R73: an accepted write joins the pending writes, in the order of acceptance. -/
def acceptWrite (r : Rig) (id : Nat) (act : WriteAct) (s : Part) : Part :=
  setPhase r id .pendingWrite { s with writes := s.writes ++ [⟨some (r, id), act⟩] }

/-- R146: a table write with its own checks. -/
def takeWrite (r : Rig) (id : Nat) (act : WriteAct) (s : Part) : Part :=
  match writeCheck s act with
  | some st => respond r id st 0 [] s
  | none => acceptWrite r id act s

/-! ## MOVE_GROUP (R119, R149, R150, R151) -/

/-- R119: the groups of a mask that are matched on a follower in UP. -/
def ledMask (s : Part) (mask : Half) : Half := maskOf 16 fun g => inMask mask g && isLed s g

/-- R150, R151: a part is held for its boundary, or waits with a count of 0. -/
def startStage (req : MoveReq) : Stage := if req.cond.isNone then .held else .waiting 0

/-- R119: the lowest free ref. -/
def freeRef (s : Part) : Option (Fin 8) := allRefs.find? fun ref => !(s.gang.records.get ref).awaiting

/-- R117: at most one PROPOSE for a ref is queued; a new one goes to the back. -/
def queuePropose (q : List ProposeMsg) (p : ProposeMsg) : List ProposeMsg := q.filter (fun x => x.ref != p.ref) ++ [p]

/-- R119: a ref becomes awaiting, its round flips, and the PROPOSE is queued. -/
def propose (r : Rig) (id : Nat) (ref : Fin 8) (mask : Half) (req : MoveReq) (s : Part) : Part :=
  let round := !(s.gang.records.get ref).round
  let p : ProposeMsg := { ref := ref.castLE (by omega), round, mask, target := req.target, force := req.force,
                          cond := req.cond }
  { s with gang := { s.gang with
      records := s.gang.records.set ref
        { awaiting := true, round, serves := some (r, id), sentAt := none, message := some p }
      proposes := queuePropose s.gang.proposes p } }

/-- R119, R149: the command is taken with its local part and its proposed part. -/
def holdMove (r : Rig) (id : Nat) (mask led : Half) (req : MoveReq) (ref : Option (Fin 8)) (s : Part) : Part :=
  let own : Option MovePart :=
    if led = 0#16 then some ⟨mask, startStage req⟩
    else if mask &&& ~~~led = 0#16 then none
    else some ⟨mask &&& ~~~led, startStage req⟩
  setPhase r id (.move { req, own, gang := ref.map fun x => ⟨led, .proposed x⟩, first := none }) s

/-- R119, R149: a MOVE_GROUP is taken. The group checks are made on its local part alone, before a ref is taken
(log 18). -/
def takeMove (r : Rig) (id : Nat) (mask : Half) (req : MoveReq) (s : Part) : Part :=
  let led := ledMask s mask
  match checkTaking s (mask &&& ~~~led) req with
  | some (st, g) => respond r id st 0 (be8 g.val) s
  | none =>
    if led = 0#16 then holdMove r id mask led req none s
    else
      match freeRef s with
      | none => respond r id .busy 0 [0xFF#8] s
      | some ref => holdMove r id mask led req (some ref) (propose r id ref led req s)

/-! ## SET_MODE and MARK_RIG (R153, R154) -/

/-- R153: both checks, against a group entry and a group record. -/
def setModeCheck (e : GroupEntry) (r : GroupRec) (mode : Mode) : Option Status :=
  if e.isProtected then some .isProtected
  else if mode = .fixed ∧ r.startPending = false ∧ r.course ≠ .steady (.rig e.home) then some .badTarget
  else none

def takeSetMode (r : Rig) (id : Nat) (g : Fin 16) (mode : Mode) (s : Part) : Part :=
  match setModeCheck (groupEntry s g) (s.groups.get g) mode with
  | some st => respond r id st 0 [] s
  | none => acceptWrite r id (.setMode g mode) s

/-- R154. -/
def takeMarkRig (r : Rig) (id : Nat) (x : Rig) (fault : Bool) (s : Part) : Part :=
  respond r id .ok 0 (be8 (bit fault)) (s.setHealth x { s.health.get x with mark := fault })

/-! ## CANCEL (R119, R155, R156) -/

/-- The part has executed here, or has ended OK or SUPERSEDED, which follow an execution (log 17). The first status other than
OK is the part's own: while a command lives only one of its parts has ended. -/
def partExecuted (first : Option (Status × List Byte)) : Option MovePart → Bool
  | some ⟨_, .executed _ _⟩ => true
  | some ⟨_, .ended _⟩ =>
    match first with
    | none => true
    | some (st, _) => st == .superseded
  | some ⟨_, .held⟩ | some ⟨_, .waiting _⟩ | some ⟨_, .proposed _⟩ | none => false

/-- R155: a MOVE_GROUP some part of which has executed (log 17). -/
def MoveCmd.executed (m : MoveCmd) : Bool := partExecuted m.first m.own || partExecuted m.first m.gang

/-- R155: whether a scope selects a held command; a SAVE is never selected. -/
def Scope.selects (sc : Scope) (h : Held) : Bool :=
  match h.phase, sc with
  | .taken, _ | .done, _ | .saving, _ => false
  | .pendingWrite, .tag t | .move _, .tag t => h.tag == t
  | .pendingWrite, .waiting => false
  | .move m, .waiting => !m.executed
  | .pendingWrite, .all | .move _, .all => true

/-- R119: the proposed part of a cancelled command. A PROPOSE never sent frees its ref; one that was sent is withdrawn, by a
PROPOSE whose fields but round and mask are those of the withdrawn one (log 51). -/
def withdraw (ref : Fin 8) (s : Part) : Part :=
  let rec0 := s.gang.records.get ref
  let queue := s.gang.proposes.filter fun x => x.ref != ref.castLE (by omega)
  match rec0.sentAt, rec0.message with
  | some _, some p =>
    let p' := { p with round := !rec0.round, mask := 0#16 }
    { s with gang := { s.gang with
        records := s.gang.records.set ref
          { awaiting := true, round := !rec0.round, serves := none, sentAt := none, message := some p' }
        proposes := queue ++ [p'] } }
  | none, _ | some _, none =>
    { s with gang := { s.gang with
        records := s.gang.records.set ref { rec0 with awaiting := false, serves := none, sentAt := none, message := none }
        proposes := queue } }

def withdrawPart (p : Option MovePart) (s : Part) : Part :=
  match p with
  | some ⟨_, .proposed ref⟩ => withdraw ref s
  | _ => s

/-- R155: one selected command completes with CANCELLED. -/
def cancelOne (r : Rig) (id : Nat) (s : Part) : Part :=
  match (s.port.get r).find id with
  | none => s
  | some h =>
    match h.phase with
    | .pendingWrite =>
      respond r id .cancelled 0 [] { s with writes := s.writes.filter fun w => w.owner != some (r, id) }
    | .move m =>
      respond r id .cancelled 0 []
        (withdrawPart m.gang (unbind (.command r id true) (unbind (.command r id false) s)))
    | .taken | .saving | .done => s

/-- R155, R156: a CANCEL acts on the commands of its own port, in the order they were taken. -/
def takeCancel (r : Rig) (id : Nat) (sc : Scope) (s : Part) : Part :=
  let chosen := ((s.port.get r).slots.filter fun h => sc.selects h).map fun h => h.id
  respond r id .ok 0 (be8 chosen.length) (chosen.foldl (fun t i => cancelOne r i t) s)

/-! ## SET_LOCK, SAVE, BYPASS and RESET (R157 to R160) -/

/-- R157: whether a level asked is taken from the level in force. -/
def lockAllows (level asked : LockLevel) (key : Bool) : Bool :=
  match level, asked with
  | .opened, _ | .guarded, .guarded | .guarded, .frozen | .frozen, .frozen => true
  | .guarded, .opened => !key
  | .frozen, .opened | .frozen, .guarded => false

def takeSetLock (r : Rig) (id : Nat) (asked : LockLevel) (s : Part) : Part :=
  if lockAllows s.lock.level asked s.lock.key then respond r id .ok 0 (be8 asked.code) (setLevel asked false s)
  else respond r id .locked 0 (be8 s.lock.level.code) s

/-- R158, R164: the tables in force are snapshotted and the save starts. -/
def takeSave (r : Rig) (id : Nat) (s : Part) : Part :=
  setPhase r id .saving { s with store := { s.store with save := .saving, snapshot := some s.tables } }

/-! ## Judging and taking (R126, R127, R139) -/

/-- What a command does once its checks up to the range check have passed. -/
def perform (r : Rig) (id : Nat) (c : Command) (s : Part) : Part :=
  match c with
  | .identify => respond r id .ok 0 (identifyBytes s) s
  | .readStatus => respond r id .ok 0 (statusBytes s r) s
  | .readHealth x clear => clearSticky x clear (respond r id .ok 0 (healthBytes s x) s)
  | .readCounts x clear =>
    let s' := respond r id .ok 0 (countBytes s x) s
    if clear then clearCounts x s' else s'
  | .readRoute first count => respond r id .ok 0 (routeBytes s first count) s
  | .readGroup first count => respond r id .ok 0 (groupBytes s first count) s
  | .readWatch x => respond r id .ok 0 (watchBytes s x) s
  | .readAlign => respond r id .ok 0 (alignBytes s) s
  | .write act => takeWrite r id act s
  | .moveGroup mask req => takeMove r id mask req s
  | .setMode g mode => takeSetMode r id g mode s
  | .markRig x fault => takeMarkRig r id x fault s
  | .cancel sc => takeCancel r id sc s
  | .setLock level => takeSetLock r id level s
  | .save => takeSave r id s
  | .bypass engage => acceptWrite r id (.bypass engage) s
  | .reset => respond r id .ok 0 [] s

/-- R139, step 4: a save runs, or its reload is deferred. -/
def storeBusy (s : Part) : Bool := s.store.save == .saving || s.store.reload

/-- R139: the checks in order; the first that fails completes the command. -/
def judge (r : Rig) (id : Nat) (msg : List Byte) (s : Part) : Part :=
  match readCode (byteAt msg 1) with
  | none => respond r id .unknownCommand 0 [] s
  | some c =>
    match readMessage msg with
    | none => respond r id .badLength 0 [] s
    | some (params, cond) =>
      if !c.lengthOk params || (cond.isSome && !c.takesCond) then respond r id .badLength 0 [] s
      else if !c.takenAt s.lock.level then respond r id .locked 0 [] s
      else if c.waitsForStore && storeBusy s then respond r id .busy 0 [] s
      else
        match readCommand c params cond with
        | .error index => respond r id .badParam index [] s
        | .ok cmd => perform r id cmd s

/-- R127: the command takes a slot. -/
def occupy (r : Rig) (reserved : Bool) (msg : List Byte) (s : Part) : Part :=
  let p := s.port.get r
  { s.setPort r
      { p with slots := p.slots ++ [⟨s.nextId, byteAt msg 0, byteAt msg 1, reserved, .taken⟩] } with
    nextId := s.nextId + 1 }

/-- R126: the tag that a refusal records. -/
def refusedTag (msg : List Byte) : Byte := msg.headD 0xFF#8

/-- R127: whether the reserved slot is FREE. -/
def reservedFree (p : Port) : Bool := !p.slots.any fun h => h.reserved

/-- R126, R127: intake decides on a complete message. -/
def intake (r : Rig) (msg : List Byte) (s : Part) : Part :=
  if msg.length < 3 ∨ byteAt msg 0 = 0xFF#8 then refuseMessage r (refusedTag msg) .broken s
  else if 0 < (s.port.get r).free then judge r s.nextId msg (occupy r false msg s)
  else if byteAt msg 1 = Code.cancel.byte ∧ reservedFree (s.port.get r) then
    judge r s.nextId msg (occupy r true msg s)
  else refuseMessage r (refusedTag msg) .noSlot s

end Sys2Proof.Machine
end

