-- ==== Sys2Proof/Machine/Receivers.lean ====
section
/-! DEFINITION. The Rig Receivers (R11 to R22) and the assembly of a port's messages from what they hand on (R5, R125). -/

namespace Sys2Proof.Machine

/-! ## Assembly (R125) -/

/-- R125: what an item is. -/
inductive ChunkKind where
  | empty | first | middle | last | only | cancel | malformed
  deriving DecidableEq, Repr

/-- R125: malformed above type 0x05, or with a payload above 30 on FIRST, MIDDLE, LAST or ONLY. -/
def chunkKind (c : List Byte) : ChunkKind :=
  if byteAt c 0 = 0x00#8 then .empty
  else if byteAt c 0 = 0x05#8 then .cancel
  else if 5 < (byteAt c 0).toNat ∨ 30 < (byteAt c 1).toNat then .malformed
  else if byteAt c 0 = 0x01#8 then .first
  else if byteAt c 0 = 0x02#8 then .middle
  else if byteAt c 0 = 0x03#8 then .last
  else .only

/-- R5: the first payload-length bytes. -/
def chunkPayload (c : List Byte) : List Byte := (c.drop 2).take (byteAt c 1).toNat

def setAssembly (r : Rig) (a : Assembly) (s : Part) : Part := s.setPort r { s.port.get r with assembly := a }

/-- R125, R126: the message gathered so far is refused. -/
def refuseGathered (r : Rig) (why : RefuseReason) (s : Part) : Part :=
  match (s.port.get r).assembly with
  | .assembling bytes => refuseMessage r (refusedTag bytes) why s
  | .idle | .skipping => s

/-- R125: a chunk that is handed. -/
def handChunk (r : Rig) (c : List Byte) (s : Part) : Part :=
  let pay := chunkPayload c
  match chunkKind c, (s.port.get r).assembly with
  | .empty, _ => s
  | .first, _ => setAssembly r (.assembling pay) (refuseGathered r .broken s)
  | .middle, .idle | .last, .idle => refuseMessage r 0xFF#8 .orphan s
  | .middle, .assembling bytes =>
    if 240 < (bytes ++ pay).length then setAssembly r .skipping (refuseGathered r .tooLong s)
    else setAssembly r (.assembling (bytes ++ pay)) s
  | .middle, .skipping => s
  | .last, .assembling bytes =>
    if 240 < (bytes ++ pay).length then setAssembly r .idle (refuseGathered r .tooLong s)
    else intake r (bytes ++ pay) (setAssembly r .idle s)
  | .last, .skipping => setAssembly r .idle s
  | .only, _ => intake r pay (setAssembly r .idle (refuseGathered r .broken s))
  | .cancel, _ => setAssembly r .idle s
  | .malformed, .idle => refuseMessage r 0xFF#8 .broken s
  | .malformed, .assembling _ => setAssembly r .idle (refuseGathered r .broken s)
  | .malformed, .skipping => setAssembly r .idle s

/-- R125: a chunk-loss indication. -/
def handLoss (r : Rig) (s : Part) : Part :=
  match (s.port.get r).assembly with
  | .assembling _ => setAssembly r .idle (refuseGathered r .broken s)
  | .idle | .skipping => s

/-! ## Score and counters (R21, R22) -/

/-- R21: a rise of 8, stopping at 255. -/
def scoreUp (n : Nat) : Nat := min (n + 8) 255

def Counters.addGood (c : Counters) : Counters := { c with good := c.good + 1#32 }
def Counters.addBad (c : Counters) : Counters := { c with bad := c.bad + 1#32 }
def Counters.addLost (c : Counters) : Counters := { c with lost := c.lost + 1#32 }
def Counters.addConcealed (c : Counters) : Counters := { c with concealed := c.concealed + 1#32 }
def Counters.addResync (c : Counters) : Counters := { c with resyncs := c.resyncs + 1#32 }

/-! ## Frames in LOCKED (R14 to R18) -/

/-- R3, R20: the report of a frame written REAL. -/
def realReport (f : ForwardFrame) (relock : Bool) : Report :=
  { origin := .real, stamp := f.stamp, cue := frameCue f, transport := readTransport f.transport, audio := f.audio,
    relock, beat := some f.beat }

/-- R14: the receiver's records after a good frame. -/
def Receiver.takeGood (rx : Receiver) (f : ForwardFrame) : Receiver :=
  { rx with
    missed := false
    lastSeq := some f.seq
    prev := some { origin := .real, stamp := f.stamp, cue := frameCue f, transport := readTransport f.transport,
                   audio := some f.audio }
    selfFault := frameSelfFault f
    returnPause := frameReturnPause f
    score := rx.score - 1
    counters := rx.counters.addGood }

/-- R14: a good frame is taken; the first after a lock or a resync carries the relock mark (R20). -/
def takeGood (r : Rig) (f : ForwardFrame) (relock : Bool) (s : Part) : Part :=
  handChunk r f.lane (writeFrame r (realReport f relock) (s.setRx r ((s.rx.get r).takeGood f)))

/-- R15, R17: the record that a stand-in leaves: 24 samples on, no audio copy. -/
def PrevFrame.next (p : PrevFrame) (origin : Origin) : PrevFrame :=
  { p with origin, stamp := p.stamp + 24#32, audio := none }

/-- R15, R17: a stand-in is written after the previous frame. -/
def writeStandIn (r : Rig) (p : PrevFrame) (origin : Origin) (audio : Audio) (s : Part) : Part :=
  writeFrame r { origin, stamp := (p.next origin).stamp, cue := p.cue, transport := p.transport, audio, relock := false,
                 beat := none } s

/-- R15: origin and audio of the stand-in for a bad-check frame. -/
def standInOf (p : PrevFrame) : Origin × Audio :=
  match p.origin with
  | .real => (.concealed, p.audio.getD silentAudio)
  | .concealed | .filled => (.filled, silentAudio)

/-- R15: the receiver's records after a bad-check frame. -/
def Receiver.takeBad (rx : Receiver) : Receiver :=
  { rx with
    missed := false
    lastSeq := rx.lastSeq.map fun n => n + 1#16
    prev := rx.prev.map fun p => p.next (standInOf p).1
    score := scoreUp rx.score
    counters :=
      match rx.prev with
      | some ⟨.real, _, _, _, _⟩ => rx.counters.addBad.addConcealed
      | _ => rx.counters.addBad }

/-- R15: a bad-check frame in LOCKED. -/
def takeBad (r : Rig) (s : Part) : Part :=
  let rx := s.rx.get r
  let s1 := (handLoss r s).setRx r rx.takeBad
  match rx.prev with
  | some p => writeStandIn r p (standInOf p).1 (standInOf p).2 s1
  | none => s1

/-- R17: the receiver's records after one filled frame. -/
def Receiver.fill (rx : Receiver) : Receiver :=
  { rx with
    prev := rx.prev.map fun p => p.next .filled
    score := scoreUp rx.score
    counters := rx.counters.addLost }

/-- R17: one filled frame of silence. -/
def fillFrame (r : Rig) (s : Part) : Part :=
  let rx := s.rx.get r
  let s1 := s.setRx r rx.fill
  match rx.prev with
  | some p => writeStandIn r p .filled silentAudio s1
  | none => s1

/-- R17: k filled frames, one after another. -/
def fillFrames (r : Rig) : Nat → Part → Part
  | 0, s => s
  | k + 1, s => fillFrames r k (fillFrame r s)

/-- R17: a gap of k frames, and the frame that shows it. -/
def takeGap (r : Rig) (k : Nat) (f : ForwardFrame) (s : Part) : Part :=
  takeGood r f false (fillFrames r k (handLoss r s))

/-- R18: a resync on a frame. -/
def takeResync (r : Rig) (f : ForwardFrame) (s : Part) : Part :=
  let s1 := flushRing r (handLoss r s)
  let rx := s1.rx.get r
  takeGood r f true (s1.setRx r { rx with score := scoreUp rx.score, counters := rx.counters.addResync })

/-- R17, R18: the gap a frame shows. -/
def gapOf (rx : Receiver) (f : ForwardFrame) : Nat :=
  match rx.lastSeq with
  | some last => seqGap last f.seq
  | none => 0

/-! ## Leaving LOCKED (R19) -/

def Receiver.unlocked (rx : Receiver) (state : RxState) : Receiver :=
  { rx with state, lastSeq := none, prev := none, selfFault := false, returnPause := false, missed := false }

/-- R19, R26, R55: the receiver leaves LOCKED. -/
def leaveLocked (r : Rig) (state : RxState) (s : Part) : Part :=
  let s1 := flushRing r (s.setRx r ((s.rx.get r).unlocked state))
  let s2 := s1.setHealth r (s1.health.get r).clearRefs
  sourceLost (rigSource r) (handLoss r s2)

/-! ## VERIFYING (R13) -/

/-- R13: the verify count after a good frame. -/
def verifyNext (rx : Receiver) (f : ForwardFrame) : Nat :=
  if rx.verifyCount = 0 ∨ rx.lastSeq.map (fun n => n + 1#16) = some f.seq then rx.verifyCount + 1 else 1

/-- R13: the receiver enters LOCKED. -/
def Receiver.lock (rx : Receiver) : Receiver :=
  { rx with
    state := .locked
    firstLock := true
    counters := if rx.firstLock then rx.counters.addResync else rx.counters }

/-- R13: a good frame in VERIFYING. The frame that completes the count is a good frame of LOCKED, whose chunk is handed
once (log 29). -/
def verifyGood (r : Rig) (f : ForwardFrame) (s : Part) : Part :=
  let rx := s.rx.get r
  let rx' : Receiver := { rx with verifyCount := verifyNext rx f, lastSeq := some f.seq }
  if 3 ≤ verifyNext rx f then takeGood r f true (s.setRx r rx'.lock) else handChunk r f.lane (s.setRx r rx')

/-- R13: a bad check or a missing sync word in VERIFYING. -/
def verifyBad (r : Rig) (s : Part) : Part :=
  let rx := s.rx.get r
  (handLoss r s).setRx r { rx with state := .hunting, verifyCount := 0, lastSeq := none }

/-! ## Line activity (R11) -/

def activityLost (r : Rig) (s : Part) : Part :=
  let s1 := s.setRx r { s.rx.get r with activity := false }
  match (s.rx.get r).state with
  | .locked => leaveLocked r .noSignal s1
  | .verifying => (handLoss r s1).setRx r { s1.rx.get r with state := .noSignal, verifyCount := 0 }
  | .hunting | .noSignal => s1.setRx r { s1.rx.get r with state := .noSignal }

/-- R11: a receiver in NO_SIGNAL that observes activity hunts. -/
def Receiver.seeLine (rx : Receiver) : Receiver :=
  if rx.activity && rx.state == .noSignal then { rx with state := .hunting } else rx

/-! ## The commands -/

/-- A receiver event acts only in the state its rule names (log 2). -/
def whenRx (r : Rig) (st : RxState) (f : Part → Part) (s : Part) : Part := if (s.rx.get r).state = st then f s else s

/-- R11. While the line reset holds, only the condition of the line is noted (log 21). -/
def execLineActivityLost (r : Rig) (s : State) : Host.Outcome State Fault Refusal :=
  onPart (fun s => if s.inReset then s.setRx r { s.rx.get r with activity := false } else activityLost r s) s

/-- R11. While the line reset holds, only the condition of the line is noted (log 21). -/
def execLineActivityPresent (r : Rig) (s : State) : Host.Outcome State Fault Refusal :=
  onPart (fun s =>
    let rx : Receiver := { s.rx.get r with activity := true }
    s.setRx r (if s.inReset then rx else rx.seeLine)) s

/-- R12. -/
def execSyncWordFound (r : Rig) (s : State) : Host.Outcome State Fault Refusal :=
  onPart (unlessReset (whenRx r .hunting fun s =>
    s.setRx r { s.rx.get r with state := .verifying, verifyCount := 0 })) s

/-- R13. -/
def execVerifyGoodFrame (r : Rig) (f : ForwardFrame) (s : State) : Host.Outcome State Fault Refusal :=
  onPart (unlessReset (whenRx r .verifying (verifyGood r f))) s

/-- R13. -/
def execVerifyFailed (r : Rig) (s : State) : Host.Outcome State Fault Refusal :=
  onPart (unlessReset (whenRx r .verifying (verifyBad r))) s

/-- R14: the frame's sequence is the next one. -/
def execGoodFrame (r : Rig) (f : ForwardFrame) (s : State) : Host.Outcome State Fault Refusal :=
  onPart (unlessReset (whenRx r .locked fun s => if gapOf (s.rx.get r) f = 0 then takeGood r f false s else s)) s

/-- R15. -/
def execBadCheckFrame (r : Rig) (s : State) : Host.Outcome State Fault Refusal :=
  onPart (unlessReset (whenRx r .locked (takeBad r))) s

/-- R16: the mark is set after R15's effects; a second missing sync word in a row ends the lock. -/
def execMissingSyncWord (r : Rig) (s : State) : Host.Outcome State Fault Refusal :=
  onPart (unlessReset (whenRx r .locked fun s =>
    if (s.rx.get r).missed then leaveLocked r .hunting s
    else
      let s' := takeBad r s
      s'.setRx r { s'.rx.get r with missed := true })) s

/-- R17: a gap of 1 to 8. -/
def execSequenceGap (r : Rig) (f : ForwardFrame) (s : State) : Host.Outcome State Fault Refusal :=
  onPart (unlessReset (whenRx r .locked fun s =>
    let k := gapOf (s.rx.get r) f
    if 1 ≤ k ∧ k ≤ 8 then takeGap r k f s else s)) s

/-- R18: a gap of 9 or more. -/
def execResync (r : Rig) (f : ForwardFrame) (s : State) : Host.Outcome State Fault Refusal :=
  onPart (unlessReset (whenRx r .locked fun s => if 9 ≤ gapOf (s.rx.get r) f then takeResync r f s else s)) s

end Sys2Proof.Machine
end

