-- ==== Sys2Proof/Machine/Gang.lean ====
section
/-! DEFINITION. The Gang Port (R112 to R123): a received gang frame, the MOVEs a follower takes, the PROPOSEs a leader
takes, the answers, the link's entries and losses, and its turn at a boundary. -/

namespace Sys2Proof.Machine

/-! ## Answers (R119) -/

def Status.isRefusal : Status → Bool
  | .badTarget | .isProtected | .busy | .unusable | .notAligned => true
  | .ok | .cancelled | .superseded | .timeout | .unknownCommand | .badLength | .badParam | .locked | .storeFailed => false

/-- R152: the results of a command whose status came from the leader's answer. -/
def answerResults (st : Status) : List Byte := if st.isRefusal then [0xFF#8] else []

/-- R119: the answer for a ref and round ends the proposed part and frees the ref; any other answer is ignored. -/
def takeAnswer (ref : Fin 8) (round : Bool) (st : Status) (s : Part) : Part :=
  let rec0 := s.gang.records.get ref
  if rec0.awaiting && rec0.round == round then
    let s' := { s with gang := { s.gang with
      records := s.gang.records.set ref { rec0 with awaiting := false, serves := none, sentAt := none, message := none } } }
    match rec0.serves with
    | some (r, id) => endOwner (.command r id true) st (answerResults st) s'
    | none => s'
  else s

/-- R119: the answers that the partner's board shows. A status above 13 is no answer (log 44). -/
def boardAnswers (rep : GangReport) (s : Part) : Part :=
  allRefs.foldl
    (fun t ref =>
      let c := rep.board.get ref
      match readStatusCode c.status with
      | some st => if c.state = 2#2 then takeAnswer ref c.round st t else t
      | none => t) s

/-! ## MOVEs on a follower (R118) -/

/-- R118: a MOVE becomes its group's pending MOVE; a start frame too far ahead becomes the next frame. -/
def takeGangMove (m : MoveMsg) (s : Part) : Part :=
  if isLed s m.group then
    let start := if 8 < sdiff m.start s.clock.frame then s.clock.frame + 1#32 else m.start
    { s with gang := { s.gang with pending := s.gang.pending.set m.group (some { m with start }) } }
  else s

/-- R118: the progress at which a MOVE starts at count `c`. -/
def moveProgress (m : MoveMsg) (c : Word) : Nat := min m.len (m.q0 + 24 * (sdiff c m.start).toNat)

/-- R118: whether a MOVE starts at count `c`. -/
def moveDue (m : MoveMsg) (c : Word) : Bool := decide (0 ≤ sdiff c m.start)

/-- R118: the group's record once a MOVE has started: its course, flags and timer. -/
def movedRecord (m : MoveMsg) (course : Course) (r : GroupRec) : GroupRec :=
  { r with
    course
    startPending := false
    failedOver := m.failedOver
    darkByRequest := m.darkByRequest
    holdTimer := if r.failedOver = m.failedOver then r.holdTimer else 0 }

/-- R107, R118: the DONE notice of a MOVE that sets its group steady at once (log 20). -/
def moveDone (m : MoveMsg) : NoticeBody := .groupMove m.group true m.src m.dst .gang m.unaligned m.len m.len

/-- R118: a pending MOVE starts. -/
def startMove (m : MoveMsg) (s : Part) : Part :=
  let g := m.group
  let q := moveProgress m s.clock.frame
  let r := s.groups.get g
  let s0 := { s with gang := { s.gang with pending := s.gang.pending.set g none } }
  match (if q < m.len then FadeKind.between m.src m.dst else none) with
  | some kind =>
    let f : Fade := { kind, q, len := m.len, law := m.law, reason := .gang, unaligned := m.unaligned, q0 := q }
    supersedeIfElsewhere g (raise (begunNotice g f) (s0.setGroup g (movedRecord m (.fading f) r)))
  | none =>
    let s1 := s0.setGroup g (movedRecord m (.steady m.dst) r)
    supersedeIfElsewhere g (if r.course = .steady m.dst then s1 else raise (moveDone m) s1)

/-- R118: a group's pending MOVE starts at this boundary. -/
def moveStarts (s : Part) (g : Fin 16) : Bool :=
  match s.gang.pending.get g with
  | some m => moveDue m s.clock.frame
  | none => false

/-- R88, R118: a pending MOVE starts here whose group has left the matched set since: it is that group's one change of course
at this boundary (log 37). -/
def strayMove (s : Part) (g : Fin 16) : Bool := !isLed s g && moveStarts s g

/-- R118: a pending MOVE starts at the first boundary that reaches its start frame, also where its group has left the
matched set since (log 37). -/
def startPendingMove (g : Fin 16) (s : Part) : Part :=
  match s.gang.pending.get g with
  | some m => if moveDue m s.clock.frame then startMove { m with group := g } s else s
  | none => s

def startPendingMoves (s : Part) : Part := allGroups.foldl (fun t g => startPendingMove g t) s

/-- R88, R118: the stray MOVEs start before takeover and the decisions of the groups (log 37). -/
def startStrayMoves (s : Part) : Part := (allGroups.filter fun g => strayMove s g).foldl (fun t g => startPendingMove g t) s

/-! ## PROPOSEs on a leader (R120) -/

/-- R120, R123: a held proposal is dropped without an answer; its binding leaves every group. -/
def dropProposal (ref : Fin 8) (s : Part) : Part :=
  match (s.gang.board.get ref).state with
  | .held _ _ => unbind (.proposal ref) s
  | .idle | .answered _ => s

def setBoard (ref : Fin 8) (e : BoardEntry) (s : Part) : Part :=
  { s with gang := { s.gang with board := s.gang.board.set ref e } }

/-- R120: the proposal is held, and judged as a MOVE_GROUP of the leader is when it is taken. -/
def holdProposal (ref : Fin 8) (p : ProposeMsg) (s : Part) : Part :=
  let req : MoveReq := { target := p.target, force := p.force, cond := p.cond }
  let s' := setBoard ref ⟨p.round, .held req ⟨p.mask, startStage req⟩⟩ s
  match orCheck (checkMatched s (.proposal ref) p.mask) (checkTaking s p.mask req) with
  | some (st, g) => endOwner (.proposal ref) st (be8 g.val) s'
  | none => s'

def BoardState.isIdle : BoardState → Bool
  | .idle => true
  | .held _ _ | .answered _ => false

/-- R120: a PROPOSE that arrives. -/
def takePropose (p : ProposeMsg) (s : Part) : Part :=
  if h : p.ref.val < 8 then
    let ref : Fin 8 := ⟨p.ref.val, h⟩
    let e := s.gang.board.get ref
    if e.round = p.round ∧ e.state.isIdle = false then s
    else
      let s' := dropProposal ref s
      if p.mask = 0#16 then
        let s'' := setBoard ref ⟨p.round, .answered .ok⟩ s'
        { s'' with gang := { s''.gang with answers := pushAnswer s''.gang.answers ⟨ref, p.round, .ok⟩ } }
      else holdProposal ref p s'
  else { s with gang := { s.gang with presses := s.gang.presses ++ [⟨p.target, p.mask, true⟩] } }

/-- R123: every held proposal is dropped and every board entry becomes IDLE; the rounds stand. -/
def clearBoard (s : Part) : Part :=
  let s' := allRefs.foldl (fun t ref => dropProposal ref t) s
  { s' with gang := { s'.gang with board := s'.gang.board.map fun e => { e with state := .idle } } }

/-! ## Entering and leaving UP (R113, R114, R123) -/

/-- R113: a change of gang state raises a GANG notice. -/
def setGangState (st : GangState) (s : Part) : Part :=
  raise (.gang s.gang.role s.gang.state st) { s with gang := { s.gang with state := st } }

/-- R113, R114, R121: the link comes up. A follower marks the adoption; a leader's next comparison is the first. -/
def linkUp (s : Part) : Part :=
  setGangState .up
    { s with gang := { s.gang with goodRun := 0, adopt := s.gang.role == .follower, fresh := s.gang.role == .leader } }

/-- R123: an awaiting proposal becomes a local part with the same mask and request, and its ref becomes free. The group
checks are first made at the next boundary's evaluation (log 43). -/
def reclaim (ref : Fin 8) (s : Part) : Part :=
  let rec0 := s.gang.records.get ref
  let s' := { s with gang := { s.gang with
    records := s.gang.records.set ref { rec0 with awaiting := false, serves := none, sentAt := none, message := none } } }
  match rec0.awaiting, rec0.serves with
  | true, some (r, id) =>
    match ownerRun s' (.command r id true) with
    | some (req, _) => setStage (.command r id true) (startStage req) s'
    | none => s'
  | true, none | false, _ => s'

/-- R123: the queued button proposals, as local presses of the next boundary. -/
def queuedPresses (q : List ProposeMsg) : List Press :=
  (q.filter fun p => p.ref == 8).map fun p => ⟨p.target, p.mask, false⟩

/-- R113, R123: the link is lost; from the next boundary the ganged groups are under local control (log 12). -/
def linkLost (s : Part) : Part :=
  let s1 := allRefs.foldl (fun t ref => reclaim ref t) (clearBoard s)
  let s2 := { s1 with gang := { s1.gang with
    moves := [], answers := [], proposes := [], pending := Tbl.fill none, matched := 0#16, adopt := false, fresh := false,
    mismatch := Tbl.fill 0, presses := s1.gang.presses ++ queuedPresses s1.gang.proposes } }
  sourceLost .gang (setGangState .lost s2)

/-! ## A received gang frame (R112) -/

/-- R112: the complement of a unit's role. -/
def Role.partner : Role → Role
  | .leader => .follower
  | .follower => .leader
  | .solo => .solo

/-- R112: a good check and the complementary sender role. -/
def acceptable (s : Part) (b : List Byte) : Bool :=
  goodCheck 64 b && (byteAt b 2).toNat == s.gang.role.partner.code

/-- R112: the message of a frame accepted in UP is handed on by the unit's role. -/
def takeGangMsgIn (m : GangMsg) (s : Part) : Part :=
  match m, s.gang.role with
  | .move m, .follower => takeGangMove m s
  | .propose p, .leader => takePropose p s
  | .answer a, .follower => takeAnswer a.ref a.round a.status s
  | .none, _ | .move _, _ | .propose _, _ | .answer _, _ => s

/-- R112, R123: the partner's report is taken; a leader whose partner is not UP clears its board. -/
def takeReport (rep : GangReport) (s : Part) : Part :=
  let s' := { s with gang := { s.gang with partner := some rep, silence := 0, arrived := true } }
  if s.gang.role = .leader ∧ rep.state ≠ 2#8 then clearBoard s' else s'

/-- R112, R113: an acceptable frame. The report, with the clearing of the board that it can bring (R123), is taken before the
frame's message (log 60). -/
def acceptFrame (b : List Byte) (s : Part) : Part :=
  let s' := takeReport (readReport b) s
  match s.gang.state with
  | .up =>
    takeGangMsgIn (readGangMsg b) (if s.gang.role = .follower then boardAnswers (readReport b) s' else s')
  | .seeking | .lost =>
    if 3 ≤ s.gang.goodRun then linkUp s' else { s' with gang := { s'.gang with goodRun := s.gang.goodRun + 1 } }
  | .off => s'

/-- R109, R112: a SOLO unit reads no gang frames. Bytes that do not begin with the sync word are an unacceptable frame
(log 32). -/
def gangFrame (b : List Byte) (s : Part) : Part :=
  if s.gang.role = .solo then s
  else if acceptable s b then acceptFrame b s
  else { s with gang := { s.gang with goodRun := 0 } }

/-! ## The Gang Port at a boundary (R113, R114, R121, R122) -/

/-- R114: the follower's count has drifted from its leader's by 2 or more. -/
def drifted (s : Part) : Bool :=
  s.gang.role == .follower && s.gang.state == .up && s.gang.arrived &&
    match s.gang.partner with
    | some p => decide (2 ≤ (sdiff s.clock.frame (p.frame + 1#32)).natAbs)
    | none => false

/-- R114: the follower adopts its leader's count. -/
def adoptCount (s : Part) : Part :=
  match s.gang.partner with
  | some p => { s with clock := { s.clock with frame := p.frame + 1#32 }, gang := { s.gang with adopt := false } }
  | none => { s with gang := { s.gang with adopt := false } }

/-- R114: the adoption at a boundary, marked at entry to UP or now by drift (log 11). -/
def adoptTurn (s : Part) : Part := if s.gang.adopt || drifted s then adoptCount s else s

/-- R113: the matched set while UP. -/
def matchedSet (s : Part) : Half :=
  match s.gang.partner with
  | some p => maskOf 16 fun g => (groupEntry s g).ganged && inMask p.ganged g
  | none => 0#16

def matchTurn (s : Part) : Part :=
  if s.gang.state = .up then { s with gang := { s.gang with matched := matchedSet s } } else s

/-- R121: the follower's report differs from a steady group of the leader. -/
def mismatched (s : Part) (g : Fin 16) : Bool :=
  match s.gang.partner, (s.groups.get g).course with
  | some p, .steady e => isLeading s g && p.state == 2#8 && (p.codes.get g).toNat != (Course.steady e).code
  | _, _ => false

/-- R121: the run of a group after this boundary's comparison. -/
def mismatchRun (s : Part) (g : Fin 16) : Nat :=
  if mismatched s g then (if s.gang.fresh then 8 else rise (s.gang.mismatch.get g) 8) else 0

/-- R121: a run that reaches 8 queues a MOVE to the group's steady source, and becomes 0. -/
def repairGroup (g : Fin 16) (s : Part) : Part :=
  match (s.groups.get g).course with
  | .steady e => queueMove (steadyMove s g e) s
  | .fading _ => s

def mismatchTurn (s : Part) : Part :=
  if s.gang.role = .leader ∧ s.gang.state = .up then
    let s1 := { s with gang := { s.gang with mismatch := Tbl.ofFn fun g => mismatchRun s g, fresh := false } }
    (allGroups.filter fun g => decide (8 ≤ mismatchRun s g)).foldl (fun t g => repairGroup g t) s1
  else s

/-- R122: the PROPOSE of a ref is taken as lost. -/
def proposeLost (s : Part) (ref : Fin 8) : Bool :=
  let rec0 := s.gang.records.get ref
  match rec0.sentAt, s.gang.partner with
  | some sent, some p =>
    rec0.awaiting && !(s.gang.proposes.any fun x => x.ref == ref.castLE (by omega)) &&
      decide (0 ≤ sdiff p.frame (sent + 2#32)) &&
      !((p.board.get ref).round == rec0.round && ((p.board.get ref).state == 1#2 || (p.board.get ref).state == 2#2))
  | _, _ => false

/-- R122: a lost PROPOSE is queued again at the back. -/
def resendOne (ref : Fin 8) (s : Part) : Part :=
  if s.gang.role = .follower ∧ s.gang.state = .up ∧ proposeLost s ref = true then
    match (s.gang.records.get ref).message with
    | some p => { s with gang := { s.gang with proposes := queuePropose s.gang.proposes p } }
    | none => s
  else s

def resendTurn (s : Part) : Part := allRefs.foldl (fun t ref => resendOne ref t) s

/-- R113: the silence count after a boundary. -/
def silenceNext (s : Part) : Nat := if s.gang.arrived then s.gang.silence else rise s.gang.silence 8

/-- R113: the silence count, and what it brings when it reaches 8. -/
def silenceTurn (s : Part) : Part :=
  if s.gang.role = .solo then s
  else
    let s1 := { s with gang := { s.gang with silence := silenceNext s, arrived := false } }
    if 8 ≤ silenceNext s then
      if s.gang.state = .up then linkLost s1 else { s1 with gang := { s1.gang with goodRun := 0 } }
    else s1

/-- The Gang Port's own turn at a boundary, after the group decisions. -/
def gangTurn (s : Part) : Part := silenceTurn (resendTurn (mismatchTurn s))

/-! ## The commands -/

/-- R112. -/
def execGangFrameReceived (b : List Byte) (s : State) : Host.Outcome State Fault Refusal :=
  onPart (unlessReset (gangFrame b)) s

/-- R113: the frame that brings the good run to 4, taken on its own (log 1). -/
def execGangLinkUp (s : State) : Host.Outcome State Fault Refusal :=
  onPart (unlessReset fun s =>
    if (s.gang.state = .seeking ∨ s.gang.state = .lost) ∧ s.gang.goodRun = 3 then linkUp s else s) s

/-- R113, R123: the boundary that brings the silence count to 8 in UP, taken on its own (log 1). -/
def execGangLinkLost (s : State) : Host.Outcome State Fault Refusal :=
  onPart (unlessReset fun s =>
    if s.gang.state = .up ∧ s.gang.arrived = false ∧ 7 ≤ s.gang.silence then
      linkLost { s with gang := { s.gang with silence := 8 } }
    else s) s

/-- R114. -/
def execCountAdoption (s : State) : Host.Outcome State Fault Refusal :=
  onPart (unlessReset fun s => if s.gang.role = .follower ∧ s.gang.adopt = true then adoptCount s else s) s

/-- R118. -/
def execGangMoveStart (g : Fin 16) (s : State) : Host.Outcome State Fault Refusal :=
  onPart (unlessReset fun s => settleArrivals (startPendingMove g s)) s

/-- R122. -/
def execProposeResend (ref : Fin 8) (s : State) : Host.Outcome State Fault Refusal :=
  onPart (unlessReset (resendOne ref)) s

/-- R121: the comparison that brings a group's run to 8, taken on its own (log 1). -/
def execMismatchRepair (g : Fin 16) (s : State) : Host.Outcome State Fault Refusal :=
  onPart (unlessReset fun s =>
    if s.gang.role = .leader ∧ s.gang.state = .up ∧ 8 ≤ mismatchRun s g then repairGroup g s else s) s

/-- R120, R123. -/
def execButtonProposalApply (s : State) : Host.Outcome State Fault Refusal := onPart (unlessReset applyPresses) s

end Sys2Proof.Machine
end

