-- ==== Sys2Proof/Machine/Writes.lean ====
section
/-! DEFINITION. The pending writes at their boundary (R73, R77, R81, R83, R85, R153, R159, R166), and the Frame Clock's
comparison that a write of the reference rig can bring (R26, R83). -/

namespace Sys2Proof.Machine

/-! ## The working tables -/

def Part.setTables (s : Part) (t : Tables) : Part := { s with tables := t }

/-- R73, R77: the channels from `first` on take the entries. -/
def replaceFrom {α : Type} : List α → Nat → List α → List α
  | [], _, _ => []
  | x :: xs, 0, [] => x :: xs
  | _ :: xs, 0, e :: es => e :: replaceFrom xs 0 es
  | x :: xs, n + 1, es => x :: replaceFrom xs n es

theorem replaceFrom_length {α : Type} (l : List α) (n : Nat) (es : List α) : (replaceFrom l n es).length = l.length := by
  induction l generalizing n es with
  | nil => rfl
  | cons x xs ih =>
    cases n with
    | zero =>
      cases es with
      | nil => rfl
      | cons e es => simp [replaceFrom, ih]
    | succ n => simp [replaceFrom, ih]

def Tbl.replace {n : Nat} {α : Type} (t : Tbl n α) (first : Nat) (es : List α) : Tbl n α :=
  ⟨replaceFrom t.cells first es, by rw [replaceFrom_length, t.len]⟩

/-- R77. -/
def writeRoutes (first : Nat) (es : List RouteEntry) (s : Part) : Part :=
  s.setTables { s.tables with routes := s.tables.routes.replace first es }

/-- R81: a change of home clears the failed-over flag and the return-hold timer; nothing else of the record changes. Two
writes of one boundary are compared one after the other (log 54). -/
def rehome (old new : Rig) (r : GroupRec) : GroupRec :=
  if old = new then r else { r with failedOver := false, holdTimer := 0 }

/-- R81. -/
def writeGroup (g : Fin 16) (e : GroupEntry) (s : Part) : Part :=
  (s.setGroup g (rehome (groupEntry s g).home e.home (s.groups.get g))).setTables
    { s.tables with groups := s.tables.groups.set g e }

def writeGroups (t : Tbl 16 GroupEntry) (s : Part) : Part := allGroups.foldl (fun s g => writeGroup g (t.get g) s) s

/-- R66: as a write of the Watch Table takes effect, the causes of a rig that it disables enter CLEAR, so that a later write
of the same boundary that enables one again starts it from CLEAR. -/
def dropCauses (x : Rig) (off : Fin 8 → Bool) (s : Part) : Part := s.setHealth x ((s.health.get x).drop off)

/-- R64, R66. -/
def writeWatchCause (x : Rig) (c : Fin 8) (e : WatchEntry) (s : Part) : Part :=
  let w := s.tables.watch.get x
  dropCauses x (fun i => i == c && !e.enabled)
    (s.setTables { s.tables with watch := s.tables.watch.set x { w with causes := w.causes.set c e } })

/-- R64. -/
def writeWatchSlots (x : Rig) (slots : List (Fin 64)) (s : Part) : Part :=
  s.setTables { s.tables with watch := s.tables.watch.set x { s.tables.watch.get x with slots } }

/-- R53, R83: a change of tolerance or reference rig clears the tracker's history; a change of alarm mode ends or
deasserts the pulse. Each write of a boundary is compared with the record as the write before it left it (log 54). -/
def writeSetup (new : Setup) (s : Part) : Part :=
  let old := s.tables.setup
  let s1 := s.setTables { s.tables with setup := new }
  let s2 := if old.tolerance ≠ new.tolerance ∨ old.reference ≠ new.reference then clearHistory s1 else s1
  if old.alarm ≠ new.alarm then { s2 with panel := { s2.panel with pulse := 0 } } else s2

/-- R66, R85: the causes of a rig that a whole Watch Table disables. -/
def dropByTable (t : PerRig WatchRig) (x : Rig) (s : Part) : Part :=
  dropCauses x (fun i => !((t.get x).causes.get i).enabled) s

/-- R85: the four tables change, each by its own rule. -/
def writeTables (t : Tables) (s : Part) : Part :=
  let s1 := writeGroups t.groups s
  let s2 := s1.setTables { s1.tables with routes := t.routes, watch := t.watch }
  writeSetup t.setup (dropByTable t.watch .B (dropByTable t.watch .A s2))

/-! ## The deferred load (R166) -/

/-- R166: an entry FIXED on a rig its group is not steady on is loaded MANUAL. -/
def softenFixed (r : GroupRec) (e : GroupEntry) : GroupEntry :=
  if e.mode = .fixed ∧ r.startPending = false ∧ r.course ≠ .steady (.rig e.home) then { e with mode := .manual } else e

/-- R166: the image with such entries softened. -/
def softened (s : Part) (t : Tables) : Tables :=
  { t with groups := Tbl.ofFn fun g => softenFixed (s.groups.get g) (t.groups.get g) }

/-- R165: a STORE notice DEFAULTS_LOADED with store-valid 0. -/
def defaultsLoaded (s : Part) : Part := raise (.store 2 false) s

/-- R165, R166: the deferred load, from the image as the completion left it. -/
def deferredLoad (s : Part) : Part :=
  let s1 := { s with store := { s.store with reload := false, storeValid := s.store.valid } }
  if s.store.valid then writeTables (softened s s.store.image) s1 else defaultsLoaded (writeTables factoryTables s1)

/-! ## Taking effect (R73, R153, R159) -/

/-- The write's command completes (R146). A load has no command. -/
def respondOwner (o : Option (Rig × Nat)) (st : Status) (s : Part) : Part :=
  match o with
  | some (r, id) => respond r id st 0 [] s
  | none => s

/-- R159: the bypass-engaged mark, and the relay that follows it (R168). -/
def setBypass (engage : Bool) (s : Part) : Part :=
  relayChange true (relay s) { s with panel := { s.panel with bypass := engage } }

/-- R153: the mode of a group's working entry. -/
def writeMode (g : Fin 16) (mode : Mode) (s : Part) : Part :=
  s.setTables { s.tables with groups := s.tables.groups.set g { groupEntry s g with mode } }

/-- One pending write takes effect, and its command completes. -/
def applyWrite (w : PendingWrite) (s : Part) : Part :=
  match w.act with
  | .route first es => respondOwner w.owner .ok (writeRoutes first es s)
  | .group g e => respondOwner w.owner .ok (writeGroup g e s)
  | .watchCause x c e => respondOwner w.owner .ok (writeWatchCause x c e s)
  | .watchSlots x slots => respondOwner w.owner .ok (writeWatchSlots x slots s)
  | .setup new => respondOwner w.owner .ok (writeSetup new s)
  | .defaults => respondOwner w.owner .ok (writeTables factoryTables s)
  | .setMode g mode =>
    match setModeCheck (groupEntry s g) (s.groups.get g) mode with
    | some st => respondOwner w.owner st s
    | none => respondOwner w.owner .ok (writeMode g mode s)
  | .bypass engage => respondOwner w.owner .ok (setBypass engage s)
  | .load => deferredLoad s

/-- R73, R166: the pending writes take effect in order; a load, and what follows it, waits while a group is fading. -/
def applyWrites : List PendingWrite → Part → Part
  | [], s => { s with writes := [] }
  | w :: rest, s => if w.act = .load ∧ anyFading s = true then { s with writes := w :: rest } else applyWrites rest (applyWrite w s)

def writesTurn (s : Part) : Part := applyWrites s.writes s

/-! ## What follows a write inside its boundary (R26, R66, R72) -/

/-- R26: at a boundary the highest qualified source that ranks above the selected one becomes selected. -/
def selectBetter (s : Part) : Part :=
  let reference := s.tables.setup.reference
  let best := bestSource reference s.clock.qual
  if sourceRank reference best < sourceRank reference s.clock.selected then selectSource best false s else s

/-- R72: the notice of a change of a rig's health or of its sets, by the disables or by the evaluation. -/
def raiseHealth (x : Rig) (old mid new : Health) (s : Part) : Part :=
  match healthNotice x old mid new with
  | some n => raise n s
  | none => s

/-- R66, R68, R69, R72: where the writes disabled a cause, rig health and the published set follow, with the notice. `before` is
the rig as the writes found it. -/
def settleHealth (x : Rig) (before : Health) (s : Part) : Part :=
  let h := s.health.get x
  if h.causes = before.causes then s
  else
    let new := h.withCauses h.causes
    raiseHealth x before new new (s.setHealth x new)

/-- R26, R66, R83: what table writes taken on their own bring with them: the outcome of their disables, and the clock's
comparison. `before` is the two rigs as the writes found them. -/
def settleWrites (before : PerRig Health) (s : Part) : Part :=
  selectBetter (settleHealth .B (before.get .B) (settleHealth .A (before.get .A) s))

/-! ## The commands -/

def WriteAct.isTable : WriteAct → Bool
  | .route _ _ | .group _ _ | .watchCause _ _ _ | .watchSlots _ _ | .setup _ | .defaults => true
  | .setMode _ _ | .bypass _ | .load => false

/-- The table writes at the front of the queue take effect; the rest wait. -/
def applyTableWrites : List PendingWrite → Part → Part
  | [], s => { s with writes := [] }
  | w :: rest, s => if w.act.isTable then applyTableWrites rest (applyWrite w s) else { s with writes := w :: rest }

/-- R73: the table writes that stand first, taken on their own (log 1), with the disables (R66) and the clock's comparison
(R83) that their boundary brings. -/
def execWriteTakesEffect (s : State) : Host.Outcome State Fault Refusal :=
  onPart (unlessReset fun s => settleWrites s.health (applyTableWrites s.writes s)) s

/-- The first pending write takes effect when it is of the kind named (log 1). -/
def applyHead (kind : WriteAct → Bool) (s : Part) : Part :=
  match s.writes with
  | w :: rest => if kind w.act then applyWrite w { s with writes := rest } else s
  | [] => s

def WriteAct.isSetMode : WriteAct → Bool
  | .setMode _ _ => true
  | .route _ _ | .group _ _ | .watchCause _ _ _ | .watchSlots _ _ | .setup _ | .defaults | .bypass _ | .load => false

def WriteAct.isBypass : WriteAct → Bool
  | .bypass _ => true
  | .route _ _ | .group _ _ | .watchCause _ _ _ | .watchSlots _ _ | .setup _ | .defaults | .setMode _ _ | .load => false

/-- R153. -/
def execSetModeTakesEffect (s : State) : Host.Outcome State Fault Refusal :=
  onPart (unlessReset (applyHead WriteAct.isSetMode)) s

/-- R159. -/
def execBypassTakesEffect (s : State) : Host.Outcome State Fault Refusal :=
  onPart (unlessReset (applyHead WriteAct.isBypass)) s

/-- R166: the load waits while a group is fading. Taken on its own (log 1), it brings the disables (R66) and the clock's
comparison (R83) that its boundary brings. -/
def execDeferredLoad (s : State) : Host.Outcome State Fault Refusal :=
  onPart (unlessReset fun s =>
    match s.writes with
    | w :: _ =>
      if w.act = .load ∧ anyFading s = false then settleWrites s.health (applyHead (fun a => a == .load) s) else s
    | [] => s) s

end Sys2Proof.Machine
end

