-- ==== Sys2Proof/Machine/Resets.lean ====
section
/-! DEFINITION. The Table Store's saves (R158, R164, R166), the three resets (R161, R165 to R168, R171), and the REF
input (R24, R26). -/

namespace Sys2Proof.Machine

/-! ## The end of a save (R164, R166) -/

def isSaving (h : Held) : Bool := h.phase == .saving

/-- R158, R164: the SAVE command, if no reset has ended it, completes with the store-valid flag. -/
def respondSave (r : Rig) (st : Status) (s : Part) : Part :=
  match (s.port.get r).slots.find? isSaving with
  | some h => respond r h.id st 0 (be8 (bit s.store.storeValid)) s
  | none => s

/-- R164: what a completion leaves in the store. -/
def Store.complete (st : Store) (verified : Bool) : Store :=
  { st with
    image := if verified then st.snapshot.getD st.image else st.image
    valid := verified
    storeValid := verified
    save := if verified then .ok else .storeFailed
    snapshot := none }

/-- R164, R166: the save completes; a load that a reset deferred becomes a pending write. -/
def saveDone (verified : Bool) (s : Part) : Part :=
  let status : Status := if verified then .ok else .storeFailed
  let s1 := raise (.store (if verified then 0 else 1) verified) { s with store := s.store.complete verified }
  let s2 := respondSave .B status (respondSave .A status s1)
  if s.store.reload then { s2 with writes := s2.writes ++ [⟨none, .load⟩] } else s2

/-- R164; a save goes on through a line reset (R166; log 22). -/
def execSaveComplete (verified : Bool) (s : State) : Host.Outcome State Fault Refusal :=
  onPart (fun s => if s.store.save = .saving then saveDone verified s else s) s

/-! ## The resets (R167) -/

/-- The values that every kind of reset gives. The lines, the working tables, the store, the lock, the bypass-engaged
mark and the reset condition are not among them. -/
def resetBlocks (s : Part) : Part :=
  { s with
    rx := s.rx.map fun rx => Receiver.initial rx.activity
    clock := FrameClock.initial s.clock.refSignal
    ring := PerRig.both Ring.initial
    tracker := Tracker.initial
    health := PerRig.both Health.initial
    writes := []
    groups := Tbl.fill GroupRec.initial
    takeover := Takeover.initial
    samples := silentPeriod
    program := Program.initial
    port := PerRig.both Port.initial
    resetRequested := false
    gang := Gang.initial s.gang.role
    lock := { s.lock with count := 0 }
    panel := { s.panel with pulse := 0, buttons := PerRig.both (Button.initial false) } }

/-- R163, R166: the store at a line or command reset. -/
def Store.atReset (st : Store) : Store :=
  if st.save = .saving then { st with reload := true }
  else { st with save := .none, snapshot := none, reload := false }

/-- R163, R164: the store at a power-on reset: a save in progress is lost, and its image with it. -/
def Store.atPowerOn (st : Store) : Store :=
  { st with valid := st.valid && st.save != .saving, save := .none, snapshot := none, reload := false }

/-- R165: the load of the working tables; with an INVALID image the DEFAULTS_LOADED notice is owed. -/
def loadTables (s : Part) : Part :=
  { s with
    tables := if s.store.valid then s.store.image else factoryTables
    store := { s.store with storeValid := s.store.valid, owesDefaults := !s.store.valid } }

/-- R161: the level as a reset ends. -/
def levelAfter (level : LockLevel) (key : Bool) : LockLevel :=
  if level = .frozen then .frozen else if key then .guarded else .opened

/-- R11, R109, R161, R165, R171: what is read as a reset ends or takes effect: straps, KEY, buttons, the store unless a
save's completion is awaited, and the lines' activity. -/
def endReset (lines : Lines) (s : Part) : Part :=
  let s1 : Part := { s with
    gang := Gang.initial (linesRole lines)
    lock := { level := levelAfter s.lock.level lines.key, key := lines.key, count := 0 }
    panel := { s.panel with buttons := ⟨Button.initial lines.btnA, Button.initial lines.btnB⟩ }
    rx := s.rx.map fun rx => rx.seeLine
    inReset := false }
  if s.store.reload then s1 else loadTables s1

/-- R167: a power-on reset. With the RESET line still asserted the part stays in line reset. -/
def powerOn (lines : Lines) (s : Part) : Part :=
  let s0 := resetBlocks s
  let s1 : Part := { s0 with
    store := s.store.atPowerOn
    lock := { level := .opened, key := false, count := 0 }
    panel := { s0.panel with bypass := false } }
  if s.inReset then s1 else endReset lines s1

/-- R167: the RESET line is asserted. -/
def lineAssert (s : Part) : Part := { resetBlocks s with store := s.store.atReset, inReset := true }

/-- R134, R160, R167: a command reset takes effect. -/
def commandReset (lines : Lines) (s : Part) : Part := endReset lines { resetBlocks s with store := s.store.atReset }

/-- R167. -/
def execPowerOnReset (lines : Lines) (s : State) : Host.Outcome State Fault Refusal := onPart (powerOn lines) s

/-- R167. -/
def execLineResetAssert (s : State) : Host.Outcome State Fault Refusal := onPart (unlessReset lineAssert) s

/-- R167. -/
def execLineResetEnd (lines : Lines) (s : State) : Host.Outcome State Fault Refusal :=
  onPart (fun s => if s.inReset then endReset lines s else s) s

/-- R134, R160: a command reset that is requested takes effect; without a request nothing follows (log 2). Sent alone it
begins no frames (log 47). -/
def execCommandReset (lines : Lines) (s : State) : Host.Outcome State Fault Refusal :=
  onPart (unlessReset fun s => if s.resetRequested then commandReset lines s else s) s

/-! ## The REF input (R24, R26) -/

/-- R24, R26: REF ceases to be present. -/
def execRefSignalLost (s : State) : Host.Outcome State Fault Refusal :=
  onPart (fun s =>
    let s' : Part := { s with clock := { s.clock with refSignal := false } }
    if s.inReset then s' else sourceLost .ref s') s

/-- R24. -/
def execRefSignalPresent (s : State) : Host.Outcome State Fault Refusal :=
  onPart (fun s => { s with clock := { s.clock with refSignal := true } }) s

end Sys2Proof.Machine
end

