-- ==== Sys2Proof/Machine/Boundary.lean ====
section
/-! DEFINITION. The local frame boundary with the turns of every block (R23; log 9), the output sample period (R91, R94),
and the events that name one part of a boundary's work (log 1). -/

namespace Sys2Proof.Machine

/-! ## The turns of a boundary -/

/-- R23: the first boundary after a reset begins local frame 0, each later one the next frame. -/
def countTurn (s : Part) : Part :=
  { s with clock := { s.clock with
      phase := 0
      frame := if s.clock.started then s.clock.frame + 1#32 else s.clock.frame
      started := true } }

/-- R165: the DEFAULTS_LOADED notice of a load at a reset is raised at the first boundary. -/
def owedTurn (s : Part) : Part :=
  if s.store.owesDefaults then defaultsLoaded { s with store := { s.store with owesDefaults := false } } else s

/-- R50, R69: what was published at the last boundary is in force at this one (log 10). -/
def promote (s : Part) : Part :=
  { s with
    health := s.health.map fun h => { h with inForce := h.published }
    tracker := { s.tracker with inForce := s.tracker.computed } }

/-- R162: the KEY state takes the line's value. -/
def keyChange (line : Bool) (s : Part) : Part :=
  let s' := { s with lock := { s.lock with key := line, count := 0 } }
  if line && s.lock.level == .opened then setLevel .guarded true s' else s'

/-- R162: the KEY filter. -/
def keyTurn (line : Bool) (s : Part) : Part :=
  if line = s.lock.key then { s with lock := { s.lock with count := 0 } }
  else if 40 ≤ s.lock.count + 1 then keyChange line s
  else { s with lock := { s.lock with count := s.lock.count + 1 } }

/-- R25: the count of a source after this boundary. -/
def qualNext (s : Part) (src : Source) : Nat :=
  if sourcePresent s src then rise (s.clock.qual.get src) 200 else s.clock.qual.get src

/-- R25, R26: the counts rise, and a better source is selected. -/
def clockTurn (s : Part) : Part :=
  selectBetter { s with clock := { s.clock with
    qual := ⟨qualNext s .ref, qualNext s .gang, qualNext s .rigA, qualNext s .rigB⟩ } }

/-- R32: how many repeat slips a rig's ring makes at this boundary. -/
def repeatsOf (s : Part) (x : Rig) : Nat := if isLocked s x then (s.ring.get x).repeats else 0

/-- R32, R33: the underrun check of a ring, with its counter. -/
def underrunTurn (x : Rig) (s : Part) : Part :=
  let rx := s.rx.get x
  if 0 < repeatsOf s x then
    (s.setRing x (s.ring.get x).underrun).setRx x { rx with counters := rx.counters.addRepeats (repeatsOf s x) }
  else s

/-- R33, R61: the repeat slips of this boundary reach the Health Watch. -/
def slipTurn (x : Rig) (slips : Nat) (s : Part) : Part :=
  if 0 < slips then s.setHealth x (s.health.get x).slipped else s

/-- R59, R61, R65, R72: a rig's Health Watch turn. `before` is the rig before the boundary's writes, whose disables count for
the notice (R66, R72). -/
def healthTurn (x : Rig) (before : Health) (s : Part) : Part :=
  let h := s.health.get x
  let new := (h.advance (isLocked s x)).evaluate (s.rx.get x) (s.tables.watch.get x)
  raiseHealth x before h new (s.setHealth x new)

/-- R61: a rig's Health Watch turn and the report of its repeat slips, in the world's order for that rig (log 3). -/
def watchRig (x : Rig) (before : Health) (slipFirst : Bool) (slips : Nat) (s : Part) : Part :=
  if slipFirst then healthTurn x before (slipTurn x slips s) else slipTurn x slips (healthTurn x before s)

/-- The rings' checks, then the Health Watch (R32, R61, R65). `before` is the two rigs before the boundary's writes. -/
def watchTurn (ord : Order) (before : PerRig Health) (s : Part) : Part :=
  let na := repeatsOf s .A
  let nb := repeatsOf s .B
  watchRig .B (before.get .B) ord.slipFirstB nb
    (watchRig .A (before.get .A) ord.slipFirstA na (underrunTurn .B (underrunTurn .A s)))

/-- R37, R49: the move a ring makes of a request; 0 where its receiver is not LOCKED. -/
def madeMove (s : Part) (x : Rig) (m : Int) : Int :=
  if isLocked s x then moveMade (s.ring.get x).fill (moveAsked x m) else 0

/-- R36, R37: the ring of the chosen side takes the request. -/
def moveRing (x : Rig) (m : Int) (s : Part) : Part :=
  if isLocked s x then s.setRing x ((s.ring.get x).move (moveAsked x m)) else s

/-- R51: the ALIGN notice of a boundary. -/
def raiseAlign (old new : Tracker) (corr : Option Correction) (s : Part) : Part :=
  if old.state ≠ new.state ∨ corr.isSome = true then
    raise (.align old.state new.state new.stable (corr.map fun c => (c, new.residual))) s
  else s

/-- The loss that the world's order gives a rig. -/
def lossOf (ord : Order) : Rig → Option LockLoss
  | .A => ord.lossA
  | .B => ord.lossB

/-- R11, R16, R37: a LOCKED receiver leaves LOCKED at the boundary's instant; by a missing sync word only as the second in a
row. -/
def loseLock (x : Rig) (loss : Option LockLoss) (s : Part) : Part :=
  match loss with
  | some .activity => if isLocked s x then activityLost x s else s
  | some .syncWord => if isLocked s x && (s.rx.get x).missed then leaveLocked x .hunting s else s
  | none => s

/-- R37, R49: the receivers that leave LOCKED between the classification and the move request, by the world's order. -/
def lossTurn (ord : Order) (s : Part) : Part := loseLock .B (lossOf ord .B) (loseLock .A (lossOf ord .A) s)

/-- R40 to R51: the Alignment Tracker's turn, on the on-air facts of the boundary before (R46). A receiver may leave LOCKED
between the classification and the move request; the request and the verdict see the receivers after it (R37, R49; log
38). -/
def trackerTurn (ord : Order) (s : Part) : Part :=
  let ya := (s.ring.get .A).yield
  let yb := (s.ring.get .B).yield
  let la := isLocked s .A
  let lb := isLocked s .B
  let cls := classify la lb ya yb
  let tol := s.tables.setup.tolerance
  let old := s.tracker
  let t := (old.note cls ya yb s.clock.frame).derive cls tol
  let s1 := lossTurn ord { s with tracker := t }
  let la' := isLocked s1 .A
  let lb' := isLocked s1 .B
  match t.side s.tables.setup.reference with
  | some (x, m) =>
    let t' := s1.tracker.settle x m (amountApplied x (madeMove s1 x m)) tol
    raiseAlign old t' t'.lastCorr
      { moveRing x m s1 with tracker := { t' with computed := t'.verdict la' lb' ya yb } }
  | none =>
    raiseAlign old s1.tracker none
      { s1 with tracker := { s1.tracker with computed := s1.tracker.verdict la' lb' ya yb } }

/-- R171: the run count of a button after this boundary's sample. -/
def Button.runNext (b : Button) (line : Bool) : Nat := if line then rise b.run 40 else 0

/-- R171: a press is recognised. -/
def Button.pressed (b : Button) (line : Bool) : Bool := decide (40 ≤ b.runNext line) && !b.taken

/-- R171: the button after this boundary's sample. -/
def Button.sample (b : Button) (line : Bool) : Button :=
  { run := b.runNext line, taken := line && (b.taken || b.pressed line) }

/-- R171: one button is sampled; a recognised press hands its requests (R104). -/
def buttonTurn (x : Rig) (line : Bool) (s : Part) : Part :=
  let b := s.panel.buttons.get x
  let s' := { s with panel := { s.panel with buttons := s.panel.buttons.set x (b.sample line) } }
  if b.pressed line then press x s' else s'

/-- R171: the two buttons, in the world's order. -/
def buttonsTurn (lines : Lines) (bFirst : Bool) (s : Part) : Part :=
  if bFirst then buttonTurn .A lines.btnA (buttonTurn .B lines.btnB s)
  else buttonTurn .B lines.btnB (buttonTurn .A lines.btnA s)

/-- The presses of a boundary: the button proposals that wait for it (R120, R123) and the two buttons, in the world's order
(R89, R171; log 3). -/
def pressTurn (lines : Lines) (ord : Order) (s : Part) : Part :=
  if ord.buttonsBeforeProposed then applyPresses (buttonsTurn lines ord.bFirst s)
  else buttonsTurn lines ord.bFirst (applyPresses s)

/-- R89, R104: presses and MOVE_GROUPs reach the groups in either order. -/
def requestTurn (lines : Lines) (ord : Order) (s : Part) : Part :=
  if ord.buttonsFirst then runMoves ord (pressTurn lines ord s) else pressTurn lines ord (runMoves ord s)

/-- R86, R88: the groups that take no decision of their own at a boundary: their start-pending flag is set as the groups take
their turn, or a MOVE of their leader's starts there (log 37). -/
def takenUpAt (s : Part) (g : Fin 16) : Bool := (s.groups.get g).startPending || strayMove s g

/-- R88, R105, R118, R46: requests, stray MOVEs, takeover, decisions, the MOVEs a follower starts, arrivals, the on-air
facts. -/
def switchTurn (lines : Lines) (ord : Order) (s : Part) : Part :=
  let s1 := takeoverTurn (startStrayMoves (requestTurn lines ord s))
  publishOnAir (settleArrivals (startPendingMoves (decideGroups (takenUpAt s) s1)))

/-- The frames that the world takes before the boundary's changes, on the new count (R7, R111, R132; log 45). -/
def framesBefore (ord : Order) (s : Part) : Part :=
  let s' := if ord.framesFirst then beginFrames s else s
  if ord.gangFirst then beginGang s' else s'

/-- The frames that the world takes after the boundary's changes; the program header follows any alignment move (R38). -/
def framesAfter (ord : Order) (s : Part) : Part :=
  let s' := if ord.framesFirst then s else beginFrames s
  programHeader (if ord.gangFirst then s' else beginGang s')

/-- What a boundary begins with: the frames of the last one are out (R1), a command reset takes effect (R134), the count
advances and may be adopted (R23, R114), an owed notice is raised, and what was published comes into force. The frames begun
before the boundary's other changes show the new count (log 45). -/
def openBoundary (lines : Lines) (s : Part) : Part :=
  let s1 := endFrames s
  let s2 := if s1.resetRequested then commandReset lines s1 else s1
  promote (owedTurn (adoptTurn (countTurn s2)))

/-- R23: the local frame boundary, every block's turn in the order of log 9. -/
def boundary (lines : Lines) (ord : Order) (s : Part) : Part :=
  let s1 := framesBefore ord (openBoundary lines s)
  let s2 := matchTurn (writesTurn (keyTurn lines.key s1))
  let s3 := trackerTurn ord (watchTurn ord s1.health (clockTurn s2))
  framesAfter ord (gangTurn (switchTurn lines ord s3))

/-- R23. -/
def execLocalFrameBoundary (lines : Lines) (ord : Order) (s : State) : Host.Outcome State Fault Refusal :=
  onPart (unlessReset (boundary lines ord)) s

/-! ## The output sample period (R23, R31, R91, R94) -/

/-- R8, R94: the period's samples are formed and join the program frame. -/
def formSamples (s : Part) : Part :=
  let out := periodSamples s
  { s with
    samples := out
    program := { s.program with
      out := s.program.out.map fun f => if f.audio.length < 24 then { f with audio := f.audio ++ [out] } else f } }

/-- R31: the read cursors advance after the period's yield. -/
def advanceRings (s : Part) : Part :=
  { s with ring := ⟨(s.ring.get .A).advance (isLocked s .A), (s.ring.get .B).advance (isLocked s .B)⟩ }

/-- R23: the frame phase. -/
def advancePhase (s : Part) : Part :=
  { s with clock := { s.clock with phase := if 23 ≤ s.clock.phase then 0 else s.clock.phase + 1 } }

/-- R91, R94, R102: q rises, the samples are formed with the new gains, fades that reach L complete. -/
def samplePeriod (s : Part) : Part :=
  advancePhase (advanceRings (settleArrivals (completeFades (formSamples (tickFades s)))))

/-- R94. -/
def execOutputSamplePeriod (s : State) : Host.Outcome State Fault Refusal := onPart (unlessReset samplePeriod) s

/-- R91: the period at which a group's q reaches L, for that group alone (log 1). -/
def execFadeComplete (g : Fin 16) (s : State) : Host.Outcome State Fault Refusal :=
  onPart (unlessReset fun s =>
    match (s.groups.get g).course with
    | .fading f =>
      if f.len ≤ f.q + 1 then
        settleArrivals (completeFade g (s.setGroup g { s.groups.get g with course := (s.groups.get g).course.tick }))
      else s
    | .steady _ => s) s

/-- R128. -/
def execReturnFrameSent (r : Rig) (s : State) : Host.Outcome State Fault Refusal := onPart (unlessReset (endReturn r)) s

/-! ## Events that name one part of a boundary or of an arrival (log 1) -/

/-- R25, R26: the boundary that completes a source's qualification. -/
def execSourceQualified (src : Source) (s : State) : Host.Outcome State Fault Refusal :=
  onPart (unlessReset fun s =>
    if sourcePresent s src && s.clock.qual.get src == 199 then
      selectBetter { s with clock := { s.clock with qual := s.clock.qual.set src 200 } }
    else s) s

/-- R65: what the evaluation gives one cause now. -/
def causeNext (s : Part) (x : Rig) (c : Cause) : CauseRec :=
  let w := s.tables.watch.get x
  let h := s.health.get x
  evalCause (w.causes.get c.idx) (activity (s.rx.get x) w h c) (h.causes.get c.idx)

/-- R65, R68, R69, R72: one cause passes from a state to another by the evaluation. -/
def causeStep (x : Rig) (c : Cause) (src dst : CauseState) (s : Part) : Part :=
  let old := s.health.get x
  if (old.causes.get c.idx).state = src ∧ (causeNext s x c).state = dst then
    let new := old.withCauses (old.causes.set c.idx (causeNext s x c))
    raiseHealth x old old new (s.setHealth x new)
  else s

/-- R65: a PENDING cause's timer reaches its confirm time. The row is that entry alone, by its words in opcode_table.json;
the other entries into CONFIRMED are the boundary's. -/
def execCauseConfirmed (x : Rig) (c : Cause) (s : State) : Host.Outcome State Fault Refusal :=
  onPart (unlessReset (causeStep x c .pending .confirmed)) s

/-- R65: a CLEARING cause's timer reaches its clear time. The row is that entry alone, by its words in opcode_table.json;
the other entries into CLEAR are the boundary's. -/
def execCauseCleared (x : Rig) (c : Cause) (s : State) : Host.Outcome State Fault Refusal :=
  onPart (unlessReset (causeStep x c .clearing .clear)) s

/-- R59: the boundary at which the beat age reaches the beat timeout. -/
def execBeatTimeout (x : Rig) (s : State) : Host.Outcome State Fault Refusal :=
  onPart (unlessReset fun s =>
    let h := s.health.get x
    let limit := ((s.tables.watch.get x).causes.get Cause.beatLost.idx).p2.toNat
    if isLocked s x && h.beatAge + 1 == limit then s.setHealth x { h with beatAge := h.beatAge + 1 } else s) s

/-- R60: the silent arrival at which the run reaches the silence time. -/
def execSilenceTimeReached (x : Rig) (s : State) : Host.Outcome State Fault Refusal :=
  onPart (unlessReset fun s =>
    let h := s.health.get x
    let limit := ((s.tables.watch.get x).causes.get Cause.silence.idx).p2.toNat
    if isLocked s x && h.silenceRun + 1 == limit then s.setHealth x { h with silenceRun := h.silenceRun + 1 } else s) s

/-- R58: the eighth normal advance. -/
def execJumpRunEnd (x : Rig) (s : State) : Host.Outcome State Fault Refusal :=
  onPart (unlessReset fun s =>
    let h := s.health.get x
    if h.jump && h.jumpRun == 7 then s.setHealth x { h with jump := false, jumpRun := 0 } else s) s

/-- R61: the boundary at which the slip window falls to 0. -/
def execSlipWindowExpiry (x : Rig) (s : State) : Host.Outcome State Fault Refusal :=
  onPart (unlessReset fun s =>
    let h := s.health.get x
    if h.slipWindow = 1 then s.setHealth x { h with slipWindow := 0 } else s) s

/-- R99: a boundary at which the timer, after its count, is at or above the hold; the group returns when alignment
allows. -/
def returnHold (g : Fin 16) (s : Part) : Part :=
  let e := groupEntry s g
  let r := s.groups.get g
  let r' := countHold s g r
  if e.mode = .auto ∧ e.policy = .returnHold ∧ r.failedOver = true ∧ r.startPending = false ∧ isLed s g = false ∧
      e.hold.toNat ≤ r'.holdTimer then
    if returnsHome s g r' then
      let d := transition s g r' (.rig e.home) .autoReturn
      match d.begun with
      | some f => supersedeIfElsewhere g (announce g f (s.setGroup g d.after))
      | none => s.setGroup g d.after
    else s.setGroup g r'
  else s

def execReturnHoldExpiry (g : Fin 16) (s : State) : Host.Outcome State Fault Refusal :=
  onPart (unlessReset (returnHold g)) s

/-- R105, R106, R168. -/
def execTakeover (s : State) : Host.Outcome State Fault Refusal :=
  onPart (unlessReset fun s => if takeoverDue s then takeOver s else s) s

/-- R162: the 40th boundary at which the line differs from the KEY state. -/
def execKeyStateChange (s : State) : Host.Outcome State Fault Refusal :=
  onPart (unlessReset fun s => if s.lock.count = 39 then keyChange (!s.lock.key) s else s) s

/-- R171: the 40th boundary at which the button is seen asserted. -/
def execButtonPress (x : Rig) (s : State) : Host.Outcome State Fault Refusal :=
  onPart (unlessReset fun s => if (s.panel.buttons.get x).run = 39 then buttonTurn x true s else s) s

/-- R170: the boundary at which the pulse count falls to 0. -/
def execAlarmPulseEnd (s : State) : Host.Outcome State Fault Refusal :=
  onPart (unlessReset fun s => if s.panel.pulse = 1 then { s with panel := { s.panel with pulse := 0 } } else s) s

/-- R150, R151: a part that is held for its boundary or waits; R123 makes a reclaimed part one of these. -/
def partPending : Option MovePart → Bool
  | some ⟨_, .held⟩ | some ⟨_, .waiting _⟩ => true
  | some ⟨_, .executed _ _⟩ | some ⟨_, .proposed _⟩ | some ⟨_, .ended _⟩ | none => false

/-- Log 23: the commands of this tag on this port that have a part held or waiting here, oldest first; the other part may
have executed. -/
def moveIds (s : Part) (r : Rig) (tag : Byte) : List Nat :=
  (s.port.get r).slots.filterMap fun h =>
    match h.phase with
    | .move m => if h.tag == tag && (partPending m.own || partPending m.gang) then some h.id else none
    | .taken | .pendingWrite | .saving | .done => none

/-- The owners that a name stands for: both parts of the command, or the proposal. -/
def namedOwners (s : Part) : MoveName → List Owner
  | .command r tag =>
    match moveIds s r tag with
    | id :: _ => [.command r id false, .command r id true]
    | [] => []
  | .proposal ref => [.proposal ref]

/-- R150, R151: the evaluation at its boundary, where it executes the run or ends it by a check. -/
def executeIfReady (o : Owner) (s : Part) : Part :=
  match ownerRun s o with
  | some (req, p) =>
    match evalRun s o req p with
    | .fail st g => endOwner o st (be8 g.val) s
    | .execute => executeRun o req p.mask s
    | .timeout | .wait _ | .idle => s
  | none => s

/-- R151: the evaluation at which the wait count reaches the timeout. -/
def timeoutIfDue (o : Owner) (s : Part) : Part :=
  match ownerRun s o with
  | some (req, p) =>
    match evalRun s o req p with
    | .timeout => endOwner o .timeout [] s
    | .fail _ _ | .execute | .wait _ | .idle => s
  | none => s

/-- R150, R151. -/
def execMoveGroupExecute (name : MoveName) (s : State) : Host.Outcome State Fault Refusal :=
  onPart (unlessReset fun s => (namedOwners s name).foldl (fun t o => executeIfReady o t) s) s

/-- R151. -/
def execMoveGroupTimeout (name : MoveName) (s : State) : Host.Outcome State Fault Refusal :=
  onPart (unlessReset fun s => (namedOwners s name).foldl (fun t o => timeoutIfDue o t) s) s

end Sys2Proof.Machine
end

