-- ==== Sys2Proof/Machine/Messages.lean ====
section
/-! DEFINITION. The management commands as rows of the table: a complete message that reaches intake on a rig port (R127),
with its tag, its command code and what follows the code. -/

namespace Sys2Proof.Machine

/-- R127, R139: a complete message on a port, taken and judged. -/
def takeMessage (r : Rig) (t code : Byte) (body : List Byte) (s : State) : Host.Outcome State Fault Refusal :=
  onPart (unlessReset (intake r (t :: code :: body))) s

/-- R141. -/
def execIdentify (r : Rig) (t : Byte) (body : List Byte) (s : State) : Host.Outcome State Fault Refusal :=
  takeMessage r t Code.identify.byte body s

/-- R142. -/
def execReadStatus (r : Rig) (t : Byte) (body : List Byte) (s : State) : Host.Outcome State Fault Refusal :=
  takeMessage r t Code.readStatus.byte body s

/-- R143, R71. -/
def execReadHealth (r : Rig) (t : Byte) (body : List Byte) (s : State) : Host.Outcome State Fault Refusal :=
  takeMessage r t Code.readHealth.byte body s

/-- R143, R22. -/
def execReadCounts (r : Rig) (t : Byte) (body : List Byte) (s : State) : Host.Outcome State Fault Refusal :=
  takeMessage r t Code.readCounts.byte body s

/-- R144. -/
def execReadRoute (r : Rig) (t : Byte) (body : List Byte) (s : State) : Host.Outcome State Fault Refusal :=
  takeMessage r t Code.readRoute.byte body s

/-- R144. -/
def execReadGroup (r : Rig) (t : Byte) (body : List Byte) (s : State) : Host.Outcome State Fault Refusal :=
  takeMessage r t Code.readGroup.byte body s

/-- R144. -/
def execReadWatch (r : Rig) (t : Byte) (body : List Byte) (s : State) : Host.Outcome State Fault Refusal :=
  takeMessage r t Code.readWatch.byte body s

/-- R145. -/
def execReadAlign (r : Rig) (t : Byte) (body : List Byte) (s : State) : Host.Outcome State Fault Refusal :=
  takeMessage r t Code.readAlign.byte body s

/-- R75, R76, R147. -/
def execWriteRoute (r : Rig) (t : Byte) (body : List Byte) (s : State) : Host.Outcome State Fault Refusal :=
  takeMessage r t Code.writeRoute.byte body s

/-- R79, R80, R147. -/
def execWriteGroup (r : Rig) (t : Byte) (body : List Byte) (s : State) : Host.Outcome State Fault Refusal :=
  takeMessage r t Code.writeGroup.byte body s

/-- R64, R148. -/
def execWriteWatch (r : Rig) (t : Byte) (body : List Byte) (s : State) : Host.Outcome State Fault Refusal :=
  takeMessage r t Code.writeWatch.byte body s

/-- R83, R148. -/
def execWriteSetup (r : Rig) (t : Byte) (body : List Byte) (s : State) : Host.Outcome State Fault Refusal :=
  takeMessage r t Code.writeSetup.byte body s

/-- R85, R148. -/
def execRestoreDefaults (r : Rig) (t : Byte) (body : List Byte) (s : State) : Host.Outcome State Fault Refusal :=
  takeMessage r t Code.restoreDefaults.byte body s

/-- R119, R149, R150, R151. -/
def execMoveGroup (r : Rig) (t : Byte) (body : List Byte) (s : State) : Host.Outcome State Fault Refusal :=
  takeMessage r t Code.moveGroup.byte body s

/-- R153. -/
def execSetMode (r : Rig) (t : Byte) (body : List Byte) (s : State) : Host.Outcome State Fault Refusal :=
  takeMessage r t Code.setMode.byte body s

/-- R154. -/
def execMarkRig (r : Rig) (t : Byte) (body : List Byte) (s : State) : Host.Outcome State Fault Refusal :=
  takeMessage r t Code.markRig.byte body s

/-- R155, R156. -/
def execCancel (r : Rig) (t : Byte) (body : List Byte) (s : State) : Host.Outcome State Fault Refusal :=
  takeMessage r t Code.cancel.byte body s

/-- R157. -/
def execSetLock (r : Rig) (t : Byte) (body : List Byte) (s : State) : Host.Outcome State Fault Refusal :=
  takeMessage r t Code.setLock.byte body s

/-- R158. -/
def execSave (r : Rig) (t : Byte) (body : List Byte) (s : State) : Host.Outcome State Fault Refusal :=
  takeMessage r t Code.save.byte body s

/-- R159. -/
def execBypass (r : Rig) (t : Byte) (body : List Byte) (s : State) : Host.Outcome State Fault Refusal :=
  takeMessage r t Code.bypass.byte body s

/-- R160. -/
def execReset (r : Rig) (t : Byte) (body : List Byte) (s : State) : Host.Outcome State Fault Refusal :=
  takeMessage r t Code.reset.byte body s

/-- R130: a code that is not in the table of command codes. -/
def execUnknownCommand (r : Rig) (t code : Byte) (body : List Byte) (s : State) : Host.Outcome State Fault Refusal :=
  takeMessage r t code body s

end Sys2Proof.Machine
end

