-- ==== Sys2Proof/Machine/Dispatch.lean ====
section
/-! DEFINITION. The meaning of each command: one arm for each constructor of `Instr`. -/

namespace Sys2Proof.Machine

def exec (i : Instr) (s : State) : Host.Outcome State Fault Refusal :=
  match i with
  | .powerOnReset lines => Sys2Proof.Machine.execPowerOnReset lines s
  | .lineResetAssert => Sys2Proof.Machine.execLineResetAssert s
  | .lineResetEnd lines => Sys2Proof.Machine.execLineResetEnd lines s
  | .commandReset lines => Sys2Proof.Machine.execCommandReset lines s
  | .localFrameBoundary lines ord => Sys2Proof.Machine.execLocalFrameBoundary lines ord s
  | .outputSamplePeriod => Sys2Proof.Machine.execOutputSamplePeriod s
  | .fadeComplete g => Sys2Proof.Machine.execFadeComplete g s
  | .lineActivityLost x => Sys2Proof.Machine.execLineActivityLost x s
  | .lineActivityPresent x => Sys2Proof.Machine.execLineActivityPresent x s
  | .syncWordFound x => Sys2Proof.Machine.execSyncWordFound x s
  | .verifyGoodFrame x f => Sys2Proof.Machine.execVerifyGoodFrame x f s
  | .verifyFailed x => Sys2Proof.Machine.execVerifyFailed x s
  | .goodFrame x f => Sys2Proof.Machine.execGoodFrame x f s
  | .badCheckFrame x => Sys2Proof.Machine.execBadCheckFrame x s
  | .missingSyncWord x => Sys2Proof.Machine.execMissingSyncWord x s
  | .sequenceGap x f => Sys2Proof.Machine.execSequenceGap x f s
  | .resync x f => Sys2Proof.Machine.execResync x f s
  | .refSignalLost => Sys2Proof.Machine.execRefSignalLost s
  | .refSignalPresent => Sys2Proof.Machine.execRefSignalPresent s
  | .sourceQualified src => Sys2Proof.Machine.execSourceQualified src s
  | .causeConfirmed x c => Sys2Proof.Machine.execCauseConfirmed x c s
  | .causeCleared x c => Sys2Proof.Machine.execCauseCleared x c s
  | .beatTimeout x => Sys2Proof.Machine.execBeatTimeout x s
  | .silenceTimeReached x => Sys2Proof.Machine.execSilenceTimeReached x s
  | .jumpRunEnd x => Sys2Proof.Machine.execJumpRunEnd x s
  | .slipWindowExpiry x => Sys2Proof.Machine.execSlipWindowExpiry x s
  | .returnHoldExpiry g => Sys2Proof.Machine.execReturnHoldExpiry g s
  | .takeover => Sys2Proof.Machine.execTakeover s
  | .keyStateChange => Sys2Proof.Machine.execKeyStateChange s
  | .buttonPress x => Sys2Proof.Machine.execButtonPress x s
  | .alarmPulseEnd => Sys2Proof.Machine.execAlarmPulseEnd s
  | .writeTakesEffect => Sys2Proof.Machine.execWriteTakesEffect s
  | .setModeTakesEffect => Sys2Proof.Machine.execSetModeTakesEffect s
  | .bypassTakesEffect => Sys2Proof.Machine.execBypassTakesEffect s
  | .moveGroupExecute name => Sys2Proof.Machine.execMoveGroupExecute name s
  | .moveGroupTimeout name => Sys2Proof.Machine.execMoveGroupTimeout name s
  | .saveComplete ok => Sys2Proof.Machine.execSaveComplete ok s
  | .deferredLoad => Sys2Proof.Machine.execDeferredLoad s
  | .gangFrameReceived b => Sys2Proof.Machine.execGangFrameReceived b s
  | .gangLinkUp => Sys2Proof.Machine.execGangLinkUp s
  | .gangLinkLost => Sys2Proof.Machine.execGangLinkLost s
  | .countAdoption => Sys2Proof.Machine.execCountAdoption s
  | .gangMoveStart g => Sys2Proof.Machine.execGangMoveStart g s
  | .proposeResend ref => Sys2Proof.Machine.execProposeResend ref s
  | .mismatchRepair g => Sys2Proof.Machine.execMismatchRepair g s
  | .buttonProposalApply => Sys2Proof.Machine.execButtonProposalApply s
  | .identify r t body => Sys2Proof.Machine.execIdentify r t body s
  | .readStatus r t body => Sys2Proof.Machine.execReadStatus r t body s
  | .readHealth r t body => Sys2Proof.Machine.execReadHealth r t body s
  | .readCounts r t body => Sys2Proof.Machine.execReadCounts r t body s
  | .readRoute r t body => Sys2Proof.Machine.execReadRoute r t body s
  | .readGroup r t body => Sys2Proof.Machine.execReadGroup r t body s
  | .readWatch r t body => Sys2Proof.Machine.execReadWatch r t body s
  | .readAlign r t body => Sys2Proof.Machine.execReadAlign r t body s
  | .writeRoute r t body => Sys2Proof.Machine.execWriteRoute r t body s
  | .writeGroup r t body => Sys2Proof.Machine.execWriteGroup r t body s
  | .writeWatch r t body => Sys2Proof.Machine.execWriteWatch r t body s
  | .writeSetup r t body => Sys2Proof.Machine.execWriteSetup r t body s
  | .restoreDefaults r t body => Sys2Proof.Machine.execRestoreDefaults r t body s
  | .moveGroup r t body => Sys2Proof.Machine.execMoveGroup r t body s
  | .setMode r t body => Sys2Proof.Machine.execSetMode r t body s
  | .markRig r t body => Sys2Proof.Machine.execMarkRig r t body s
  | .cancel r t body => Sys2Proof.Machine.execCancel r t body s
  | .setLock r t body => Sys2Proof.Machine.execSetLock r t body s
  | .save r t body => Sys2Proof.Machine.execSave r t body s
  | .bypass r t body => Sys2Proof.Machine.execBypass r t body s
  | .reset r t body => Sys2Proof.Machine.execReset r t body s
  | .unknownCommand r t code body => Sys2Proof.Machine.execUnknownCommand r t code body s
  | .returnFrameSent r => Sys2Proof.Machine.execReturnFrameSent r s

end Sys2Proof.Machine
end

