-- ==== Sys2Proof/WellFormed.lean ====
section
/-! DEFINITION. Which commands the ports can carry at all: the sizes of a forward frame (R3 to R5), of a command
message (R129) and of a tag (R127). The meanings are total on every term; this check is for claims and tests. -/

namespace Sys2Proof

/-- R4, R5: the lane is 32 bytes; the audio is 24 sample periods of 64 slots. -/
def ForwardFrame.wf (f : ForwardFrame) : Bool :=
  f.lane.length == 32 && f.audio.length == 24 && f.audio.all (fun p => p.length == 64)

/-- R125, R127, R129: a message that may be taken has 3 to 240 bytes and a tag 0..254. -/
def messageWf (tag : Byte) (body : List Byte) : Bool :=
  decide (1 ≤ body.length) && decide (body.length ≤ 238) && tag != 0xFF#8

/-- R130: the codes of the table of command codes. -/
def commandCodes : List Byte :=
  [0x01#8, 0x02#8, 0x03#8, 0x04#8, 0x05#8, 0x06#8, 0x07#8, 0x08#8, 0x20#8, 0x21#8, 0x22#8, 0x23#8, 0x24#8,
   0x40#8, 0x41#8, 0x42#8, 0x43#8, 0x44#8, 0x45#8, 0x46#8, 0x47#8]

/-- The sizes of a command's operands. -/
def Instr.wf : Instr → Bool
  | .verifyGoodFrame _ f | .goodFrame _ f | .sequenceGap _ f | .resync _ f => f.wf
  | .sourceQualified src => src != .free
  | .moveGroupExecute (.command _ t) | .moveGroupTimeout (.command _ t) => t != 0xFF#8
  | .identify _ t b | .readStatus _ t b | .readHealth _ t b | .readCounts _ t b | .readRoute _ t b
  | .readGroup _ t b | .readWatch _ t b | .readAlign _ t b | .writeRoute _ t b | .writeGroup _ t b
  | .writeWatch _ t b | .writeSetup _ t b | .restoreDefaults _ t b | .moveGroup _ t b | .setMode _ t b
  | .markRig _ t b | .cancel _ t b | .setLock _ t b | .save _ t b | .bypass _ t b | .reset _ t b => messageWf t b
  | .unknownCommand _ t c b => messageWf t b && !commandCodes.contains c
  | .powerOnReset _ | .lineResetAssert | .lineResetEnd _ | .commandReset _ | .localFrameBoundary _ _
  | .outputSamplePeriod | .fadeComplete _ | .lineActivityLost _ | .lineActivityPresent _ | .syncWordFound _
  | .verifyFailed _ | .badCheckFrame _ | .missingSyncWord _ | .refSignalLost | .refSignalPresent
  | .causeConfirmed _ _ | .causeCleared _ _ | .beatTimeout _ | .silenceTimeReached _ | .jumpRunEnd _
  | .slipWindowExpiry _ | .returnHoldExpiry _ | .takeover | .keyStateChange | .buttonPress _ | .alarmPulseEnd
  | .writeTakesEffect | .setModeTakesEffect | .bypassTakesEffect | .moveGroupExecute (.proposal _)
  | .moveGroupTimeout (.proposal _) | .saveComplete _ | .deferredLoad | .gangFrameReceived _ | .gangLinkUp
  | .gangLinkLost | .countAdoption | .gangMoveStart _ | .proposeResend _ | .mismatchRepair _
  | .buttonProposalApply | .returnFrameSent _ => true

end Sys2Proof
end

