-- ==== Sys2Proof/Safety.lean ====
section
/-! DEFINITION. What claims about the block are stated with: the blocks of the state and which of them a command may
change, the parts of the invariant that every step keeps, and the plain conditions under which commands act. -/

namespace Sys2Proof.Machine

/-! ## Blocks and frames -/

/-- The fields of `Part`. -/
inductive Block where
  | rx | clock | ring | tracker | health | tables | writes | groups | takeover | samples | program | port | nextId
  | resetRequested | inReset | gang | lock | store | panel
  deriving DecidableEq, Repr

/-- Two parts hold the same value in a block. -/
def Block.agrees (b : Block) (s t : Part) : Prop :=
  match b with
  | .rx => t.rx = s.rx
  | .clock => t.clock = s.clock
  | .ring => t.ring = s.ring
  | .tracker => t.tracker = s.tracker
  | .health => t.health = s.health
  | .tables => t.tables = s.tables
  | .writes => t.writes = s.writes
  | .groups => t.groups = s.groups
  | .takeover => t.takeover = s.takeover
  | .samples => t.samples = s.samples
  | .program => t.program = s.program
  | .port => t.port = s.port
  | .nextId => t.nextId = s.nextId
  | .resetRequested => t.resetRequested = s.resetRequested
  | .inReset => t.inReset = s.inReset
  | .gang => t.gang = s.gang
  | .lock => t.lock = s.lock
  | .store => t.store = s.store
  | .panel => t.panel = s.panel

/-- From `s` to `t` no block outside a list has changed. -/
def Same (F : List Block) (s t : Part) : Prop := ∀ b, b ∉ F → b.agrees s t

/-- What a complete message may change, whatever command it carries. -/
def messageBlocks : List Block := [.rx, .health, .port, .nextId, .writes, .gang, .groups, .lock, .program, .store]

/-- What a frame written to a ring may change (R20, R30, R33, R43, R55). -/
def frameBlocks : List Block := [.rx, .ring, .health, .tracker]

/-- What a reset or a boundary may change: all but the model's counter of commands. -/
def resetBlockList : List Block :=
  [.rx, .clock, .ring, .tracker, .health, .tables, .writes, .groups, .takeover, .samples, .program, .port,
   .resetRequested, .inReset, .gang, .lock, .store, .panel]

/-- The blocks that a command may change; every other block it leaves as it is. -/
def touched : Instr → List Block
  | .powerOnReset _ | .lineResetAssert | .lineResetEnd _ | .commandReset _ | .localFrameBoundary _ _ => resetBlockList
  | .outputSamplePeriod => [.groups, .samples, .program, .port, .gang, .ring, .clock]
  | .fadeComplete _ => [.groups, .port, .program, .gang]
  | .lineActivityLost _ => [.rx, .ring, .tracker, .health, .port, .clock, .program]
  | .lineActivityPresent _ | .syncWordFound _ => [.rx]
  | .verifyFailed _ => [.rx, .port]
  | .verifyGoodFrame _ _ | .goodFrame _ _ | .sequenceGap _ _ | .resync _ _ => frameBlocks ++ messageBlocks
  | .badCheckFrame _ => frameBlocks ++ [.port]
  | .missingSyncWord _ => frameBlocks ++ [.port, .clock, .program]
  | .refSignalLost | .sourceQualified _ => [.clock, .port, .program]
  | .refSignalPresent => [.clock]
  | .causeConfirmed _ _ | .causeCleared _ _ => [.health, .port, .program]
  | .beatTimeout _ | .silenceTimeReached _ | .jumpRunEnd _ | .slipWindowExpiry _ => [.health]
  | .returnHoldExpiry _ => [.groups, .port, .program, .gang]
  | .takeover => [.takeover, .groups, .port, .program, .gang]
  | .keyStateChange => [.lock, .port, .program]
  | .buttonPress _ => [.panel, .groups, .gang]
  | .alarmPulseEnd => [.panel]
  | .writeTakesEffect => [.tables, .groups, .tracker, .panel, .port, .program, .writes, .health, .clock]
  | .setModeTakesEffect => [.tables, .port, .writes]
  | .bypassTakesEffect => [.panel, .port, .program, .writes]
  | .moveGroupExecute _ | .moveGroupTimeout _ => [.groups, .port, .gang]
  | .saveComplete _ => [.store, .port, .program, .writes]
  | .deferredLoad => [.tables, .groups, .tracker, .panel, .store, .port, .program, .writes, .health, .clock]
  | .gangFrameReceived _ | .gangMoveStart _ => [.gang, .groups, .port, .program]
  | .gangLinkUp => [.gang, .port, .program]
  | .gangLinkLost => [.gang, .groups, .port, .program, .clock]
  | .countAdoption => [.clock, .gang]
  | .proposeResend _ | .mismatchRepair _ => [.gang]
  | .buttonProposalApply => [.gang, .groups]
  | .identify _ _ _ | .readStatus _ _ _ | .readRoute _ _ _ | .readGroup _ _ _ | .readWatch _ _ _ | .readAlign _ _ _
  | .reset _ _ _ => [.port, .nextId]
  | .readHealth _ _ _ | .markRig _ _ _ => [.port, .nextId, .health]
  | .readCounts _ _ _ => [.port, .nextId, .rx]
  | .writeRoute _ _ _ | .writeGroup _ _ _ | .writeWatch _ _ _ | .writeSetup _ _ _ | .restoreDefaults _ _ _
  | .setMode _ _ _ | .bypass _ _ _ => [.port, .nextId, .writes]
  | .moveGroup _ _ _ => [.port, .nextId, .gang]
  | .cancel _ _ _ => [.port, .nextId, .writes, .gang, .groups]
  | .setLock _ _ _ => [.port, .nextId, .lock, .program]
  | .save _ _ _ => [.port, .nextId, .store]
  | .unknownCommand _ _ code _ => if commandCodes.contains code then messageBlocks else [.port, .nextId]
  | .returnFrameSent _ => [.port, .resetRequested]

/-! ## The parts of the invariant -/

/-- R162: while KEY is asserted the lock level is GUARDED or FROZEN. -/
def lockOk (s : Part) : Prop := s.lock.key = true → s.lock.level ≠ .opened

/-- R135: each of the three notice queues holds at most 8 notices. -/
def noticesOk (s : Part) : Prop :=
  (∀ r, (s.port.get r).lane.notices.length ≤ 8) ∧ s.program.lane.notices.length ≤ 8

/-- R128: at most eight commands hold general slots and at most one the reserved slot. -/
def slotsOk (s : Part) : Prop :=
  ∀ r, ((s.port.get r).slots.filter fun h => !h.reserved).length ≤ 8 ∧
    ((s.port.get r).slots.filter fun h => h.reserved).length ≤ 1

/-- The numbers of the held commands of a port are distinct and below the next number (log 23). -/
def idsOk (s : Part) : Prop :=
  ∀ r, ((s.port.get r).slots.map fun h => h.id).Nodup ∧ ∀ h ∈ (s.port.get r).slots, h.id < s.nextId

/-- R28: the frame records lie one after another below W, and every readable index has one. -/
def Ring.wf (r : Ring) : Prop :=
  r.frames.length ≤ 128 ∧ r.H ≤ 24 * r.frames.length ∧ r.H ≤ 3072 ∧
    ∀ i (h : i < r.frames.length), (r.frames[i]).start = r.W - BitVec.ofNat 32 (24 * (i + 1))

def ringsOk (s : Part) : Prop := ∀ x, (s.ring.get x).wf

/-- R91: the progress of a fade stays within 0..L, and L is one of the seven lengths or a MOVE's. -/
def Course.wf (c : Course) : Prop :=
  match c with
  | .steady _ => True
  | .fading f => f.q ≤ f.len ∧ 0 < f.len

def fadesOk (s : Part) : Prop := ∀ g, (s.groups.get g).course.wf

/-- R21: every error score is held within 0..255. R42: the history holds at most five measurements. -/
def scoresOk (s : Part) : Prop := (∀ x, (s.rx.get x).score ≤ 255) ∧ s.tracker.history.length ≤ 5

/-- R10, R11, R13, R19, R167: the states of a receiver and what it holds in them; while the RESET line holds the part every
receiver stands in NO_SIGNAL. -/
def receiversOk (s : Part) : Prop :=
  (s.inReset = true → ∀ x, (s.rx.get x).state = .noSignal) ∧
  ∀ x, (s.inReset = false → ((s.rx.get x).state = .noSignal ↔ (s.rx.get x).activity = false)) ∧
    ((s.rx.get x).prev.isSome = true ↔ (s.rx.get x).state = .locked) ∧
    ((s.rx.get x).state = .locked → (s.rx.get x).lastSeq.isSome = true)

/-! ## Plain conditions -/

/-- The state with another part and the same queue. -/
def State.withPart (s : State) (p : Part) : State := { s with toPart := p }

/-- The commands that act while the RESET line holds the part: the other resets, the conditions of the lines, and the end
of a save (log 21). -/
def actsInReset : Instr → Bool
  | .powerOnReset _ | .lineResetEnd _ | .lineActivityLost _ | .lineActivityPresent _ | .refSignalLost
  | .refSignalPresent | .saveComplete _ => true
  | _ => false

/-- At a boundary on these states no command reset takes effect: none is requested, and the frames that the boundary finds
sent whole request none (R134). -/
def noResetDue (s : Part) : Prop := s.inReset = false ∧ (endFrames s).resetRequested = false

/-- The frames that the boundary finds sent whole leave a command reset requested (R134). -/
def resetDue (s : Part) : Prop := s.inReset = false ∧ (endFrames s).resetRequested = true

/-- The range checks of a command, in the order in which they are made: the parameter index that a failure names, and what
must hold (R75, R79, R82, R63, R144, R147 to R149, R153 to R159). `b i` is the parameter byte of index `i`, `h i` the field of
two bytes that begins there. -/
def rangeChecks (c : Code) (p : List Byte) (cond : Option (Byte × Half)) : List (Nat × Prop) :=
  let b : Nat → Nat := fun i => (byteAt p (i - 1)).toNat
  let h : Nat → Nat := fun i => 256 * b i + b (i + 1)
  match c with
  | .identify | .readStatus | .readAlign | .restoreDefaults | .save | .reset => []
  | .readHealth | .readWatch | .bypass => [(1, b 1 ≤ 1)]
  | .readCounts | .markRig => [(1, b 1 ≤ 1), (2, b 2 ≤ 1)]
  | .readRoute => [(1, b 1 ≤ 63), (2, 1 ≤ b 2 ∧ b 2 ≤ 64), (2, b 1 + b 2 ≤ 64)]
  | .readGroup => [(1, b 1 ≤ 15), (2, 1 ≤ b 2 ∧ b 2 ≤ 16), (2, b 1 + b 2 ≤ 16)]
  | .writeRoute =>
    [(1, b 1 ≤ 63), (2, 1 ≤ b 2 ∧ b 2 ≤ 64), (2, b 1 + b 2 ≤ 64)] ++
      (List.range (b 2)).flatMap fun k =>
        [(3 + 3 * k, b (3 + 3 * k) % 128 < 16), (4 + 3 * k, b (4 + 3 * k) ≤ 63 ∨ b (4 + 3 * k) = 255),
          (5 + 3 * k, b (5 + 3 * k) ≤ 63 ∨ b (5 + 3 * k) = 255),
          (5 + 3 * k, ¬(128 ≤ b (3 + 3 * k) ∧ b (4 + 3 * k) = 255 ∧ b (5 + 3 * k) = 255))]
  | .writeGroup =>
    [(1, b 1 ≤ 15), (2, b 2 ≤ 2), (3, b 3 ≤ 1), (5, b 5 ≤ 6), (6, b 6 ≤ 1), (7, b 7 ≤ 2), (10, b 10 ≤ 1), (11, b 11 ≤ 1),
      (12, b 12 ≤ 1), (13, b 13 ≤ 1)]
  | .writeWatch =>
    [(1, b 1 ≤ 1), (2, b 2 ≤ 8)] ++
      if b 2 = 8 then
        [(3, 1 ≤ b 3 ∧ b 3 ≤ 4)] ++
          (List.range (b 3)).flatMap fun k =>
            [(4 + k, b (4 + k) ≤ 63), (4 + k, ∀ j, j < k → b (4 + j) ≠ b (4 + k))]
      else
        [(3, b 3 ≤ 1),
          (8, (b 2 = 1 → 8 ≤ 65536 * b 8 + h 9 ∧ 65536 * b 8 + h 9 ≤ 255) ∧
            (b 2 = 5 → 65536 * b 8 + h 9 ≤ 8388608)),
          (11, b 2 = 4 ∨ b 2 = 5 → 1 ≤ h 11)]
  | .writeSetup =>
    [(1, 48 ≤ h 1 ∧ h 1 ≤ 1536), (3, h 3 ≤ 480), (5, b 5 ≤ 1), (6, b 6 ≤ 1), (7, h 7 ≤ 20000)]
  | .moveGroup =>
    [(1, 1 ≤ h 1), (3, b 3 ≤ 2), (4, b 4 ≤ 1)] ++
      match cond with
      | none => []
      | some (flags, _) => [(5, flags.toNat ≤ 15)]
  | .setMode => [(1, b 1 ≤ 15), (2, b 2 ≤ 2)]
  | .cancel => [(1, b 1 ≤ 2), (2, b 1 = 0 → b 2 ≠ 255)]
  | .setLock => [(1, b 1 ≤ 2)]

/-- R139, step 5: the first of the checks that fails names this index. -/
def firstFails (checks : List (Nat × Prop)) (index : Nat) : Prop :=
  ∃ before after ok, checks = before ++ (index, ok) :: after ∧ ¬ok ∧ ∀ x ∈ before, x.2

/-- R11, R16, R37: the boundary's order has this rig's LOCKED receiver leave LOCKED inside the boundary (log 38). -/
def losesAt (ord : Order) (s : Part) (x : Rig) : Prop :=
  (s.rx.get x).state = .locked ∧
    (lossOf ord x = some .activity ∨ (lossOf ord x = some .syncWord ∧ (s.rx.get x).missed = true))

/-- R149: whether a masked group fails the check that a status stands for: a BAD_TARGET, b PROTECTED, c BUSY, d UNUSABLE,
e NOT_ALIGNED. -/
def failsCheck (s : Part) (req : MoveReq) (st : Status) (g : Fin 16) : Prop :=
  let e := groupEntry s g
  let r := s.groups.get g
  match st with
  | .badTarget => e.mode = .fixed ∨ (req.target = .dark ∧ e.mode = .auto)
  | .isProtected => e.isProtected = true
  | .busy => r.startPending = true
  | .unusable => ∃ x, req.target = .rig x ∧ r.course.dest ≠ .rig x ∧ rigUsable s g x = false ∧
      (req.force = false ∨ e.mode ≠ .manual)
  | .notAligned => req.force = false ∧ e.requireAlign = true ∧ alignMet s = false ∧
      ∃ x, req.target = .rig x ∧ r.course.dest = .rig x.other
  | .ok | .cancelled | .superseded | .timeout | .unknownCommand | .badLength | .badParam | .locked | .storeFailed => False

/-- R130: the row of the table that a command code names: its own constructor, on a port, with the tag and what follows the
code. -/
def rowOf (c : Code) (r : Rig) (tag : Byte) (body : List Byte) : Instr :=
  match c with
  | .identify => .identify r tag body
  | .readStatus => .readStatus r tag body
  | .readHealth => .readHealth r tag body
  | .readCounts => .readCounts r tag body
  | .readRoute => .readRoute r tag body
  | .readGroup => .readGroup r tag body
  | .readWatch => .readWatch r tag body
  | .readAlign => .readAlign r tag body
  | .writeRoute => .writeRoute r tag body
  | .writeGroup => .writeGroup r tag body
  | .writeWatch => .writeWatch r tag body
  | .writeSetup => .writeSetup r tag body
  | .restoreDefaults => .restoreDefaults r tag body
  | .moveGroup => .moveGroup r tag body
  | .setMode => .setMode r tag body
  | .markRig => .markRig r tag body
  | .cancel => .cancel r tag body
  | .setLock => .setLock r tag body
  | .save => .save r tag body
  | .bypass => .bypass r tag body
  | .reset => .reset r tag body

/-- A rig port on which a message with this tag takes a general slot (R127), in a part that is not held in reset; the
numbers of its held commands lie below the next number. -/
def canTake (s : Part) (r : Rig) (tag : Byte) : Prop :=
  s.inReset = false ∧ tag ≠ 0xFF#8 ∧ 0 < (s.port.get r).free ∧ ∀ h ∈ (s.port.get r).slots, h.id < s.nextId

/-- The part after a command has taken a general slot, in the phase given. -/
def heldAs (s : Part) (r : Rig) (tag code : Byte) (ph : Phase) : Part :=
  let p := s.port.get r
  { s.setPort r { p with slots := p.slots ++ [⟨s.nextId, tag, code, false, ph⟩] } with nextId := s.nextId + 1 }

/-- The part after a command has taken a general slot and completed at once with this response (R131). -/
def answeredAs (s : Part) (r : Rig) (tag code : Byte) (st : Status) (index : Nat) (results : List Byte) : Part :=
  let p := s.port.get r
  { s.setPort r
      { p with
        slots := p.slots ++ [⟨s.nextId, tag, code, false, .done⟩]
        responses := p.responses ++ [⟨s.nextId, tag, code, st, index, results⟩] } with
    nextId := s.nextId + 1 }

/-- A notice with this body and this part's count stands at the back of each of the three queues (R135). -/
def raised (s : Part) (b : NoticeBody) : Prop :=
  s.port.a.lane.notices.getLast? = some ⟨s.clock.frame, b⟩ ∧ s.port.b.lane.notices.getLast? = some ⟨s.clock.frame, b⟩ ∧
    s.program.lane.notices.getLast? = some ⟨s.clock.frame, b⟩

/-- From `s` to `t` one notice with this body, or none, has been pushed once on each of the three queues (R135). -/
def pushedOnce (s t : Part) (body : Option NoticeBody) : Prop :=
  ∀ lane, lane = (fun l : Lane => match body with
      | some b => l.push ⟨s.clock.frame, b⟩
      | none => l) →
    (∀ r, (t.port.get r).lane = lane (s.port.get r).lane) ∧ t.program.lane = lane s.program.lane

/-- The three notice queues of two parts are the same: nothing was raised. -/
def noNotice (s t : Part) : Prop :=
  t.port.a.lane.notices = s.port.a.lane.notices ∧ t.port.b.lane.notices = s.port.b.lane.notices ∧
    t.program.lane.notices = s.program.lane.notices

/-- The values that every kind of reset gives (R10, R22, R23, R25, R26, R28, R39, R54, R73, R86, R105, R110, R124, R170),
spelled out. A receiver's state is that of R11 where the reset has ended. -/
def resetValues (t : Part) : Prop :=
  (∀ x, (t.rx.get x).verifyCount = 0 ∧ (t.rx.get x).missed = false ∧ (t.rx.get x).lastSeq = none ∧
    (t.rx.get x).prev = none ∧ (t.rx.get x).selfFault = false ∧ (t.rx.get x).returnPause = false ∧
    (t.rx.get x).firstLock = false ∧ (t.rx.get x).score = 0 ∧
    (t.rx.get x).counters = ⟨0#32, 0#32, 0#32, 0#32, 0#32, 0#32, 0#32⟩) ∧
  (t.clock.phase = 0 ∧ t.clock.frame = 0#32 ∧ t.clock.started = false ∧ t.clock.selected = .free ∧
    t.clock.qual = ⟨0, 0, 0, 0⟩) ∧
  (∀ x, (t.ring.get x).W = 0#32 ∧ (t.ring.get x).R = 0#32 ∧ (t.ring.get x).V = 0#32 ∧ (t.ring.get x).H = 0) ∧
  (t.tracker.state = .noMeasure .waiting ∧ t.tracker.history = [] ∧ t.tracker.stable = none ∧ t.tracker.residual = 0 ∧
    t.tracker.lastCorr = none ∧ t.tracker.lastMeas = none ∧ t.tracker.lastCue = ⟨none, none⟩ ∧
    t.tracker.onAir = ⟨false, false⟩ ∧ t.tracker.inForce.met = false ∧ t.tracker.inForce.bothStopped = false ∧
    t.tracker.inForce.transport = ⟨none, none⟩) ∧
  (∀ x, (∀ c, (t.health.get x).causes.get c = ⟨.clear, 0⟩) ∧ (t.health.get x).stall = false ∧
    (t.health.get x).jump = false ∧ (t.health.get x).arrival = none ∧ (t.health.get x).jumpRun = 0 ∧
    (t.health.get x).beat = none ∧ (t.health.get x).beatAge = 0 ∧ (t.health.get x).silenceRun = 0 ∧
    (t.health.get x).slipWindow = 0 ∧ (t.health.get x).mark = false ∧ (t.health.get x).sticky = 0#8 ∧
    (t.health.get x).health = .good ∧ (t.health.get x).published = 0#8 ∧ (t.health.get x).inForce = 0#8) ∧
  t.writes = [] ∧
  (∀ g, (t.groups.get g).course = .steady .dark ∧ (t.groups.get g).binding = none ∧
    (t.groups.get g).failedOver = false ∧ (t.groups.get g).holdTimer = 0 ∧ (t.groups.get g).darkByRequest = false ∧
    (t.groups.get g).startPending = true ∧ (t.groups.get g).requests = []) ∧
  (t.takeover.done = false ∧ t.takeover.ready = ⟨0, 0⟩) ∧
  (∀ r, (t.port.get r).assembly = .idle ∧ (t.port.get r).slots = [] ∧ (t.port.get r).responses = [] ∧
    (t.port.get r).lane.notices = [] ∧ (t.port.get r).lane.gapPending = false ∧ (t.port.get r).lane.inSend = none ∧
    (t.port.get r).lane.cancelFirst = true ∧ (t.port.get r).refTag = 0xFF#8 ∧ (t.port.get r).refReason = .none ∧
    (t.port.get r).seq = 0#16) ∧
  (t.program.seq = 0#16 ∧ t.program.beat = 0#8 ∧ t.program.stamp = 0#32 ∧ t.program.cue = 0#12 ∧
    t.program.lane.notices = [] ∧ t.program.lane.gapPending = false ∧ t.program.lane.inSend = none ∧
    t.program.lane.cancelFirst = true) ∧
  (t.gang.goodRun = 0 ∧ t.gang.silence = 0 ∧ t.gang.partner = none ∧ t.gang.matched = 0#16 ∧ t.gang.moves = [] ∧
    t.gang.answers = [] ∧ (∀ ref, t.gang.board.get ref = ⟨false, .idle⟩) ∧ (∀ g, t.gang.mismatch.get g = 0) ∧
    (∀ ref, (t.gang.records.get ref).awaiting = false ∧ (t.gang.records.get ref).round = false) ∧
    t.gang.proposes = [] ∧ (∀ g, t.gang.pending.get g = none) ∧ t.gang.adopt = false) ∧
  t.resetRequested = false ∧ t.lock.count = 0 ∧ t.panel.pulse = 0 ∧ relay t = false

/-- What is read as a reset ends or takes effect (R11, R109, R161, R171): the receivers of lines with activity hunt, the
role and the gang state follow the straps, KEY and the level follow the line, the taken marks hold asserted buttons. -/
def linesRead (s t : Part) (lines : Lines) : Prop :=
  (∀ x, (t.rx.get x).state = if (s.rx.get x).activity then .hunting else .noSignal) ∧
  (t.gang.role = match lines.roleS1, lines.roleS2 with
    | true, false => .leader | false, true => .follower | false, false | true, true => .solo) ∧
  (t.gang.state = if lines.roleS1 = lines.roleS2 then .off else .seeking) ∧
  t.lock.key = lines.key ∧
  t.panel.buttons = ⟨⟨0, lines.btnA⟩, ⟨0, lines.btnB⟩⟩ ∧
  t.inReset = false

/-- R165: the working tables are loaded from a VALID image, or from the factory values with the notice owed. -/
def tablesLoaded (t : Part) : Prop :=
  t.store.storeValid = t.store.valid ∧ t.store.owesDefaults = !t.store.valid ∧
    t.tables = if t.store.valid then t.store.image else factoryTables

/-- R73: the tables after one table write. A route write replaces its channels, a group write its group, a watch write
its entry or list, a setup write the record, RESTORE_DEFAULTS all four tables; any other pending write none. -/
def tablesAfter (act : WriteAct) (t : Tables) : Tables :=
  match act with
  | .route first es =>
    { t with routes := Tbl.ofFn fun i =>
        if first ≤ i.val then (es[i.val - first]?).getD (t.routes.get i) else t.routes.get i }
  | .group g e => { t with groups := t.groups.set g e }
  | .watchCause x c e =>
    { t with watch := t.watch.set x { t.watch.get x with causes := (t.watch.get x).causes.set c e } }
  | .watchSlots x slots => { t with watch := t.watch.set x { t.watch.get x with slots } }
  | .setup new => { t with setup := new }
  | .defaults => factoryTables
  | .setMode _ _ | .bypass _ | .load => t

/-- R66, R85: a pending write that disables a cause of a rig as it takes effect. -/
def disables (act : WriteAct) (x : Rig) (i : Fin 8) : Prop :=
  (∃ e, act = .watchCause x i e ∧ e.enabled = false) ∨
    (act = .defaults ∧ ((factoryTables.watch.get x).causes.get i).enabled = false)

end Sys2Proof.Machine
end

