-- ==== Sys2Proof/Certificates/Slice0/Obligations.lean ====
section
/-! DEFINITION. The statements for the provers, by the rules of spec/. Every statement about a command says that it answers a
next state; `touched` (Safety.lean) names the blocks that a command may change. -/

open Sys2Proof Sys2Proof.Machine

/-! ## Every command -/

/-- The block takes the command at the front of its queue; with nothing waiting it idles (log 24, the model's choice). -/
def Obligations.StepTakesTheFrontCommand : Prop :=
  (∀ (c : Instr) (rest : List Instr) (s : State),
    step { s with pending := c :: rest } = exec c { s with pending := rest }) ∧
  ∀ s : State, s.pending = [] → step s = .next s

/-- No command stops the block (the spec describes no stop), none changes what waits behind it, and a block that `touched`
does not name for it stands as it was. While the RESET line holds the part (R1, R167), the commands that do not act change
nothing (log 21, the model's choice of which do). -/
def Obligations.EveryCommandAnswersWithinItsFrame : Prop :=
  ∀ (c : Instr) (s : State), ∃ t, exec c s = .next t ∧ t.pending = s.pending ∧
    (∀ b, b ∉ touched c → b.agrees s.toPart t.toPart) ∧ (s.inReset = true → actsInReset c = false → t = s)

/-- The commands of one rig's receiver and of one rig's Health Watch leave the other rig's receiver, ring and Health
Watch as they were (R11 to R20, R65). A message may still act on the other rig, so the frame-carrying commands are
held to the other rig's ring and arrival record only. -/
def Obligations.TheOtherRigStands : Prop :=
  ∀ (x : Rig) (s t : State),
    (∀ c, (c = .lineActivityLost x ∨ c = .lineActivityPresent x ∨ c = .syncWordFound x ∨ c = .verifyFailed x ∨
        c = .badCheckFrame x ∨ c = .missingSyncWord x ∨ c = .beatTimeout x ∨ c = .silenceTimeReached x ∨
        c = .jumpRunEnd x ∨ c = .slipWindowExpiry x ∨ (∃ k, c = .causeConfirmed x k ∨ c = .causeCleared x k)) →
      exec c s = .next t →
      t.rx.get x.other = s.rx.get x.other ∧ t.ring.get x.other = s.ring.get x.other ∧
        t.health.get x.other = s.health.get x.other) ∧
    (∀ f c, (c = .verifyGoodFrame x f ∨ c = .goodFrame x f ∨ c = .sequenceGap x f ∨ c = .resync x f) →
      exec c s = .next t →
      t.ring.get x.other = s.ring.get x.other ∧ (t.health.get x.other).arrival = (s.health.get x.other).arrival ∧
        (t.rx.get x.other).state = (s.rx.get x.other).state)

/-! ## Invariants that every step keeps -/

/-- R162: from any state in which an asserted KEY has the level at GUARDED or FROZEN, so does the next. -/
def Obligations.KeyGuardsTheLock : Prop :=
  ∀ s t : State, lockOk s.toPart → step s = .next t → lockOk t.toPart

/-- R135: no step lets a notice queue hold more than 8 notices. -/
def Obligations.NoticeQueuesStayBounded : Prop :=
  ∀ s t : State, noticesOk s.toPart → step s = .next t → noticesOk t.toPart

/-- R128: no step lets a port hold more than eight general slots or more than one reserved slot; the held commands keep
distinct numbers (log 23). -/
def Obligations.SlotsStayBounded : Prop :=
  ∀ s t : State, slotsOk s.toPart → idsOk s.toPart → step s = .next t → slotsOk t.toPart ∧ idsOk t.toPart

/-- R28, R30: the frame records stay one behind another below W, 128 at most, and every readable index has one. -/
def Obligations.RingsStayWellFormed : Prop :=
  ∀ s t : State, ringsOk s.toPart → step s = .next t → ringsOk t.toPart

/-- R21, R42, R91: the progress of every fade stays within 0..L, the error scores within 0..255 and the history within five
measurements. -/
def Obligations.CountsStayInRange : Prop :=
  (∀ s t : State, fadesOk s.toPart → step s = .next t → fadesOk t.toPart) ∧
  ∀ s t : State, scoresOk s.toPart → step s = .next t → scoresOk t.toPart

/-- R10, R11, R13, R19, R167: outside a held reset a receiver stands in NO_SIGNAL exactly while its line has no activity,
and in a held reset every receiver does; a receiver holds a previous-frame record exactly while it is LOCKED, and a LOCKED
receiver has a last sequence. -/
def Obligations.ReceiversStayConsistent : Prop :=
  ∀ s t : State, receiversOk s.toPart → step s = .next t → receiversOk t.toPart

/-- State.reset meets every part of the invariant. -/
def Obligations.ResetMeetsTheInvariants : Prop :=
  lockOk State.reset.toPart ∧ noticesOk State.reset.toPart ∧ slotsOk State.reset.toPart ∧ idsOk State.reset.toPart ∧
    ringsOk State.reset.toPart ∧ fadesOk State.reset.toPart ∧ scoresOk State.reset.toPart ∧
    receiversOk State.reset.toPart

/-! ## Resets -/

/-- R161, R163, R164, R165, R167, R168: a power-on reset. The lock forgets FROZEN, the bypass-engaged mark is clear, a save
in progress takes its image with it, and the tables are loaded. With the RESET line still asserted the part stays in
line reset. What the lines and the store hold at State.reset is the model's choice (log 6). -/
def Obligations.PowerOnReset : Prop :=
  ∀ (lines : Lines) (s : State),
    (s.inReset = false →
      ∃ t, exec (.powerOnReset lines) s = .next t ∧ resetValues t.toPart ∧ linesRead s.toPart t.toPart lines ∧
        tablesLoaded t.toPart ∧ t.lock.level = (if lines.key then .guarded else .opened) ∧ t.panel.bypass = false ∧
        t.store.image = s.store.image ∧ t.store.valid = (s.store.valid && s.store.save != .saving) ∧
        t.store.save = .none ∧ t.store.snapshot = none ∧ t.store.reload = false) ∧
    (s.inReset = true →
      ∃ t, exec (.powerOnReset lines) s = .next t ∧ t.inReset = true ∧ resetValues t.toPart ∧
        t.lock.level = .opened ∧ t.panel.bypass = false ∧ t.store.save = .none ∧ t.store.reload = false)

/-- R11, R109, R161, R163, R165, R166, R167, R171: the RESET line is asserted, and released. The level, the bypass-engaged
mark and the tables stand while it holds, and a running save goes on with the load deferred. At the release FROZEN
stands, the lines are read, and the tables are loaded unless a load is deferred, be it of a save that has completed inside
the hold (log 22, the model's choice). In a held reset every receiver stands in
NO_SIGNAL, which ReceiversStayConsistent keeps. -/
def Obligations.LineReset : Prop :=
  (∀ s : State, s.inReset = false →
    ∃ t, exec .lineResetAssert s = .next t ∧ t.inReset = true ∧ resetValues t.toPart ∧
      (∀ x, (t.rx.get x).state = .noSignal ∧ (t.rx.get x).activity = (s.rx.get x).activity) ∧
      t.lock.level = s.lock.level ∧ t.panel.bypass = s.panel.bypass ∧ t.tables = s.tables ∧
      t.store.image = s.store.image ∧ t.store.valid = s.store.valid ∧
      (if s.store.save = .saving then
        t.store.save = .saving ∧ t.store.snapshot = s.store.snapshot ∧ t.store.reload = true
      else t.store.save = .none ∧ t.store.snapshot = none ∧ t.store.reload = false)) ∧
  ∀ (lines : Lines) (s : State), s.inReset = true → (∀ x, (s.rx.get x).state = .noSignal) →
    ∃ t, exec (.lineResetEnd lines) s = .next t ∧ t.inReset = false ∧ linesRead s.toPart t.toPart lines ∧
      t.lock.level =
        (if s.lock.level = .frozen then .frozen else if lines.key then .guarded else .opened) ∧ t.lock.count = 0 ∧
      (if s.store.reload then t.tables = s.tables ∧ t.store = s.store else tablesLoaded t.toPart)

/-- R23, R134, R160, R161, R166, R167: a requested command reset; without a request nothing changes (log 2). Sent alone it
is the reset and begins no frame: the sequences are 0 and every lane still owes its CANCEL chunk (log 47, the model's
choice). Where the frames that have gone request it, it takes effect at the boundary, which begins local frame 0 with
sequence 0 and a CANCEL chunk on every lane; the commands in progress have ended without a response. -/
def Obligations.CommandReset : Prop :=
  (∀ (lines : Lines) (s : State), s.inReset = false →
    (s.resetRequested = false → exec (.commandReset lines) s = .next s) ∧
    (s.resetRequested = true →
      ∃ t, exec (.commandReset lines) s = .next t ∧ resetValues t.toPart ∧ linesRead s.toPart t.toPart lines ∧
        t.lock.level =
          (if s.lock.level = .frozen then .frozen else if lines.key then .guarded else .opened) ∧
        t.panel.bypass = s.panel.bypass ∧ t.store.image = s.store.image ∧
        (if s.store.save = .saving then
          t.tables = s.tables ∧ t.store.save = .saving ∧ t.store.snapshot = s.store.snapshot ∧ t.store.reload = true
        else tablesLoaded t.toPart ∧ t.store.save = .none ∧ t.store.reload = false))) ∧
  ∀ (lines : Lines) (ord : Order) (s : State), resetDue s.toPart →
    ∃ t, exec (.localFrameBoundary lines ord) s = .next t ∧ t.clock.frame = 0#32 ∧ t.clock.phase = 0 ∧
      t.clock.started = true ∧ t.resetRequested = false ∧ t.writes = [] ∧ t.takeover.done = false ∧
      t.panel.bypass = s.panel.bypass ∧
      (∀ r, (t.port.get r).seq = 1#16 ∧ (t.port.get r).slots = [] ∧ (t.port.get r).responses = [] ∧
        ∃ body, (t.port.get r).out = some (sealFrame body) ∧ body.take 2 = be16 0#16 ∧ body.drop 30 = cancelChunk) ∧
      ∃ f, t.program.out = some f ∧ f.seq = 0#16 ∧ f.beat = 0#8 ∧ f.lane = cancelChunk

/-! ## The boundary -/

/-- R1, R6, R8, R9, R111, R124: at a boundary each rig port begins a return frame of 68 bytes, the Program Port a program
frame and the Gang Port a gang frame of 64 bytes; the sequences and the app beat count on. The program frame has the
position, cue and transport of the reference rig, else of the other rig, where the receiver is LOCKED and the cursor stands
at a written position; else it counts on from the last. A return frame begun after the boundary's changes (R7 leaves the
order open) carries the summary of the part as it then stands. R117: the message of the gang frame is the oldest MOVE, else the
oldest ANSWER, else the oldest PROPOSE; it leaves its queue, and a PROPOSE renews its ref's send count. The gang frame reports
the part as it is begun, before or after the turns of the boundary, whose order is the model's (log 9). -/
def Obligations.BoundaryBeginsItsFrames : Prop :=
  (∀ p : Machine.Part,
    (∀ m rest, p.gang.moves = m :: rest → takeGangMsg p = (.move m, { p with gang := { p.gang with moves := rest } })) ∧
    (p.gang.moves = [] →
      (∀ a rest, p.gang.answers = a :: rest →
        takeGangMsg p = (.answer a, { p with gang := { p.gang with answers := rest } })) ∧
      (p.gang.answers = [] →
        (∀ m rest, p.gang.proposes = m :: rest →
          (takeGangMsg p).1 = .propose m ∧ (takeGangMsg p).2.gang.proposes = rest ∧
          ∀ k : Fin 8, (takeGangMsg p).2.gang.records.get k =
            if m.ref.val = k.val then { p.gang.records.get k with sentAt := some p.clock.frame }
            else p.gang.records.get k) ∧
        (p.gang.proposes = [] → takeGangMsg p = (.none, p))))) ∧
  ∀ (lines : Lines) (ord : Order) (s : State), noResetDue s.toPart →
    ∃ t, exec (.localFrameBoundary lines ord) s = .next t ∧
      (∀ r, (t.port.get r).seq = (s.port.get r).seq + 1#16 ∧
        ∃ summary chunk, summary.length = 24 ∧ chunk.length = 32 ∧
          (t.port.get r).out =
            some (sealFrame (be16 (s.port.get r).seq ++ summary ++ [0#8, 0#8, 0#8, 0#8] ++ chunk)) ∧
          (ord.framesFirst = false → summary = summaryBytes t.toPart r)) ∧
      t.program.seq = s.program.seq + 1#16 ∧ t.program.beat = s.program.beat + 1#8 ∧
      (∃ f, t.program.out = some f ∧ f.seq = s.program.seq ∧ f.beat = s.program.beat ∧ f.audio = [] ∧
        f.stamp = t.program.stamp ∧ f.cue = t.program.cue ∧ f.lane.length = 32 ∧
        (∀ x y, (t.rx.get x).state = .locked → (t.ring.get x).yield = some y →
          x = t.tables.setup.reference ∨ (t.rx.get x.other).state ≠ .locked ∨ (t.ring.get x.other).yield = none →
          f.stamp = y.frame.stamp + BitVec.ofNat 32 y.offset ∧ f.cue = y.frame.cue ∧
            f.transport = y.frame.transport) ∧
        ((∀ x, (t.rx.get x).state ≠ .locked ∨ (t.ring.get x).yield = none) →
          f.stamp = s.program.stamp + 24#32 ∧ f.cue = s.program.cue ∧ f.transport = .stop)) ∧
      (∃ body, body.length = 58 ∧ t.gang.out = some (sealFrame body)) ∧
      ∀ first turned begun : Machine.Part,
        first = (if ord.framesFirst then beginFrames (openBoundary lines s.toPart) else openBoundary lines s.toPart) →
        turned = gangTurn (switchTurn lines ord (trackerTurn ord (watchTurn ord first.health (clockTurn (matchTurn
          (writesTurn (keyTurn lines.key (if ord.gangFirst then beginGang first else first)))))))) →
        begun = (if ord.gangFirst then first else if ord.framesFirst then turned else beginFrames turned) →
        t.gang.out = some (sealFrame (gangCovered begun (takeGangMsg begun).1)) ∧
        (ord.gangFirst = false →
          t.gang = { (takeGangMsg begun).2.gang with out := t.gang.out } ∧
          gangCovered t.toPart (takeGangMsg begun).1 = gangCovered begun (takeGangMsg begun).1)

/-- R23, R114: at a boundary the frame phase is 0 and the count goes on by 1, from 0 at the first boundary after a reset. A
follower whose adoption is marked, or whose count has drifted by 2 or more from that of a frame that has arrived, takes its
leader's count plus 1 (log 11); every other count stands. R50, R69: what was published at the last boundary is in force at
this one (log 10). -/
def Obligations.BoundaryCounts : Prop :=
  ∀ (lines : Lines) (ord : Order) (s : State) (n : Word), noResetDue s.toPart →
    n = (if s.clock.started then s.clock.frame + 1#32 else s.clock.frame) →
    ∃ t, exec (.localFrameBoundary lines ord) s = .next t ∧ t.clock.phase = 0 ∧ t.clock.started = true ∧
      (s.gang.adopt = false →
        (s.gang.role = .follower → s.gang.state = .up → s.gang.arrived = true → ∀ p, s.gang.partner = some p →
          (sdiff n (p.frame + 1#32)).natAbs < 2) →
        t.clock.frame = n) ∧
      (∀ p, s.gang.partner = some p →
        s.gang.adopt = true ∨ (s.gang.role = .follower ∧ s.gang.state = .up ∧ s.gang.arrived = true ∧
          2 ≤ (sdiff n (p.frame + 1#32)).natAbs) →
        t.clock.frame = p.frame + 1#32) ∧
      t.tracker.inForce = s.tracker.computed ∧ ∀ x, (t.health.get x).inForce = (s.health.get x).published

/-- R162: at each boundary the filter compares the KEY line with the KEY state; at the 40th boundary of a difference the KEY
state changes, and an assertion in OPEN makes the level GUARDED, with a notice. The notice is stated of the KEY filter's own
turn among the turns of the boundary, whose order is the model's (log 9). The last part is KEY_STATE_CHANGE sent alone at a
count of 39, which changes nothing else: the model's choice (log 1). -/
def Obligations.KeyFilter : Prop :=
  (∀ (lines : Lines) (ord : Order) (s : State), noResetDue s.toPart →
    ∃ t, exec (.localFrameBoundary lines ord) s = .next t ∧
      (lines.key = s.lock.key → t.lock = { s.lock with count := 0 }) ∧
      (lines.key ≠ s.lock.key → s.lock.count < 39 → t.lock = { s.lock with count := s.lock.count + 1 }) ∧
      (lines.key ≠ s.lock.key → 39 ≤ s.lock.count →
        t.lock.key = lines.key ∧ t.lock.count = 0 ∧
          t.lock.level = if lines.key = true ∧ s.lock.level = .opened then .guarded else s.lock.level)) ∧
  (∀ (lines : Lines) (ord : Order) (s : State) (p q : Machine.Part), noResetDue s.toPart →
    p = framesBefore ord (openBoundary lines s.toPart) → q = keyTurn lines.key p →
    exec (.localFrameBoundary lines ord) s = .next (s.withPart
      (framesAfter ord (gangTurn (switchTurn lines ord
        (trackerTurn ord (watchTurn ord p.health (clockTurn (matchTurn (writesTurn q))))))))) ∧
    (lines.key = true → s.lock.key = false → 39 ≤ s.lock.count → s.lock.level = .opened →
      pushedOnce p q (some (.lock .opened .guarded true))) ∧
    (lines.key = false ∨ s.lock.key = true ∨ s.lock.count < 39 ∨ s.lock.level ≠ .opened → pushedOnce p q none)) ∧
  ∀ s : State, s.inReset = false → s.lock.count = 39 →
    (s.lock.key = true ∨ s.lock.level ≠ .opened →
      exec .keyStateChange s = .next { s with lock := { s.lock with key := !s.lock.key, count := 0 } }) ∧
    (s.lock.key = false → s.lock.level = .opened →
      ∃ t, exec .keyStateChange s = .next t ∧ t.lock = ⟨.guarded, true, 0⟩ ∧
        raised t.toPart (.lock .opened .guarded true))

/-- R24: the sources in their priority order. R25 to R27: at each boundary the qualification count of a source that is present rises by 1 and stops at 200, and that of
another stands. A source whose count reaches 200 is selected where it outranks the selected one. A loss of REF zeroes
its count, and where REF was selected the best source still qualified is selected at once. GANG is present on a follower in
UP; its count is stated for a boundary at which the link is not lost. The count of a rig whose receiver leaves LOCKED inside
the boundary (R37, log 38) becomes 0. SOURCE_QUALIFIED sent alone is the model's choice
(log 1), and so is what REF does while the RESET line holds the part (log 21). -/
def Obligations.ClockSources : Prop :=
  (∀ (reference : Rig) (q : Qual),
    [Source.ref, .gang, rigSource reference, rigSource reference.other, .free].map (sourceRank reference) =
      [0, 1, 2, 3, 4] ∧
    (200 ≤ q.ref → bestSource reference q = .ref) ∧
    (q.ref < 200 →
      (200 ≤ q.gang → bestSource reference q = .gang) ∧
      (q.gang < 200 →
        (200 ≤ q.get (rigSource reference) → bestSource reference q = rigSource reference) ∧
        (q.get (rigSource reference) < 200 →
          (200 ≤ q.get (rigSource reference.other) → bestSource reference q = rigSource reference.other) ∧
          (q.get (rigSource reference.other) < 200 → bestSource reference q = .free))))) ∧
  (∀ (lines : Lines) (ord : Order) (s : State), noResetDue s.toPart →
    ∃ t, exec (.localFrameBoundary lines ord) s = .next t ∧
      (s.clock.refSignal = true → t.clock.qual.ref = min (s.clock.qual.ref + 1) 200) ∧
      (s.clock.refSignal = false → t.clock.qual.ref = s.clock.qual.ref) ∧
      (∀ x, (losesAt ord s.toPart x → t.clock.qual.get (rigSource x) = 0) ∧
        (¬losesAt ord s.toPart x →
          ((s.rx.get x).state = .locked →
            t.clock.qual.get (rigSource x) = min (s.clock.qual.get (rigSource x) + 1) 200) ∧
          ((s.rx.get x).state ≠ .locked → t.clock.qual.get (rigSource x) = s.clock.qual.get (rigSource x)))) ∧
      (s.gang.silence < 7 →
        (s.gang.role = .follower ∧ s.gang.state = .up → t.clock.qual.gang = min (s.clock.qual.gang + 1) 200) ∧
        (s.gang.role ≠ .follower ∨ s.gang.state ≠ .up → t.clock.qual.gang = s.clock.qual.gang))) ∧
  (∀ (src : Source) (s : State), s.inReset = false → sourcePresent s.toPart src = true → src ≠ .free →
    s.clock.qual.get src = 199 →
    ∃ t, exec (.sourceQualified src) s = .next t ∧ t.clock.qual = s.clock.qual.set src 200 ∧
      t.clock.selected =
        (if sourceRank s.tables.setup.reference (bestSource s.tables.setup.reference (s.clock.qual.set src 200)) <
            sourceRank s.tables.setup.reference s.clock.selected then
          bestSource s.tables.setup.reference (s.clock.qual.set src 200)
        else s.clock.selected) ∧
      (t.clock.selected ≠ s.clock.selected → raised t.toPart (.clock s.clock.selected t.clock.selected false)) ∧
      (t.clock.selected = s.clock.selected → noNotice s.toPart t.toPart)) ∧
  ∀ s : State,
    exec .refSignalPresent s = .next { s with clock := { s.clock with refSignal := true } } ∧
    (s.inReset = true → exec .refSignalLost s = .next { s with clock := { s.clock with refSignal := false } }) ∧
    (s.inReset = false → s.clock.selected ≠ .ref →
      exec .refSignalLost s =
        .next { s with clock := { s.clock with refSignal := false, qual := { s.clock.qual with ref := 0 } } }) ∧
    (s.inReset = false → s.clock.selected = .ref →
      ∃ t, exec .refSignalLost s = .next t ∧ t.clock.refSignal = false ∧ t.clock.qual.ref = 0 ∧
        t.clock.selected = bestSource s.tables.setup.reference { s.clock.qual with ref := 0 } ∧
        raised t.toPart (.clock .ref t.clock.selected true))

/-- R31, R32: after a boundary the fill of a LOCKED ring, as the underrun check and any alignment move leave it, is at
least 24. A ring whose receiver leaves LOCKED inside the boundary is flushed (R34, R37, log 38). -/
def Obligations.BoundaryLeavesNoUnderrun : Prop :=
  ∀ (lines : Lines) (ord : Order) (s : State) (x : Rig), noResetDue s.toPart →
    (s.rx.get x).state = .locked → (s.ring.get x).fill ≤ 3072 →
    ∃ t, exec (.localFrameBoundary lines ord) s = .next t ∧
      (¬losesAt ord s.toPart x → 24 ≤ (t.ring.get x).fill ∧ (t.ring.get x).fill ≤ 3072) ∧
      (losesAt ord s.toPart x → (t.ring.get x).fill = 0 ∧ (t.ring.get x).H = 0 ∧ (t.rx.get x).state ≠ .locked)

/-- R65, R68, R69, R70: after a boundary the health and the published set of a rig are those of the states its causes hold,
and the causes that have left CLEAR at it have joined the sticky set. R66: a cause that a write of this boundary disabled has
entered CLEAR before the evaluation, so that it has left CLEAR if it does not stand in it afterwards. -/
def Obligations.HealthFollowsTheCauses : Prop :=
  ∀ (lines : Lines) (ord : Order) (s : State) (x : Rig), noResetDue s.toPart →
    ∃ t, exec (.localFrameBoundary lines ord) s = .next t ∧
      (∀ i : Fin 8, (t.health.get x).published.getLsbD i.val = true ↔
        (((t.health.get x).causes.get i).state = .confirmed ∨ ((t.health.get x).causes.get i).state = .clearing)) ∧
      ((t.health.get x).health = .failed ↔ ∃ i, ((t.health.get x).causes.get i).state = .confirmed) ∧
      ((t.health.get x).health = .recovering ↔
        (∀ i, ((t.health.get x).causes.get i).state ≠ .confirmed) ∧
          ∃ i, ((t.health.get x).causes.get i).state = .clearing) ∧
      ((t.health.get x).health = .suspect ↔
        (∀ i, ((t.health.get x).causes.get i).state ≠ .confirmed ∧
            ((t.health.get x).causes.get i).state ≠ .clearing) ∧
          ∃ i, ((t.health.get x).causes.get i).state = .pending) ∧
      ((t.health.get x).health = .good ↔ ∀ i, ((t.health.get x).causes.get i).state = .clear) ∧
      (∀ i : Fin 8, (s.health.get x).sticky.getLsbD i.val = true ∨
          (((s.health.get x).causes.get i).state = .clear ∧ ((t.health.get x).causes.get i).state ≠ .clear) →
        (t.health.get x).sticky.getLsbD i.val = true) ∧
      ((∀ w ∈ s.writes, w.act ≠ .load) → ∀ i : Fin 8, (t.health.get x).sticky.getLsbD i.val = true ↔
        (s.health.get x).sticky.getLsbD i.val = true ∨
          (((t.health.get x).causes.get i).state ≠ .clear ∧
            (((s.health.get x).causes.get i).state = .clear ∨ ∃ w ∈ s.writes, disables w.act x i)))

/-- R56 to R62: when each of the eight causes is active. R65, R66: the table of the cause states; its evaluation at a
boundary that changes no table (SLIP apart, whose window may be renewed at the same boundary, R61); and the entries into
CONFIRMED and CLEAR taken on their own (log 1), with the health and the sets that follow (R68, R69, R70). A cause that two
writes of one boundary disable and enable again is evaluated there from CLEAR (R64, R66). LINK_DOWN is judged on the receiver
as it stands at the Health Watch's turn, so also at a boundary inside which the receiver leaves LOCKED (logs 9 and 38, the
model's choices). -/
def Obligations.CausesAreEvaluated : Prop :=
  (∀ (rx : Receiver) (w : WatchRig) (h : Health),
    (activity rx w h .linkDown = true ↔ rx.state ≠ .locked) ∧
    (activity rx w h .frameErrors = true ↔ (w.causes.get Cause.frameErrors.idx).p1.toNat ≤ rx.score) ∧
    (activity rx w h .stampStall = true ↔ h.stall = true) ∧
    (activity rx w h .stampJump = true ↔ h.jump = true) ∧
    (activity rx w h .beatLost = true ↔
      rx.state = .locked ∧ (w.causes.get Cause.beatLost.idx).p2.toNat ≤ h.beatAge) ∧
    (activity rx w h .silence = true ↔ (w.causes.get Cause.silence.idx).p2.toNat ≤ h.silenceRun) ∧
    (activity rx w h .slip = true ↔ 0 < h.slipWindow) ∧
    (activity rx w h .selfFault = true ↔ h.mark = true ∨ rx.selfFault = true)) ∧
  [Cause.linkDown, .frameErrors, .stampStall, .stampJump, .beatLost, .silence, .slip, .selfFault].map Cause.idx =
    [0, 1, 2, 3, 4, 5, 6, 7] ∧
  (∀ (w : WatchEntry) (active : Bool) (c : CauseRec), w.enabled = false → evalCause w active c = ⟨.clear, 0⟩) ∧
  (∀ (w : WatchEntry) (n : Nat), w.enabled = true →
    evalCause w true ⟨.clear, n⟩ = (if w.confirm = 0#16 then ⟨.confirmed, 0⟩ else ⟨.pending, 0⟩) ∧
    evalCause w false ⟨.clear, n⟩ = ⟨.clear, n⟩ ∧
    evalCause w true ⟨.pending, n⟩ =
      (if w.confirm.toNat ≤ min (n + 1) 65535 then ⟨.confirmed, 0⟩ else ⟨.pending, min (n + 1) 65535⟩) ∧
    evalCause w false ⟨.pending, n⟩ = ⟨.clear, 0⟩ ∧
    evalCause w true ⟨.confirmed, n⟩ = ⟨.confirmed, n⟩ ∧
    evalCause w false ⟨.confirmed, n⟩ = (if w.clear = 0#16 then ⟨.clear, 0⟩ else ⟨.clearing, 0⟩) ∧
    evalCause w true ⟨.clearing, n⟩ = ⟨.confirmed, 0⟩ ∧
    evalCause w false ⟨.clearing, n⟩ =
      (if w.clear.toNat ≤ min (n + 1) 65535 then ⟨.clear, 0⟩ else ⟨.clearing, min (n + 1) 65535⟩)) ∧
  (∀ (lines : Lines) (ord : Order) (s : State) (x : Rig) (c : Cause), noResetDue s.toPart → s.writes = [] → c ≠ .slip →
    ∃ t, exec (.localFrameBoundary lines ord) s = .next t ∧
      (t.health.get x).causes.get c.idx =
        evalCause ((s.tables.watch.get x).causes.get c.idx)
          (activity (s.rx.get x) (s.tables.watch.get x)
            { s.health.get x with
              beatAge := if (s.rx.get x).state = .locked then min ((s.health.get x).beatAge + 1) 65535
                else (s.health.get x).beatAge } c)
          ((s.health.get x).causes.get c.idx)) ∧
  (∀ (lines : Lines) (ord : Order) (s : State) (x : Rig) (c : Cause) (o o' : Option (Rig × Nat)) (off on : WatchEntry)
      (w : WatchRig), noResetDue s.toPart → c ≠ .slip → off.enabled = false →
    s.writes = [⟨o, .watchCause x c.idx off⟩, ⟨o', .watchCause x c.idx on⟩] →
    w = { s.tables.watch.get x with causes := (s.tables.watch.get x).causes.set c.idx on } →
    ∃ t, exec (.localFrameBoundary lines ord) s = .next t ∧ t.tables.watch.get x = w ∧
      (t.health.get x).causes.get c.idx = evalCause on
        (activity (s.rx.get x) w
          { s.health.get x with
            beatAge := if (s.rx.get x).state = .locked then min ((s.health.get x).beatAge + 1) 65535
              else (s.health.get x).beatAge } c)
        ⟨.clear, 0⟩) ∧
  ∀ (s : State) (x : Rig) (c : Cause) (w : WatchEntry) (n : Nat), s.inReset = false →
    (s.tables.watch.get x).causes.get c.idx = w → w.enabled = true →
    ((s.health.get x).causes.get c.idx = ⟨.pending, n⟩ →
      activity (s.rx.get x) (s.tables.watch.get x) (s.health.get x) c = true → w.confirm.toNat ≤ min (n + 1) 65535 →
      ∃ t, exec (.causeConfirmed x c) s = .next t ∧ (t.health.get x).causes.get c.idx = ⟨.confirmed, 0⟩ ∧
        (t.health.get x).health = .failed ∧ (t.health.get x).published.getLsbD c.idx.val = true ∧
        (t.health.get x).sticky = (s.health.get x).sticky ∧
        ∃ old p q r, raised t.toPart (.rigHealth x old .failed p q r (s.health.get x).sticky)) ∧
    ((s.health.get x).causes.get c.idx = ⟨.clearing, n⟩ →
      activity (s.rx.get x) (s.tables.watch.get x) (s.health.get x) c = false → w.clear.toNat ≤ min (n + 1) 65535 →
      ∃ t, exec (.causeCleared x c) s = .next t ∧ (t.health.get x).causes.get c.idx = ⟨.clear, 0⟩ ∧
        (t.health.get x).published.getLsbD c.idx.val = false ∧ (t.health.get x).sticky = (s.health.get x).sticky)

/-! ## Fades and output samples -/

/-- R92: position, the two gains, their ends, and that the SMOOTH gain never falls. -/
def Obligations.FadeGains : Prop :=
  (∀ q len : Nat, 0 < len → q ≤ len →
    (∀ p, p = q * 65536 / len →
      p ≤ 65536 ∧ (p = 65536 ↔ q = len) ∧
      gainTo .linear q len = p ∧
      gainTo .smooth q len = (3 * p ^ 2 * 65536 - 2 * p ^ 3) / 2 ^ 32 ∧ 2 * p ^ 3 ≤ 3 * p ^ 2 * 65536) ∧
    ∀ law, gainTo law q len ≤ 65536 ∧ gainFrom law q len = 65536 - gainTo law q len) ∧
  (∀ len : Nat, 0 < len → gainTo .smooth 0 len = 0 ∧ gainTo .smooth len len = 65536) ∧
  (∀ q q' len : Nat, 0 < len → q ≤ q' → q' ≤ len → gainTo .smooth q len ≤ gainTo .smooth q' len) ∧
  3 * 65536 ^ 2 * 65536 - 2 * 65536 ^ 3 = (2 : Nat) ^ 48

/-- R93: the output of a fading channel: the exact sum, its rounding, that it lies between the two contributions and needs
no saturation, and the "to" sample at q = L. -/
def Obligations.FadeMix : Prop :=
  ∀ (law : Law) (q len : Nat) (a b : Sample), 0 < len → q ≤ len →
    gainFrom law q len + gainTo law q len = 65536 ∧
    (mix a b (gainFrom law q len) (gainTo law q len)).toInt =
      Int.fdiv (a.toInt * gainFrom law q len + b.toInt * gainTo law q len + 32768) 65536 ∧
    min a.toInt b.toInt ≤ (mix a b (gainFrom law q len) (gainTo law q len)).toInt ∧
    (mix a b (gainFrom law q len) (gainTo law q len)).toInt ≤ max a.toInt b.toInt ∧
    mix a b (gainFrom law len len) (gainTo law len len) = b

/-- R8, R23, R31, R91, R94: an output sample period. Each fade counts on and completes at L; each channel's sample is
formed with the new gains; the cursors of LOCKED rings advance; the samples join the program frame. R29: a position yields
where its distance back from W lies in 1..H, and then the sample at its offset in the frame that holds it. R94: what a source
contributes; a slot NONE, silence and DARK contribute 0. -/
def Obligations.OutputSamplePeriod : Prop :=
  (∀ (r : Ring) (d : Nat), d = (r.W - r.R).toNat →
    (d = 0 ∨ r.H < d → r.yield = none) ∧
    (r.wf → 1 ≤ d → d ≤ r.H →
      ∃ y, r.yield = some y ∧ r.frames[(d - 1) / 24]? = some y.frame ∧ y.offset = 23 - (d - 1) % 24)) ∧
  (∀ (e : RouteEntry) (ya yb : Option Yield),
    contribution e ya yb .dark = 0#24 ∧
    (e.slotA = none ∨ ya = none → contribution e ya yb (.rig .A) = 0#24) ∧
    (e.slotB = none ∨ yb = none → contribution e ya yb (.rig .B) = 0#24) ∧
    ∀ (y : Yield) (n : Fin 64) (period : List Sample) (x : Sample),
      y.frame.audio[y.offset]? = some period → period[n.val]? = some x →
      (e.slotA = some n → ya = some y → contribution e ya yb (.rig .A) = x) ∧
      (e.slotB = some n → yb = some y → contribution e ya yb (.rig .B) = x)) ∧
  ∀ s : State, s.inReset = false → fadesOk s.toPart →
    ∃ t, exec .outputSamplePeriod s = .next t ∧
      t.clock.phase = (if s.clock.phase < 23 then s.clock.phase + 1 else 0) ∧ t.clock.frame = s.clock.frame ∧
      (∀ x, (t.ring.get x).R = (if (s.rx.get x).state = .locked then (s.ring.get x).R + 1#32 else (s.ring.get x).R) ∧
        (t.ring.get x).W = (s.ring.get x).W ∧ (t.ring.get x).V = (s.ring.get x).V ∧
        (t.ring.get x).H = (s.ring.get x).H ∧ (t.ring.get x).frames = (s.ring.get x).frames) ∧
      (∀ g e, (s.groups.get g).course = .steady e → (t.groups.get g).course = .steady e) ∧
      (∀ g f, (s.groups.get g).course = .fading f →
        (t.groups.get g).course = if f.q + 1 < f.len then .fading { f with q := f.q + 1 } else .steady f.kind.dst) ∧
      (∀ c : Fin 64, t.samples[c.val]? = some
        (if (s.tables.routes.get c).used then
          match (s.groups.get (s.tables.routes.get c).group).course with
          | .steady e => contribution (s.tables.routes.get c) (s.ring.get .A).yield (s.ring.get .B).yield e
          | .fading f =>
            mix (contribution (s.tables.routes.get c) (s.ring.get .A).yield (s.ring.get .B).yield f.kind.src)
              (contribution (s.tables.routes.get c) (s.ring.get .A).yield (s.ring.get .B).yield f.kind.dst)
              (gainFrom f.law (min (f.q + 1) f.len) f.len) (gainTo f.law (min (f.q + 1) f.len) f.len)
        else 0#24)) ∧
      ∀ f, s.program.out = some f → f.audio.length < 24 → t.program.out = some { f with audio := f.audio ++ [t.samples] }

/-- R91, R102, R107: at the period at which a fade reaches L its group is steady and raises DONE; every other group's course
stands; and a command all of whose bound groups are now steady on its target completes OK. FADE_COMPLETE sent alone, with
every other fade standing, is the model's choice (log 1). -/
def Obligations.FadeCompletes : Prop :=
  ∀ (g : Fin 16) (f : Fade) (s : State), s.inReset = false → (s.groups.get g).course = .fading f → f.len ≤ f.q + 1 →
    f.q ≤ f.len →
    ∃ t, exec (.fadeComplete g) s = .next t ∧ (t.groups.get g).course = .steady f.kind.dst ∧
      raised t.toPart (.groupMove g true f.kind.src f.kind.dst f.reason f.unaligned f.q0 f.len) ∧
      (∀ k, k ≠ g → (t.groups.get k).course = (s.groups.get k).course) ∧
      ∀ r id h req mask bound frame, (s.groups.get g).binding = some (.command r id false) →
        (s.port.get r).find id = some h →
        h.phase = .move ⟨req, some ⟨mask, .executed bound frame⟩, none, none⟩ → req.target = f.kind.dst →
        (∀ k, k ≠ g → (s.groups.get k).binding = some (.command r id false) →
          (s.groups.get k).course = .steady req.target) →
        (∀ k, (t.groups.get k).binding ≠ some (.command r id false)) ∧
          ∃ a ∈ (t.port.get r).responses,
            a.id = id ∧ a.tag = h.tag ∧ a.status = .ok ∧ a.results = be16 bound ++ be32 frame

/-! ## The decisions of the groups -/

/-- R90: no change, start, reversal and redirect, with the mirrored progress. R88, R89, R101: what a group does with the
requests it holds: the last one gives target and reason, a MANUAL group follows it, a FIXED group does not, and an AUTO
group applies failover and last resort to it first, and where these leave its course the way out of DARK and the return
policies, each of which replaces the request's target and reason. That R99 still counts where failover sets the present
destination (log 50), that a request for the present destination leaves the failed-over flag (log 49), that a request for an
unusable rig stands under STAY_ON_FAILED (log 61), and that a return asks for a usable home also under a hold of 0 (log 39),
are the model's choices. R96, R97, R99, R100: the automatic policy of an AUTO group without a request: failover, both last
resorts, the way out of DARK, and the two returns. The last part is the boundary of a SOLO unit at which a MANUAL group takes a
request that it holds. -/
def Obligations.AutomaticPolicy : Prop :=
  (∀ (c : Course) (len : Nat) (law : Law), turn c c.dest len law = none) ∧
  (∀ (x n : End) (len : Nat) (law : Law), x ≠ n →
    ∃ k, turn (.steady x) n len law = some (k, 0, len, law) ∧ k.src = x ∧ k.dst = n) ∧
  (∀ (f : Fade) (n : End) (len : Nat) (law : Law), n ≠ f.kind.dst →
    ∃ k, turn (.fading f) n len law = some (k, f.len - f.q, f.len, f.law) ∧ k.src = f.kind.dst ∧ k.dst = n) ∧
  (∀ (s : Machine.Part) (g : Fin 16) (r : GroupRec) (n : End) (reason : Reason) (k : FadeKind) (q len : Nat) (law : Law),
    turn r.course n (fadeLength (groupEntry s g).fade) (groupEntry s g).law = some (k, q, len, law) →
    ∃ f, (transition s g r n reason).begun = some f ∧ (transition s g r n reason).after.course = .fading f ∧
      f.kind = k ∧ f.q = q ∧ f.q0 = q ∧ f.len = len ∧ f.law = law ∧ f.reason = reason ∧
      (f.unaligned = true ↔ (k = .aToB ∨ k = .bToA) ∧ (groupEntry s g).requireAlign = true ∧ alignMet s = false) ∧
      (transition s g r n reason).after.holdTimer = 0 ∧
      ((transition s g r n reason).after.failedOver = true ↔
        (reason = .autoFailover ∨ reason = .autoReturn) ∧ n = .rig (groupEntry s g).home.other) ∧
      ((transition s g r n reason).after.darkByRequest = true ↔
        n = .dark ∧ (reason = .autoFailover ∨ reason = .autoReturn → r.darkByRequest = true))) ∧
  (∀ (s : Machine.Part) (g : Fin 16) (r : GroupRec) (e : GroupEntry), groupEntry s g = e → s.groups.get g = r →
    (e.mode = .fixed → (decide88 s g).begun = none ∧ (decide88 s g).after = { r with requests := [] }) ∧
    (e.mode = .manual →
      (r.requests = [] → decide88 s g = ⟨r, none⟩) ∧
      (∀ q, r.requests.getLast? = some q →
        decide88 s g = transition s g { r with requests := [] } q.dest q.reason)) ∧
    (e.mode = .auto →
      (r.requests = [] → decide88 s g = decideAuto s g r none) ∧
      (∀ q, r.requests.getLast? = some q →
        (q.dest = r.course.dest → decide88 s g = decideAuto s g { r with requests := [] } none) ∧
        (q.dest ≠ r.course.dest → ∀ leavesDark returns : Prop,
          (leavesDark ↔ r.course = .steady .dark ∧ r.startPending = false ∧ r.darkByRequest = false) →
          (returns ↔ r.course = .steady (.rig e.home.other) ∧ r.failedOver = true ∧ rigUsable s g e.home = true ∧
            (e.requireAlign = true → alignMet s = true) ∧
            ((e.policy = .returnHold ∧ e.hold.toNat ≤ min (r.holdTimer + 1) 65535) ∨
              (e.policy = .returnAtStop ∧ s.tracker.inForce.bothStopped = true))) →
          (usable s g q.dest = true →
            (leavesDark → rigUsable s g e.home = true →
              decide88 s g = transition s g { r with requests := [] } (.rig e.home) .autoReturn) ∧
            (leavesDark → rigUsable s g e.home = false →
              decide88 s g = transition s g { r with requests := [] } (.rig e.home.other) .autoFailover) ∧
            (returns → decide88 s g = transition s g { r with requests := [] } (.rig e.home) .autoReturn) ∧
            (¬leavesDark → ¬returns → decide88 s g = transition s g { r with requests := [] } q.dest q.reason)) ∧
          (∀ x n, q.dest = .rig x → rigUsable s g x = false →
            (rigUsable s g x.other = true ∧ n = .rig x.other) ∨
              (rigUsable s g x.other = false ∧ e.lastResort = .goDark ∧ n = .dark) →
            (n ≠ r.course.dest → decide88 s g = transition s g { r with requests := [] } n .autoFailover) ∧
            (n = r.course.dest → (decide88 s g).begun = none ∧ (decide88 s g).after = { r with
              requests := [],
              holdTimer := if r.failedOver = false then r.holdTimer
                else if rigUsable s g e.home = true then min (r.holdTimer + 1) 65535 else 0 })) ∧
          (∀ x, q.dest = .rig x → rigUsable s g x = false → rigUsable s g x.other = false → e.lastResort = .stayOnFailed →
            decide88 s g = transition s g { r with requests := [] } q.dest q.reason))))) ∧
  (∀ (s : State) (g : Fin 16) (r : GroupRec) (e : GroupEntry), groupEntry s.toPart g = e → r.startPending = false →
    (∀ x, r.course.dest = .rig x → rigUsable s.toPart g x = false → rigUsable s.toPart g x.other = true →
      decideAuto s.toPart g r none = transition s.toPart g r (.rig x.other) .autoFailover) ∧
    (∀ x, r.course.dest = .rig x → rigUsable s.toPart g x = false → rigUsable s.toPart g x.other = false →
      (e.lastResort = .goDark → decideAuto s.toPart g r none = transition s.toPart g r .dark .autoFailover) ∧
      (e.lastResort = .stayOnFailed → (decideAuto s.toPart g r none).begun = none ∧
        (decideAuto s.toPart g r none).after.course = r.course)) ∧
    (r.course = .steady .dark → r.darkByRequest = false → rigUsable s.toPart g e.home = true →
      decideAuto s.toPart g r none = transition s.toPart g r (.rig e.home) .autoReturn) ∧
    (r.course = .steady .dark → r.darkByRequest = false → rigUsable s.toPart g e.home = false →
      rigUsable s.toPart g e.home.other = true →
      decideAuto s.toPart g r none = transition s.toPart g r (.rig e.home.other) .autoFailover) ∧
    (r.course = .steady .dark → r.darkByRequest = true → (decideAuto s.toPart g r none).begun = none) ∧
    (r.course = .steady (.rig e.home.other) → r.failedOver = true → rigUsable s.toPart g e.home = true →
      rigUsable s.toPart g e.home.other = true → (e.requireAlign = true → alignMet s.toPart = true) →
      ((e.policy = .returnHold ∧ e.hold.toNat ≤ min (r.holdTimer + 1) 65535) ∨
        (e.policy = .returnAtStop ∧ s.tracker.inForce.bothStopped = true)) →
      ∃ f, (decideAuto s.toPart g r none).begun = some f ∧ f.kind.dst = .rig e.home ∧ f.reason = .autoReturn ∧
        (decideAuto s.toPart g r none).after.failedOver = false) ∧
    (r.course = .steady (.rig e.home.other) → r.failedOver = true → rigUsable s.toPart g e.home.other = true →
      e.policy = .stay → (decideAuto s.toPart g r none).begun = none)) ∧
  ∀ (lines : Lines) (ord : Order) (s : State) (g : Fin 16) (e : GroupEntry) (q : Request) (x : End),
    noResetDue s.toPart → s.gang.role = .solo → s.writes = [] → s.takeover.done = true → s.gang.presses = [] →
    s.gang.pending.get g = none → (∀ r, (s.port.get r).slots = []) → lines.btnA = false → lines.btnB = false →
    groupEntry s.toPart g = e → (s.groups.get g).requests.getLast? = some q → (s.groups.get g).course = .steady x →
    ∃ t, exec (.localFrameBoundary lines ord) s = .next t ∧ (t.groups.get g).requests = [] ∧
      ((s.groups.get g).startPending = true ∨ e.mode = .fixed ∨ (e.mode = .manual ∧ q.dest = x) →
        (t.groups.get g).course = .steady x) ∧
      ((s.groups.get g).startPending = false → e.mode = .manual → q.dest ≠ x →
        ∃ f, (t.groups.get g).course = .fading f ∧ f.kind.src = x ∧ f.kind.dst = q.dest ∧ f.q = 0 ∧
          f.len = fadeLength e.fade ∧ f.law = e.law ∧ f.reason = q.reason)

/-- R99: at a boundary at which the return-hold timer reaches the hold, the group begins its fade home where alignment
allows, and counts on where it does not. The rig it plays is usable (R96 comes first) and no request waits (R88). On a leader
in UP the transition of a matched group queues its MOVE (R116), and a command that bound the group elsewhere is superseded
(R103). RETURN_HOLD_EXPIRY sent alone, with the other groups' decisions left out, is the model's choice (log 1). -/
def Obligations.ReturnHold : Prop :=
  ∀ (g : Fin 16) (s : State) (e : GroupEntry) (r : GroupRec), s.inReset = false → groupEntry s.toPart g = e →
    s.groups.get g = r → e.mode = .auto → e.policy = .returnHold → r.failedOver = true → r.startPending = false →
    isLed s.toPart g = false → rigUsable s.toPart g e.home = true → rigUsable s.toPart g e.home.other = true →
    r.requests = [] → e.hold.toNat ≤ min (r.holdTimer + 1) 65535 → r.course = .steady (.rig e.home.other) →
    ((e.requireAlign = true → alignMet s.toPart = true) →
      ∃ t f, exec (.returnHoldExpiry g) s = .next t ∧ (t.groups.get g).course = .fading f ∧
        f.kind.src = .rig e.home.other ∧ f.kind.dst = .rig e.home ∧ f.q = 0 ∧ f.len = fadeLength e.fade ∧
        f.law = e.law ∧ f.reason = .autoReturn ∧ (t.groups.get g).failedOver = false ∧
        (t.groups.get g).holdTimer = 0 ∧
        raised t.toPart (.groupMove g false (.rig e.home.other) (.rig e.home) .autoReturn f.unaligned 0 f.len) ∧
        (isLeading s.toPart g = true →
          ⟨g, .rig e.home.other, .rig e.home, e.law, f.len, min 48 f.len, s.clock.frame + 2#32, f.unaligned, false,
            false⟩ ∈ t.gang.moves) ∧
        (isLeading s.toPart g = false → t.gang.moves = s.gang.moves) ∧
        ∀ p id h req mask bound frame, r.binding = some (.command p id false) → (s.port.get p).find id = some h →
          h.phase = .move ⟨req, some ⟨mask, .executed bound frame⟩, none, none⟩ → req.target ≠ .rig e.home →
          ⟨id, h.tag, h.code, .superseded, 0, be16 bound ++ be32 frame ++ [BitVec.ofNat 8 g.val]⟩ ∈
              (t.port.get p).responses ∧
            ∀ k, (t.groups.get k).binding ≠ some (.command p id false)) ∧
    (e.requireAlign = true → alignMet s.toPart = false →
      exec (.returnHoldExpiry g) s = .next { s with groups := s.groups.set g { r with holdTimer := min (r.holdTimer + 1) 65535 } })

/-! ## The receivers and their rings -/

/-- R11: line activity comes and goes, for a receiver that is not LOCKED. In VERIFYING the loss drops the message that was
being gathered. While the RESET line holds the part only the condition of the line is noted (log 21). -/
def Obligations.LineActivity : Prop :=
  ∀ (x : Rig) (s : State),
    (s.inReset = false → (s.rx.get x).state = .noSignal →
      exec (.lineActivityPresent x) s =
        .next { s with rx := s.rx.set x { s.rx.get x with activity := true, state := .hunting } }) ∧
    (s.inReset = false → (s.rx.get x).state = .hunting ∨ (s.rx.get x).state = .noSignal →
      exec (.lineActivityLost x) s =
        .next { s with rx := s.rx.set x { s.rx.get x with activity := false, state := .noSignal } }) ∧
    (s.inReset = false → (s.rx.get x).state = .verifying →
      ∃ t, exec (.lineActivityLost x) s = .next t ∧
        t.rx = s.rx.set x { s.rx.get x with activity := false, state := .noSignal, verifyCount := 0 } ∧
        ∀ bytes, (s.port.get x).assembly = .assembling bytes →
          (t.port.get x).assembly = .idle ∧ (t.port.get x).refReason = .broken ∧
            (t.port.get x).refTag = bytes.headD 0xFF#8) ∧
    (s.inReset = true →
      exec (.lineActivityPresent x) s = .next { s with rx := s.rx.set x { s.rx.get x with activity := true } } ∧
      exec (.lineActivityLost x) s = .next { s with rx := s.rx.set x { s.rx.get x with activity := false } })

/-- R11, R16, R19, R25, R26, R27, R34, R43, R55: what leaving LOCKED does, by loss of activity or by the second missing sync
word in a row. -/
def Obligations.LossOfLock : Prop :=
  ∀ (x : Rig) (s : State), s.inReset = false → (s.rx.get x).state = .locked →
    ∀ c st act, ((c = .lineActivityLost x ∧ st = .noSignal ∧ act = false) ∨
        (c = .missingSyncWord x ∧ (s.rx.get x).missed = true ∧ st = .hunting ∧ act = (s.rx.get x).activity)) →
      ∃ t, exec c s = .next t ∧
        t.rx.get x = { s.rx.get x with
          activity := act, state := st, lastSeq := none, prev := none, selfFault := false, returnPause := false,
          missed := false } ∧
        (t.ring.get x).W = (s.ring.get x).W ∧ (t.ring.get x).V = (s.ring.get x).W ∧ (t.ring.get x).R = (s.ring.get x).W ∧
        (t.ring.get x).H = 0 ∧ (∀ i, (t.ring.get x).written i = false) ∧
        t.tracker.history = [] ∧
        t.health.get x = { s.health.get x with
          arrival := none, beat := none, beatAge := 0, jumpRun := 0, silenceRun := 0, stall := false, jump := false } ∧
        (∀ bytes, (s.port.get x).assembly = .assembling bytes →
          (t.port.get x).assembly = .idle ∧ (t.port.get x).refReason = .broken) ∧
        t.clock.qual.get (rigSource x) = 0 ∧
        (s.clock.selected ≠ rigSource x → t.clock.selected = s.clock.selected ∧ noNotice s.toPart t.toPart) ∧
        (s.clock.selected = rigSource x →
          t.clock.selected = bestSource s.tables.setup.reference (s.clock.qual.set (rigSource x) 0) ∧
          raised t.toPart (.clock (rigSource x) t.clock.selected true))

/-- R12, R13: HUNTING finds the first sync word; VERIFYING returns to HUNTING at a bad or missing frame, and counts good
frames in sequence until the third. -/
def Obligations.Verifying : Prop :=
  (∀ (l : List Byte) (n : Nat), huntSync l = some n ↔
    l[n]? = some 0xE7#8 ∧ l[n + 1]? = some 0x1D#8 ∧ ∀ m < n, ¬(l[m]? = some 0xE7#8 ∧ l[m + 1]? = some 0x1D#8)) ∧
  ∀ (x : Rig) (s : State), s.inReset = false →
    ((s.rx.get x).state = .hunting →
      exec (.syncWordFound x) s =
        .next { s with rx := s.rx.set x { s.rx.get x with state := .verifying, verifyCount := 0 } }) ∧
    ((s.rx.get x).state = .verifying →
      (∃ t, exec (.verifyFailed x) s = .next t ∧
        t.rx = s.rx.set x { s.rx.get x with state := .hunting, verifyCount := 0, lastSeq := none } ∧
        t.ring = s.ring ∧
        ∀ bytes, (s.port.get x).assembly = .assembling bytes →
          (t.port.get x).assembly = .idle ∧ (t.port.get x).refReason = .broken) ∧
      (∀ f n, n < 3 →
        n = (if (s.rx.get x).verifyCount = 0 ∨ (s.rx.get x).lastSeq.map (fun k => k + 1#16) = some f.seq then
          (s.rx.get x).verifyCount + 1 else 1) →
        ∃ p : Machine.Part, exec (.verifyGoodFrame x f) s = .next (s.withPart (handChunk x f.lane p)) ∧
          p = { s.toPart with rx := s.rx.set x { s.rx.get x with verifyCount := n, lastSeq := some f.seq } }))

/-- R13, R14, R22, R30, R35, R43, R55: the third good frame in sequence locks the receiver. The frame is written as the first
after a relock: the cursors are placed by the fill target, the history is emptied and the references start afresh. Its chunk
is handed once, though R13 and R14 each hand it (log 29). -/
def Obligations.ReceiverLocks : Prop :=
  ∀ (x : Rig) (f : ForwardFrame) (s : State), s.inReset = false → (s.rx.get x).state = .verifying →
    (s.rx.get x).verifyCount = 2 → (s.rx.get x).lastSeq.map (fun k => k + 1#16) = some f.seq →
    ∃ p : Machine.Part, exec (.verifyGoodFrame x f) s = .next (s.withPart (handChunk x f.lane p)) ∧
      (p.rx.get x).state = .locked ∧ (p.rx.get x).firstLock = true ∧ (p.rx.get x).missed = false ∧
      (p.rx.get x).lastSeq = some f.seq ∧ (p.rx.get x).score = (s.rx.get x).score - 1 ∧
      (p.rx.get x).counters.good = (s.rx.get x).counters.good + 1#32 ∧
      (p.rx.get x).counters.resyncs =
        (if (s.rx.get x).firstLock then (s.rx.get x).counters.resyncs + 1#32 else (s.rx.get x).counters.resyncs) ∧
      (p.ring.get x).W = (s.ring.get x).W + 24#32 ∧ (p.ring.get x).V = (s.ring.get x).W ∧
      (p.ring.get x).R = (s.ring.get x).W + 24#32 - s.tables.setup.fill.setWidth 32 ∧
      p.tracker.history = [] ∧
      (p.health.get x).arrival = some ⟨f.stamp, frameCue f, readTransport f.transport, 0⟩ ∧
      (p.health.get x).beat = some f.beat ∧ (p.health.get x).beatAge = 0 ∧ (p.health.get x).jump = false ∧
      (p.health.get x).stall = false ∧ p.port = s.port ∧ p.clock = s.clock

/-- R14, R20, R22, R30, R33, R55: a good frame in sequence. It is written REAL at W, with a skip slip where the fill stands
above 3048, the Health Watch judges it as a REAL arrival (TimersEnd states the tests), and its chunk is handed on. -/
def Obligations.GoodFrame : Prop :=
  ∀ (x : Rig) (f : ForwardFrame) (s : State), s.inReset = false → (s.rx.get x).state = .locked →
    (s.rx.get x).lastSeq.map (fun k => k + 1#16) = some f.seq →
    ∃ p : Machine.Part, exec (.goodFrame x f) s = .next (s.withPart (handChunk x f.lane p)) ∧
      p.rx.get x = { s.rx.get x with
        missed := false
        lastSeq := some f.seq
        prev := some ⟨.real, f.stamp, frameCue f, readTransport f.transport, some f.audio⟩
        selfFault := f.flags.getLsbD 0
        returnPause := f.flags.getLsbD 1
        score := (s.rx.get x).score - 1
        counters := { (s.rx.get x).counters with
          good := (s.rx.get x).counters.good + 1#32
          skipSlips := if 3048 < (s.ring.get x).fill then (s.rx.get x).counters.skipSlips + 1#32
            else (s.rx.get x).counters.skipSlips } } ∧
      p.ring.get x = {
        W := (s.ring.get x).W + 24#32
        R := if 3048 < (s.ring.get x).fill then (s.ring.get x).R + 24#32 else (s.ring.get x).R
        V := (s.ring.get x).V
        H := min ((s.ring.get x).H + 24) 3072
        frames := ⟨(s.ring.get x).W, f.stamp, frameCue f, readTransport f.transport, .real, f.audio⟩ ::
          (s.ring.get x).frames.take 127 } ∧
      (p.health.get x) =
        Health.arrive (if 3048 < (s.ring.get x).fill then { s.health.get x with slipWindow := 2000 } else s.health.get x)
          ⟨.real, f.stamp, frameCue f, readTransport f.transport, f.audio, false, some f.beat⟩ (s.tables.watch.get x) ∧
      (p.health.get x).slipWindow = (if 3048 < (s.ring.get x).fill then 2000 else (s.health.get x).slipWindow) ∧
      (p.health.get x).arrival = some ⟨f.stamp, frameCue f, readTransport f.transport, 0⟩ ∧
      (p.health.get x).beat = some f.beat ∧
      (p.health.get x).beatAge = (if (s.health.get x).beat = some f.beat then (s.health.get x).beatAge else 0) ∧
      p.port = s.port ∧ p.tracker = s.tracker ∧ p.clock = s.clock

/-- R15, R16, R21, R22, R55: a bad-check frame, or the first missing sync word, in LOCKED. The stand-in is one repeat of the
last REAL audio, then silence; the message being gathered is dropped. -/
def Obligations.BadCheckFrame : Prop :=
  ∀ (x : Rig) (s : State) (last : Half) (p : PrevFrame) (origin : Origin) (audio : Audio), s.inReset = false →
    (s.rx.get x).state = .locked → (s.rx.get x).lastSeq = some last → (s.rx.get x).prev = some p →
    ((p.origin = .real ∧ p.audio = some audio ∧ origin = .concealed) ∨
      (p.origin ≠ .real ∧ audio = silentAudio ∧ origin = .filled)) →
    ∀ c mark, ((c = .badCheckFrame x ∧ mark = false) ∨
        (c = .missingSyncWord x ∧ (s.rx.get x).missed = false ∧ mark = true)) →
      ∃ t, exec c s = .next t ∧ (t.rx.get x).state = .locked ∧ (t.rx.get x).missed = mark ∧
        (t.rx.get x).lastSeq = some (last + 1#16) ∧
        (t.rx.get x).prev = some ⟨origin, p.stamp + 24#32, p.cue, p.transport, none⟩ ∧
        (t.rx.get x).selfFault = (s.rx.get x).selfFault ∧ (t.rx.get x).returnPause = (s.rx.get x).returnPause ∧
        (t.rx.get x).score = min ((s.rx.get x).score + 8) 255 ∧
        (t.rx.get x).counters.bad = (s.rx.get x).counters.bad + 1#32 ∧
        (t.rx.get x).counters.concealed =
          (if p.origin = .real then (s.rx.get x).counters.concealed + 1#32 else (s.rx.get x).counters.concealed) ∧
        (t.rx.get x).counters.good = (s.rx.get x).counters.good ∧
        (t.ring.get x).W = (s.ring.get x).W + 24#32 ∧
        (t.ring.get x).frames.head? = some ⟨(s.ring.get x).W, p.stamp + 24#32, p.cue, p.transport, origin, audio⟩ ∧
        (t.health.get x).arrival =
          (s.health.get x).arrival.map (fun a => { a with count := min (a.count + 1) 65535 }) ∧
        (t.health.get x).stall = (s.health.get x).stall ∧ (t.health.get x).jump = (s.health.get x).jump ∧
        (t.health.get x).silenceRun = (s.health.get x).silenceRun ∧
        ∀ bytes, (s.port.get x).assembly = .assembling bytes →
          (t.port.get x).assembly = .idle ∧ (t.port.get x).refReason = .broken

/-- R17, R18, R21, R22, R34, R35: a frame that shows a gap. A gap of 1 to 8 is filled with silence before the frame is taken;
a greater one is a flush and a relock on the frame. The chunk is handed after the loss. -/
def Obligations.SequenceGapAndResync : Prop :=
  ∀ (x : Rig) (f : ForwardFrame) (s : State) (last : Half) (p : PrevFrame) (k : Nat), s.inReset = false →
    (s.rx.get x).state = .locked → (s.rx.get x).lastSeq = some last → (s.rx.get x).prev = some p →
    k = (f.seq - last - 1#16).toNat →
    (1 ≤ k → k ≤ 8 →
      ∃ q : Machine.Part, exec (.sequenceGap x f) s = .next (s.withPart (handChunk x f.lane q)) ∧
        (q.rx.get x).state = .locked ∧ (q.rx.get x).lastSeq = some f.seq ∧
        (q.rx.get x).score = min ((s.rx.get x).score + 8 * k) 255 - 1 ∧
        (q.rx.get x).counters.lost = (s.rx.get x).counters.lost + BitVec.ofNat 32 k ∧
        (q.rx.get x).counters.good = (s.rx.get x).counters.good + 1#32 ∧
        (q.rx.get x).counters.concealed = (s.rx.get x).counters.concealed ∧
        (q.ring.get x).W = (s.ring.get x).W + BitVec.ofNat 32 (24 * (k + 1)) ∧
        (∀ i, i < k → (q.ring.get x).frames[k - i]? =
          some ⟨(s.ring.get x).W + BitVec.ofNat 32 (24 * i), p.stamp + BitVec.ofNat 32 (24 * (i + 1)), p.cue, p.transport,
            .filled, silentAudio⟩) ∧
        (q.ring.get x).frames.head? =
          some ⟨(s.ring.get x).W + BitVec.ofNat 32 (24 * k), f.stamp, frameCue f, readTransport f.transport, .real,
            f.audio⟩ ∧
        ∀ bytes, (s.port.get x).assembly = .assembling bytes →
          (q.port.get x).assembly = .idle ∧ (q.port.get x).refReason = .broken) ∧
    (9 ≤ k →
      ∃ q : Machine.Part, exec (.resync x f) s = .next (s.withPart (handChunk x f.lane q)) ∧
        (q.rx.get x).state = .locked ∧ (q.rx.get x).lastSeq = some f.seq ∧
        (q.rx.get x).score = min ((s.rx.get x).score + 8) 255 - 1 ∧
        (q.rx.get x).counters.lost = (s.rx.get x).counters.lost ∧
        (q.rx.get x).counters.resyncs = (s.rx.get x).counters.resyncs + 1#32 ∧
        (q.rx.get x).counters.good = (s.rx.get x).counters.good + 1#32 ∧
        (q.ring.get x).W = (s.ring.get x).W + 24#32 ∧ (q.ring.get x).V = (s.ring.get x).W ∧ (q.ring.get x).H = 24 ∧
        (q.ring.get x).R = (s.ring.get x).W + 24#32 - s.tables.setup.fill.setWidth 32 ∧
        q.tracker.history = [] ∧
        ∀ bytes, (s.port.get x).assembly = .assembling bytes →
          (q.port.get x).assembly = .idle ∧ (q.port.get x).refReason = .broken)

/-- R30, R31, R35: no write brings a fill above 3072, and after a relock the fill is exactly the fill target. -/
def Obligations.WritesKeepTheFillBounded : Prop :=
  ∀ (r : Ring) (rep : Report) (D : Half),
    (rep.relock = false → r.fill ≤ 3072 → (r.take rep D).1.fill ≤ 3072 ∧
      (r.fill ≤ 3048 → (r.take rep D).1.fill = r.fill + 24 ∧ (r.take rep D).2 = false) ∧
      (3048 < r.fill → (r.take rep D).1.fill = r.fill ∧ (r.take rep D).2 = true)) ∧
    (rep.relock = true → (r.take rep D).1.fill = D.toNat ∧ (r.take rep D).1.V = r.W)

/-! ## Messages: assembly, intake and judgement -/

/-- R5, R125, R126: what each handed item does to the assembly of a port. `pay` is the chunk's payload. -/
def Obligations.Assembly : Prop :=
  ∀ (x : Rig) (c : List Byte) (s : Machine.Part) (bytes pay : List Byte) (k : Nat), (byteAt c 0).toNat = k →
    pay = (c.drop 2).take (byteAt c 1).toNat →
    (k = 0 → handChunk x c s = s) ∧
    (k = 5 → handChunk x c s = setAssembly x .idle s) ∧
    ((5 < k ∨ (1 ≤ k ∧ k ≤ 4 ∧ 30 < (byteAt c 1).toNat)) →
      ((s.port.get x).assembly = .idle → handChunk x c s = refuseMessage x 0xFF#8 .broken s) ∧
      ((s.port.get x).assembly = .assembling bytes →
        handChunk x c s = setAssembly x .idle (refuseMessage x (bytes.headD 0xFF#8) .broken s)) ∧
      ((s.port.get x).assembly = .skipping → handChunk x c s = setAssembly x .idle s)) ∧
    (1 ≤ k → k ≤ 4 → (byteAt c 1).toNat ≤ 30 →
      ((s.port.get x).assembly = .idle →
        (k = 1 → handChunk x c s = setAssembly x (.assembling pay) s) ∧
        (k = 2 ∨ k = 3 → handChunk x c s = refuseMessage x 0xFF#8 .orphan s) ∧
        (k = 4 → handChunk x c s = intake x pay (setAssembly x .idle s))) ∧
      ((s.port.get x).assembly = .assembling bytes →
        (k = 1 → handChunk x c s =
          setAssembly x (.assembling pay) (refuseMessage x (bytes.headD 0xFF#8) .broken s)) ∧
        (k = 2 → (bytes ++ pay).length ≤ 240 → handChunk x c s = setAssembly x (.assembling (bytes ++ pay)) s) ∧
        (k = 2 → 240 < (bytes ++ pay).length →
          handChunk x c s = setAssembly x .skipping (refuseMessage x (bytes.headD 0xFF#8) .tooLong s)) ∧
        (k = 3 → (bytes ++ pay).length ≤ 240 →
          handChunk x c s = intake x (bytes ++ pay) (setAssembly x .idle s)) ∧
        (k = 3 → 240 < (bytes ++ pay).length →
          handChunk x c s = setAssembly x .idle (refuseMessage x (bytes.headD 0xFF#8) .tooLong s)) ∧
        (k = 4 → handChunk x c s =
          intake x pay (setAssembly x .idle (refuseMessage x (bytes.headD 0xFF#8) .broken s)))) ∧
      ((s.port.get x).assembly = .skipping →
        (k = 1 → handChunk x c s = setAssembly x (.assembling pay) s) ∧
        (k = 2 → handChunk x c s = s) ∧
        (k = 3 → handChunk x c s = setAssembly x .idle s) ∧
        (k = 4 → handChunk x c s = intake x pay (setAssembly x .idle s)))) ∧
    ((s.port.get x).assembly = .assembling bytes →
      handLoss x s = setAssembly x .idle (refuseMessage x (bytes.headD 0xFF#8) .broken s)) ∧
    ((s.port.get x).assembly = .idle ∨ (s.port.get x).assembly = .skipping → handLoss x s = s)

/-- R126, R127, R128, for a message of any code, by the row that carries it (UNKNOWN_COMMAND for a code outside R130's table):
too short or of tag 0xFF it is refused; with no general slot free it is refused, but for a CANCEL that finds the reserved
slot free; otherwise its command holds one slot more. -/
def Obligations.Intake : Prop :=
  ∀ (r : Rig) (tag code : Byte) (body : List Byte) (i : Instr) (s : State), s.inReset = false →
    ((∃ c : Code, code = c.byte ∧ i = rowOf c r tag body) ∨
      (code ∉ commandCodes ∧ i = .unknownCommand r tag code body)) →
    (body = [] ∨ tag = 0xFF#8 →
      exec i s = .next { s with port := s.port.set r { s.port.get r with refTag := tag, refReason := .broken } }) ∧
    (body ≠ [] → tag ≠ 0xFF#8 → (s.port.get r).free = 0 →
      (code ≠ 0x43#8 ∨ ∃ h ∈ (s.port.get r).slots, h.reserved = true) →
      exec i s = .next { s with port := s.port.set r { s.port.get r with refTag := tag, refReason := .noSlot } }) ∧
    (body ≠ [] → tag ≠ 0xFF#8 → (∀ h ∈ (s.port.get r).slots, h.id < s.nextId) →
      (0 < (s.port.get r).free ∨ (code = 0x43#8 ∧ ∀ h ∈ (s.port.get r).slots, h.reserved = false)) →
      ∃ t, exec i s = .next t ∧ t.nextId = s.nextId + 1 ∧
        (t.port.get r).slots.length = (s.port.get r).slots.length + 1 ∧
        (t.port.get r).refTag = (s.port.get r).refTag ∧ (t.port.get r).refReason = (s.port.get r).refReason ∧
        ∃ h ∈ (t.port.get r).slots, h.id = s.nextId ∧ h.tag = tag ∧ h.code = code ∧
          (h.reserved = true ↔ (s.port.get r).free = 0))

/-- R130, R139, R140: the checks in their order, for each row of the table of command codes, and a code outside it; and
R140's table of lengths, lock levels and commands that a save makes BUSY. R75, R79, R144, R147 to R149, R153 to R159: which
parameter values are out of range, in the order of the checks, and the index that a BAD_PARAM names (rangeChecks). -/
def Obligations.JudgementOrder : Prop :=
  (∀ params : List Byte,
    (∀ c ∈ [Code.identify, .readStatus, .readAlign, .restoreDefaults, .save, .reset],
      c.lengthOk params = true ↔ params.length = 0) ∧
    (∀ c ∈ [Code.readWatch, .setLock, .bypass], c.lengthOk params = true ↔ params.length = 1) ∧
    (∀ c ∈ [Code.readHealth, .readCounts, .readRoute, .readGroup, .setMode, .markRig, .cancel],
      c.lengthOk params = true ↔ params.length = 2) ∧
    (Code.moveGroup.lengthOk params = true ↔ params.length = 4) ∧
    (Code.writeSetup.lengthOk params = true ↔ params.length = 8) ∧
    (Code.writeWatch.lengthOk params = true ↔ params.length = 12) ∧
    (Code.writeGroup.lengthOk params = true ↔ params.length = 13) ∧
    ∀ count : Nat, count = (byteAt params 1).toNat →
      (Code.writeRoute.lengthOk params = true ↔
        2 ≤ params.length ∧ (1 ≤ count → count ≤ 64 → params.length = 2 + 3 * count))) ∧
  (∀ (c : Code) (level : LockLevel), c.takenAt level = true ↔
    (c ∈ [Code.writeRoute, .writeGroup, .writeWatch, .writeSetup, .restoreDefaults, .bypass, .reset] → level = .opened) ∧
      (c = .setMode → level ≠ .frozen)) ∧
  (∀ c : Code, c.waitsForStore = true ↔
    c ∈ [Code.writeRoute, .writeGroup, .writeWatch, .writeSetup, .restoreDefaults, .save]) ∧
  (∀ (c : Code) (params : List Byte) (cond : Option (Byte × Half)),
    (∀ index, readCommand c params cond = .error index ↔ firstFails (rangeChecks c params cond) index) ∧
    ((∃ cmd, readCommand c params cond = .ok cmd) ↔ ∀ x ∈ rangeChecks c params cond, x.2)) ∧
  ∀ (r : Rig) (tag : Byte) (s : State),
    (∀ (code : Byte) (body : List Byte), canTake s.toPart r tag → body ≠ [] → code ∉ commandCodes →
      exec (.unknownCommand r tag code body) s =
        .next (s.withPart (answeredAs s.toPart r tag code .unknownCommand 0 []))) ∧
    ∀ (c : Code) (params : List Byte) (n : Byte), canTake s.toPart r tag → params.length < 256 →
      (n.toNat ≠ params.length → n.toNat + 3 ≠ params.length →
        exec (rowOf c r tag (n :: params)) s =
          .next (s.withPart (answeredAs s.toPart r tag c.byte .badLength 0 []))) ∧
      (n.toNat + 3 = params.length → c ≠ .moveGroup →
        exec (rowOf c r tag (n :: params)) s =
          .next (s.withPart (answeredAs s.toPart r tag c.byte .badLength 0 []))) ∧
      (n.toNat = params.length → c.lengthOk params = false →
        exec (rowOf c r tag (n :: params)) s =
          .next (s.withPart (answeredAs s.toPart r tag c.byte .badLength 0 []))) ∧
      (n.toNat = params.length → c.lengthOk params = true → c.takenAt s.lock.level = false →
        exec (rowOf c r tag (n :: params)) s =
          .next (s.withPart (answeredAs s.toPart r tag c.byte .locked 0 []))) ∧
      (n.toNat = params.length → c.lengthOk params = true → c.takenAt s.lock.level = true → c.waitsForStore = true →
        s.store.save = .saving ∨ s.store.reload = true →
        exec (rowOf c r tag (n :: params)) s =
          .next (s.withPart (answeredAs s.toPart r tag c.byte .busy 0 []))) ∧
      (∀ index, n.toNat = params.length → c.lengthOk params = true → c.takenAt s.lock.level = true →
        (c.waitsForStore = false ∨ (s.store.save ≠ .saving ∧ s.store.reload = false)) →
        readCommand c params none = .error index →
        exec (rowOf c r tag (n :: params)) s =
          .next (s.withPart (answeredAs s.toPart r tag c.byte .badParam index []))) ∧
      (∀ (flags hi lo : Byte) (index : Nat), c = .moveGroup → n = 4#8 → params.length = 4 →
        readCommand c params (some (flags, hi ++ lo)) = .error index →
        exec (rowOf c r tag (n :: (params ++ [flags, hi, lo]))) s =
          .next (s.withPart (answeredAs s.toPart r tag c.byte .badParam index [])))

/-! ## The management commands -/

/-- R141, R142, R143, R144, R145: the eight reads complete at once with what the part holds; the command holds its slot while
it is answered. IDENTIFY's revision letter is some capital and its serial number is free (log 7); the bytes of the other reads
are those of WrittenRecordsReadBack. A READ_COUNTS with its clear flag (R22) then zeroes the seven counters, and a
READ_HEALTH (R71) takes the causes of its clear mask out of the sticky set. -/
def Obligations.Reads : Prop :=
  ∀ (r x : Rig) (tag first count mask : Byte) (s : State), canTake s.toPart r tag →
    exec (.identify r tag [0#8]) s = .next (s.withPart
          (answeredAs s.toPart r tag 0x01#8 .ok 0 (identifyBytes s.toPart))) ∧
    identifyBytes s.toPart =
      [0x0C#8, 0x31#8, 0x01#8, 0xE0#8, Config.revision, BitVec.ofNat 8 s.gang.role.code] ++ be64 Config.serial ∧
    0x41 ≤ Config.revision.toNat ∧ Config.revision.toNat ≤ 0x5A ∧
    exec (.readStatus r tag [0#8]) s = .next (s.withPart
          (answeredAs s.toPart r tag 0x02#8 .ok 0 (statusBytes (heldAs s.toPart r tag 0x02#8 .taken) r))) ∧
    exec (.readHealth r tag [2#8, BitVec.ofNat 8 (rigCode x), 0#8]) s = .next (s.withPart
          (answeredAs s.toPart r tag 0x03#8 .ok 0 (healthBytes s.toPart x))) ∧
    exec (.readCounts r tag [2#8, BitVec.ofNat 8 (rigCode x), 0#8]) s = .next (s.withPart
          (answeredAs s.toPart r tag 0x04#8 .ok 0 (countBytes s.toPart x))) ∧
    (first.toNat < 64 → 1 ≤ count.toNat → first.toNat + count.toNat ≤ 64 →
      exec (.readRoute r tag [2#8, first, count]) s = .next (s.withPart
          (answeredAs s.toPart r tag 0x05#8 .ok 0 (routeBytes s.toPart first.toNat count.toNat)))) ∧
    (first.toNat < 16 → 1 ≤ count.toNat → first.toNat + count.toNat ≤ 16 →
      exec (.readGroup r tag [2#8, first, count]) s = .next (s.withPart
          (answeredAs s.toPart r tag 0x06#8 .ok 0 (groupBytes s.toPart first.toNat count.toNat)))) ∧
    exec (.readWatch r tag [1#8, BitVec.ofNat 8 (rigCode x)]) s = .next (s.withPart
          (answeredAs s.toPart r tag 0x07#8 .ok 0 (watchBytes s.toPart x))) ∧
    exec (.readAlign r tag [0#8]) s = .next (s.withPart
          (answeredAs s.toPart r tag 0x08#8 .ok 0 (alignBytes s.toPart))) ∧
    (∃ t, exec (.readCounts r tag [2#8, BitVec.ofNat 8 (rigCode x), 1#8]) s = .next t ∧
      (t.port.get r).responses.getLast? = some ⟨s.nextId, tag, 0x04#8, .ok, 0, countBytes s.toPart x⟩ ∧
      t.rx = s.rx.set x { s.rx.get x with counters := ⟨0#32, 0#32, 0#32, 0#32, 0#32, 0#32, 0#32⟩ }) ∧
    ∃ t, exec (.readHealth r tag [2#8, BitVec.ofNat 8 (rigCode x), mask]) s = .next t ∧
      (t.port.get r).responses.getLast? = some ⟨s.nextId, tag, 0x03#8, .ok, 0, healthBytes s.toPart x⟩ ∧
      t.health = s.health.set x { s.health.get x with sticky := (s.health.get x).sticky &&& ~~~mask }

/-- R73, R76, R80, R85, R146, R147, R148: each of the five table writes that passes its checks joins the pending writes at the
back, and its command waits. -/
def Obligations.WritesArePending : Prop :=
  ∀ (r : Rig) (tag n : Byte) (params : List Byte) (act : WriteAct) (s : State) (t : Machine.Part) (c : Code) (i : Instr),
    canTake s.toPart r tag → n.toNat = params.length → c.lengthOk params = true →
    ((c = .writeRoute ∧ i = .writeRoute r tag (n :: params)) ∨ (c = .writeGroup ∧ i = .writeGroup r tag (n :: params)) ∨
      (c = .writeWatch ∧ i = .writeWatch r tag (n :: params)) ∨ (c = .writeSetup ∧ i = .writeSetup r tag (n :: params)) ∨
      (c = .restoreDefaults ∧ i = .restoreDefaults r tag (n :: params))) →
    s.lock.level = .opened → s.store.save ≠ .saving → s.store.reload = false →
    readCommand c params none = .ok (.write act) →
    t = { heldAs s.toPart r tag c.byte .pendingWrite with writes := s.writes ++ [⟨some (r, s.nextId), act⟩] } →
    (∀ x k e, act = .watchCause x k e → exec i s = .next (s.withPart (t))) ∧
    (∀ x l, act = .watchSlots x l → exec i s = .next (s.withPart (t))) ∧
    (∀ e, act = .setup e → exec i s = .next (s.withPart (t))) ∧
    (act = .defaults → (∀ g, (s.groups.get g).course.isFading = false) → exec i s = .next (s.withPart (t))) ∧
    (∀ g e, act = .group g e → (s.groups.get g).course.isFading = false →
      (e.mode = .fixed → (s.groups.get g).startPending = true ∨ (s.groups.get g).course = .steady (.rig e.home)) →
      exec i s = .next (s.withPart (t))) ∧
    (∀ first es, act = .route first es →
      (∀ k : Fin 64, first ≤ k.val → k.val < first + es.length →
        (s.groups.get (s.tables.routes.get k).group).course.isFading = false) →
      (∀ e ∈ es, (s.groups.get e.group).course.isFading = false) →
      exec i s = .next (s.withPart (t)))

/-- R76, R80, R147, R148: the own checks of the writes that fail: a fading group, be it the group in force of a channel or its
new one, and a group made FIXED on a rig it does not play. -/
def Obligations.WritesThatAreRefused : Prop :=
  ∀ (r : Rig) (tag : Byte) (params : List Byte) (act : WriteAct) (s : State), canTake s.toPart r tag →
    s.lock.level = .opened → s.store.save ≠ .saving → s.store.reload = false →
    (params.length = 13 → readCommand .writeGroup params none = .ok (.write act) → ∀ g e, act = .group g e →
      ((s.groups.get g).course.isFading = true →
        exec (.writeGroup r tag (13#8 :: params)) s = .next (s.withPart
          (answeredAs s.toPart r tag 0x21#8 .busy 0 []))) ∧
      ((s.groups.get g).course.isFading = false → e.mode = .fixed → (s.groups.get g).startPending = false →
        (s.groups.get g).course ≠ .steady (.rig e.home) →
        exec (.writeGroup r tag (13#8 :: params)) s = .next (s.withPart
          (answeredAs s.toPart r tag 0x21#8 .badTarget 0 [])))) ∧
    (∀ n : Byte, n.toNat = params.length → Code.writeRoute.lengthOk params = true →
      readCommand .writeRoute params none = .ok (.write act) → ∀ first es, act = .route first es →
      (∃ e ∈ es, (s.groups.get e.group).course.isFading = true) ∨
        (∃ k : Fin 64, first ≤ k.val ∧ k.val < first + es.length ∧
          (s.groups.get (s.tables.routes.get k).group).course.isFading = true) →
      exec (.writeRoute r tag (n :: params)) s = .next (s.withPart
          (answeredAs s.toPart r tag 0x20#8 .busy 0 []))) ∧
    ((∃ g, (s.groups.get g).course.isFading = true) →
      exec (.restoreDefaults r tag [0#8]) s = .next (s.withPart
          (answeredAs s.toPart r tag 0x24#8 .busy 0 [])))

/-- R153, R159: SET_MODE and BYPASS when they are taken. -/
def Obligations.SetModeAndBypassAreTaken : Prop :=
  ∀ (r : Rig) (tag : Byte) (s : State), canTake s.toPart r tag →
    (∀ (g : Fin 16) (b : Byte) (mode : Mode), readMode b = some mode → s.lock.level ≠ .frozen →
      ((groupEntry s.toPart g).isProtected = true →
        exec (.setMode r tag [2#8, BitVec.ofNat 8 g.val, b]) s = .next (s.withPart
          (answeredAs s.toPart r tag 0x41#8 .isProtected 0 []))) ∧
      ((groupEntry s.toPart g).isProtected = false → mode = .fixed → (s.groups.get g).startPending = false →
        (s.groups.get g).course ≠ .steady (.rig (groupEntry s.toPart g).home) →
        exec (.setMode r tag [2#8, BitVec.ofNat 8 g.val, b]) s = .next (s.withPart
          (answeredAs s.toPart r tag 0x41#8 .badTarget 0 []))) ∧
      ((groupEntry s.toPart g).isProtected = false →
        (mode = .fixed → (s.groups.get g).startPending = true ∨
          (s.groups.get g).course = .steady (.rig (groupEntry s.toPart g).home)) →
        exec (.setMode r tag [2#8, BitVec.ofNat 8 g.val, b]) s = .next (s.withPart
          ({ heldAs s.toPart r tag 0x41#8 .pendingWrite with
            writes := s.writes ++ [⟨some (r, s.nextId), .setMode g mode⟩] })))) ∧
    (∀ release : Bool, s.lock.level = .opened →
      exec (.bypass r tag [1#8, if release then 1#8 else 0#8]) s = .next (s.withPart
          ({ heldAs s.toPart r tag 0x46#8 .pendingWrite with
          writes := s.writes ++ [⟨some (r, s.nextId), .bypass !release⟩] })))

/-- R149, R150, R151, R119: a MOVE_GROUP is taken, without a condition part or with one. The groups that a partner leads are
its proposed part, the others its local part, which is checked first (log 18). A failed check (a to e, or a and b with a
condition part) ends the command with the lowest group that fails; with no free ref it ends with BUSY; otherwise the local
part is held for its boundary, or waits with a count of 0, and the proposed part is proposed under the lowest free ref. The
last part says what the checks a to e are: the first in their order that some masked group fails, and the lowest such group. -/
def Obligations.MoveGroupIsTaken : Prop :=
  (∀ (r : Rig) (tag : Byte) (params body : List Byte) (mask led : Half) (req asked : MoveReq)
    (check : Option (Status × Fin 16)) (start : Stage) (s : State), canTake s.toPart r tag →
    params.length = 4 → readCommand .moveGroup params none = .ok (.moveGroup mask req) →
    (∀ g, inMask led g = true ↔ inMask mask g = true ∧ isLed s.toPart g = true) →
    ((body = 4#8 :: params ∧ asked = req ∧ check = checkAll s.toPart (mask &&& ~~~led) req ∧ start = .held) ∨
      (∃ (flags hi lo : Byte) (c : Cond), flags.toNat < 16 ∧ c = readCond flags (hi ++ lo) ∧
        body = 4#8 :: (params ++ [flags, hi, lo]) ∧ asked = { req with cond := some c } ∧
        check = checkAB s.toPart (mask &&& ~~~led) req ∧ start = .waiting 0)) →
    (∀ st g, check = some (st, g) →
      exec (.moveGroup r tag body) s = .next (s.withPart
        (answeredAs s.toPart r tag 0x40#8 st 0 [BitVec.ofNat 8 g.val]))) ∧
    (check = none →
      (led = 0#16 → exec (.moveGroup r tag body) s = .next (s.withPart
        (heldAs s.toPart r tag 0x40#8 (.move ⟨asked, some ⟨mask, start⟩, none, none⟩)))) ∧
      (led ≠ 0#16 → freeRef s.toPart = none → exec (.moveGroup r tag body) s = .next (s.withPart
        (answeredAs s.toPart r tag 0x40#8 .busy 0 [0xFF#8]))) ∧
      (∀ ref, led ≠ 0#16 → freeRef s.toPart = some ref →
        ∃ t, exec (.moveGroup r tag body) s = .next t ∧
          t.port = (heldAs s.toPart r tag 0x40#8 (.move ⟨asked,
            if mask &&& ~~~led = 0#16 then none else some ⟨mask &&& ~~~led, start⟩,
            some ⟨led, .proposed ref⟩, none⟩)).port ∧
          (s.gang.records.get ref).awaiting = false ∧ (∀ k, k < ref → (s.gang.records.get k).awaiting = true) ∧
          (t.gang.records.get ref).awaiting = true ∧
          (t.gang.records.get ref).round = !(s.gang.records.get ref).round ∧
          (t.gang.records.get ref).serves = some (r, s.nextId) ∧
          ∃ p, t.gang.proposes.getLast? = some p ∧ p.ref.val = ref.val ∧ p.round = !(s.gang.records.get ref).round ∧
            p.mask = led ∧ p.target = req.target ∧ p.force = req.force ∧ p.cond = asked.cond))) ∧
  ∀ (s : Machine.Part) (mask : Half) (req : MoveReq) (order : List Status),
    order = [.badTarget, .isProtected, .busy, .unusable, .notAligned] →
    (checkAll s mask req = none ↔ ∀ st ∈ order, ∀ g, inMask mask g = true → ¬failsCheck s req st g) ∧
    ∀ st g,
      (checkAll s mask req = some (st, g) ↔
        ∃ before after, order = before ++ st :: after ∧ inMask mask g = true ∧ failsCheck s req st g ∧
          (∀ k, k < g → inMask mask k = true → ¬failsCheck s req st k) ∧
          ∀ st' ∈ before, ∀ k, inMask mask k = true → ¬failsCheck s req st' k) ∧
      (checkAB s mask req = some (st, g) ↔
        (st = .badTarget ∨ st = .isProtected) ∧ checkAll s mask req = some (st, g)) ∧
      (checkAB s mask req = none → checkCDE s mask req = checkAll s mask req)

/-- R154, R157, R158, R160: MARK_RIG, SET_LOCK, SAVE and RESET. -/
def Obligations.MarkLockSaveReset : Prop :=
  ∀ (r x : Rig) (tag : Byte) (s : State), canTake s.toPart r tag →
    (∀ fault : Bool,
      exec (.markRig r tag [2#8, BitVec.ofNat 8 (rigCode x), if fault then 1#8 else 0#8]) s = .next (s.withPart
          ({ answeredAs s.toPart r tag 0x42#8 .ok 0 [if fault then 1#8 else 0#8] with
          health := s.health.set x { s.health.get x with mark := fault } }))) ∧
    (∀ (b : Byte) (asked : LockLevel), readLevel b = some asked →
      ((asked = s.lock.level) →
        exec (.setLock r tag [1#8, b]) s = .next (s.withPart (answeredAs s.toPart r tag 0x44#8 .ok 0 [b]))) ∧
      (((s.lock.level = .frozen ∧ asked ≠ .frozen) ∨
          (s.lock.level = .guarded ∧ asked = .opened ∧ s.lock.key = true)) →
        exec (.setLock r tag [1#8, b]) s = .next (s.withPart
          (answeredAs s.toPart r tag 0x44#8 .locked 0 [BitVec.ofNat 8 s.lock.level.code]))) ∧
      (((s.lock.level = .opened ∧ asked ≠ .opened) ∨ (s.lock.level = .guarded ∧ asked = .frozen) ∨
          (s.lock.level = .guarded ∧ asked = .opened ∧ s.lock.key = false)) →
        ∃ t, exec (.setLock r tag [1#8, b]) s = .next t ∧ t.lock = { s.lock with level := asked } ∧
          raised t.toPart (.lock s.lock.level asked false) ∧
          (t.port.get r).responses.getLast? = some ⟨s.nextId, tag, 0x44#8, .ok, 0, [b]⟩)) ∧
    (s.store.save ≠ .saving → s.store.reload = false →
      exec (.save r tag [0#8]) s = .next (s.withPart
          ({ heldAs s.toPart r tag 0x45#8 .saving with
          store := { s.store with save := .saving, snapshot := some s.tables } }))) ∧
    (s.lock.level = .opened →
      exec (.reset r tag [0#8]) s = .next (s.withPart (answeredAs s.toPart r tag 0x47#8 .ok 0 [])))

/-- R155, R156: a CANCEL of scope TAG, WAITING or ALL completes the commands of its port that it selects with CANCELLED (pending
writes, SET_MODEs and BYPASSes, and MOVE_GROUPs; under WAITING those not yet executed, log 17), takes the writes out of the
queue and unbinds the groups; every other command stands, and every other pending write keeps its place; its own response
comes last with the count. R119: of a split command that it selects, a PROPOSE never sent leaves the queue and its ref is free;
one that was sent is withdrawn by a PROPOSE with the round flipped and an empty mask, its other fields as they were (log 51,
the model's choice), and the ref stays awaiting without a command. -/
def Obligations.CancelAll : Prop :=
  ∀ (r : Rig) (tag scope named : Byte) (selected : Held → Bool) (s : State), canTake s.toPart r tag →
    ((s.port.get r).slots.map fun h => h.id).Nodup →
    ((scope = 0#8 ∧ named ≠ 0xFF#8 ∧ selected = fun h => h.tag == named &&
        match h.phase with
        | .pendingWrite | .move _ => true
        | .taken | .saving | .done => false) ∨
      (scope = 1#8 ∧ selected = fun h =>
        match h.phase with
        | .move m => !m.executed
        | .pendingWrite | .taken | .saving | .done => false) ∨
      (scope = 2#8 ∧ selected = fun h =>
        match h.phase with
        | .pendingWrite | .move _ => true
        | .taken | .saving | .done => false)) →
    (∀ m own mask st, m.own = own → m.gang = none → m.first = none → own = some ⟨mask, st⟩ →
      (MoveCmd.executed m = true ↔ (∃ bound frame, st = .executed bound frame) ∨ ∃ results, st = .ended results)) ∧
    ∃ t, exec (.cancel r tag [2#8, scope, named]) s = .next t ∧
      (t.port.get r).responses.getLast? =
        some ⟨s.nextId, tag, 0x43#8, .ok, 0, [BitVec.ofNat 8 ((s.port.get r).slots.filter selected).length]⟩ ∧
      t.writes = s.writes.filter (fun w => !(s.port.get r).slots.any fun h =>
        selected h && h.phase == .pendingWrite && w.owner == some (r, h.id)) ∧
      ∀ h ∈ (s.port.get r).slots,
        (selected h = true →
          { h with phase := .done } ∈ (t.port.get r).slots ∧
          ⟨h.id, h.tag, h.code, .cancelled, 0, []⟩ ∈ (t.port.get r).responses ∧
          (h.phase = .pendingWrite → ∀ w ∈ t.writes, w.owner ≠ some (r, h.id)) ∧
          ((∃ m, h.phase = .move m) → ∀ g b, (t.groups.get g).binding ≠ some (.command r h.id b)) ∧
          ∀ (m : MoveCmd) (mask : Half) (k : Fin 8), h.phase = .move m → m.gang = some ⟨mask, .proposed k⟩ →
            (∀ (j : Fin 8) p, (s.gang.records.get j).message = some p → p.ref.val = j.val) →
            (∀ h' ∈ (s.port.get r).slots, ∀ m' mask', h'.phase = .move m' → m'.gang = some ⟨mask', .proposed k⟩ →
              h'.id = h.id) →
            ((s.gang.records.get k).sentAt = none →
              (t.gang.records.get k).awaiting = false ∧ (t.gang.records.get k).serves = none ∧
              (t.gang.records.get k).round = (s.gang.records.get k).round ∧
              ∀ x ∈ t.gang.proposes, x.ref.val ≠ k.val) ∧
            (∀ sent p p', (s.gang.records.get k).sentAt = some sent → (s.gang.records.get k).message = some p →
              p' = { p with round := !(s.gang.records.get k).round, mask := 0#16 } →
              t.gang.records.get k = ⟨true, !(s.gang.records.get k).round, none, none, some p'⟩ ∧
              p' ∈ t.gang.proposes ∧ ∀ x ∈ t.gang.proposes, x.ref.val = k.val → x = p')) ∧
        (selected h = false → h ∈ (t.port.get r).slots)

/-- R128, R131, R132, R134: a return frame has been sent. The last chunk of a response frees its slot, and that of an OK
RESET response requests the command reset; a message not yet finished stays in send. R132, R133, R135: the chunk that a lane
chooses for a frame, in its order: CANCEL after a reset, EMPTY while paused, the next chunk of the message in send, the oldest
response, the oldest notice with its gap flag, EMPTY; and the return frame that carries it. R131, R136, R137: the bytes of a
response record, with the status codes, and of the notice records. -/
def Obligations.ReturnFrameSent : Prop :=
  (∀ a : Response, a.bytes = [a.tag, a.code, BitVec.ofNat 8 a.status.code, BitVec.ofNat 8 a.index,
    BitVec.ofNat 8 a.results.length] ++ a.results) ∧
  [Status.ok, .cancelled, .superseded, .timeout, .unknownCommand, .badLength, .badParam, .badTarget, .locked, .isProtected,
    .busy, .unusable, .notAligned, .storeFailed].map Status.code = [0, 1, 2, 3, 4, 5, 6, 7, 8, 9, 10, 11, 12, 13] ∧
  (∀ (frame : Word) (gap : Bool) (record : Nat → List Byte → List Byte),
    (record = fun kind body => [0xFF#8, BitVec.ofNat 8 kind, BitVec.ofNat 8 (bit gap)] ++ be32 frame ++ body) →
    (∀ g isDone src dst reason unaligned q0 len,
      Notice.bytes ⟨frame, .groupMove g isDone src dst reason unaligned q0 len⟩ gap = record 1
        ([BitVec.ofNat 8 g.val, BitVec.ofNat 8 (bit isDone), BitVec.ofNat 8 (endCode src), BitVec.ofNat 8 (endCode dst),
          BitVec.ofNat 8 reason.code, BitVec.ofNat 8 (bit unaligned)] ++
          be16 (BitVec.ofNat 16 q0) ++ be16 (BitVec.ofNat 16 len))) ∧
    (∀ x old new pending confirmed clearing sticky,
      Notice.bytes ⟨frame, .rigHealth x old new pending confirmed clearing sticky⟩ gap = record 2
        [BitVec.ofNat 8 (rigCode x), BitVec.ofNat 8 old.code, BitVec.ofNat 8 new.code, pending, confirmed, clearing,
          sticky]) ∧
    (∀ old new stable corr residual,
      Notice.bytes ⟨frame, .align old new stable (some (corr, residual))⟩ gap = record 3
        ([BitVec.ofNat 8 old.code, BitVec.ofNat 8 new.code, BitVec.ofNat 8 new.whyCode,
          BitVec.ofNat 8 (bit stable.isSome + 2)] ++ be32 (BitVec.ofInt 32 (stable.getD 0)) ++
          [BitVec.ofNat 8 (rigCode corr.side)] ++ be32 (BitVec.ofInt 32 corr.m) ++ be32 (BitVec.ofInt 32 corr.applied) ++
          be32 (BitVec.ofInt 32 residual)) ∧
      Notice.bytes ⟨frame, .align old new stable none⟩ gap = record 3
        ([BitVec.ofNat 8 old.code, BitVec.ofNat 8 new.code, BitVec.ofNat 8 new.whyCode,
          BitVec.ofNat 8 (bit stable.isSome)] ++ be32 (BitVec.ofInt 32 (stable.getD 0)) ++ List.replicate 13 0#8)) ∧
    (∀ old new loss, Notice.bytes ⟨frame, .clock old new loss⟩ gap = record 4
      [BitVec.ofNat 8 (sourceCode old), BitVec.ofNat 8 (sourceCode new), BitVec.ofNat 8 (bit loss)]) ∧
    (∀ old new byKey, Notice.bytes ⟨frame, .lock old new byKey⟩ gap = record 5
      [BitVec.ofNat 8 old.code, BitVec.ofNat 8 new.code, BitVec.ofNat 8 (bit byKey)]) ∧
    (∀ role old new, Notice.bytes ⟨frame, .gang role old new⟩ gap = record 6
      [BitVec.ofNat 8 role.code, BitVec.ofNat 8 old.code, BitVec.ofNat 8 new.code]) ∧
    (∀ event valid, Notice.bytes ⟨frame, .store event valid⟩ gap = record 7
      [BitVec.ofNat 8 event, BitVec.ofNat 8 (bit valid)]) ∧
    ∀ energized byCommand, Notice.bytes ⟨frame, .relay energized byCommand⟩ gap = record 8
      [BitVec.ofNat 8 (bit energized), BitVec.ofNat 8 (bit byCommand)]) ∧
  ([End.rig .A, .rig .B, .dark].map endCode = [0, 1, 2] ∧
    [Reason.autoFailover, .autoReturn, .command, .button, .gang, .start].map Reason.code = [0, 1, 2, 3, 4, 5]) ∧
  (∀ (r : Rig) (s : State) (frame : List Byte), s.inReset = false → (s.port.get r).out = some frame →
    ((s.port.get r).lane.inSend = none →
      exec (.returnFrameSent r) s = .next { s with port := s.port.set r { s.port.get r with out := none } }) ∧
    (∀ m, (s.port.get r).lane.inSend = some m → m.sent < m.bytes.length →
      exec (.returnFrameSent r) s = .next { s with port := s.port.set r { s.port.get r with out := none } }) ∧
    (∀ m id resets, (s.port.get r).lane.inSend = some m → 0 < m.sent → m.bytes.length ≤ m.sent →
      m.kind = .response id resets →
      ∃ t, exec (.returnFrameSent r) s = .next t ∧ t.resetRequested = (s.resetRequested || resets) ∧
        (t.port.get r).lane.inSend = none ∧ (t.port.get r).slots = (s.port.get r).slots.filter (fun h => h.id != id) ∧
        (t.port.get r).out = none) ∧
    (∀ m gap, (s.port.get r).lane.inSend = some m → 0 < m.sent → m.bytes.length ≤ m.sent → m.kind = .notice gap →
      exec (.returnFrameSent r) s = .next { s with port := (s.port.set r
        { s.port.get r with out := none, lane := { (s.port.get r).lane with inSend := none } }) })) ∧
  (∀ (l : Lane) (pause : Bool) (q : List Response),
    (l.cancelFirst = true →
      l.send pause q = (5#8 :: List.replicate 31 0#8, { l with cancelFirst := false }, q)) ∧
    (l.cancelFirst = false → pause = true → l.send pause q = (List.replicate 32 0#8, l, q)) ∧
    (l.cancelFirst = false → pause = false →
      (∀ m rest type, l.inSend = some m → rest = m.bytes.drop m.sent → rest ≠ [] →
        type = (if m.sent = 0 then (if rest.length ≤ 30 then 4#8 else 1#8)
          else if rest.length ≤ 30 then 3#8 else 2#8) →
        l.send pause q =
          ([type, BitVec.ofNat 8 (min 30 rest.length)] ++ rest.take 30 ++ List.replicate (30 - rest.length) 0#8,
            { l with inSend := some { m with sent := m.sent + min 30 rest.length } }, q)) ∧
      (∀ a more, l.inSend = none → q = a :: more →
        (l.send pause q).2.1.inSend =
          some ⟨.response a.id (a.code == 0x47#8 && a.status == .ok), a.bytes, min 30 a.bytes.length⟩ ∧
        (l.send pause q).2.1.notices = l.notices ∧ (l.send pause q).2.2 = more ∧
        ((l.send pause q).1.drop 2).take (min 30 a.bytes.length) = a.bytes.take 30) ∧
      (∀ n more, l.inSend = none → q = [] → l.notices = n :: more →
        l.send pause q =
          ([4#8, BitVec.ofNat 8 (n.bytes l.gapPending).length] ++ n.bytes l.gapPending ++
              List.replicate (30 - (n.bytes l.gapPending).length) 0#8,
            { l with notices := more, gapPending := false,
                     inSend := some ⟨.notice l.gapPending, n.bytes l.gapPending, (n.bytes l.gapPending).length⟩ }, [])) ∧
      (l.inSend = none → q = [] → l.notices = [] → l.send pause q = (List.replicate 32 0#8, l, [])))) ∧
  ∀ (r : Rig) (s : Machine.Part) (c : List Byte × Lane × List Response),
    c = (s.port.get r).lane.send (s.rx.get r).returnPause (s.port.get r).responses →
    ((beginReturn r s).port.get r).lane = c.2.1 ∧ ((beginReturn r s).port.get r).responses = c.2.2 ∧
      ∃ summary, summary.length = 24 ∧ ((beginReturn r s).port.get r).out =
        some (sealFrame (be16 (s.port.get r).seq ++ summary ++ [0#8, 0#8, 0#8, 0#8] ++ c.1))

/-! ## Events that name one part of the work (log 1) -/

/-- R58 to R61, R170: the timers' ends: BEAT_LOST and SILENCE become active, STAMP_JUMP and SLIP inactive, and the ALARM pulse
ends, each sent alone (log 1). R57, R58, R60: what a REAL arrival does to the activities of STAMP_STALL and STAMP_JUMP, the jump run and the silence
run, each against a reference that is present or absent. -/
def Obligations.TimersEnd : Prop :=
  (∀ (x : Rig) (s : State), s.inReset = false →
    ((s.rx.get x).state = .locked →
      (s.health.get x).beatAge + 1 = ((s.tables.watch.get x).causes.get Cause.beatLost.idx).p2.toNat →
      ∃ t, exec (.beatTimeout x) s = .next t ∧
        t.health = s.health.set x { s.health.get x with beatAge := (s.health.get x).beatAge + 1 } ∧
        activity (t.rx.get x) (t.tables.watch.get x) (t.health.get x) .beatLost = true) ∧
    ((s.rx.get x).state = .locked →
      (s.health.get x).silenceRun + 1 = ((s.tables.watch.get x).causes.get Cause.silence.idx).p2.toNat →
      ∃ t, exec (.silenceTimeReached x) s = .next t ∧
        t.health = s.health.set x { s.health.get x with silenceRun := (s.health.get x).silenceRun + 1 } ∧
        activity (t.rx.get x) (t.tables.watch.get x) (t.health.get x) .silence = true) ∧
    ((s.health.get x).jump = true → (s.health.get x).jumpRun = 7 →
      exec (.jumpRunEnd x) s =
        .next { s with health := s.health.set x { s.health.get x with jump := false, jumpRun := 0 } }) ∧
    ((s.health.get x).slipWindow = 1 →
      exec (.slipWindowExpiry x) s =
        .next { s with health := s.health.set x { s.health.get x with slipWindow := 0 } }) ∧
    (s.panel.pulse = 1 →
      ∃ t, exec .alarmPulseEnd s = .next t ∧ t.panel = { s.panel with pulse := 0 } ∧
        (s.tables.setup.alarm = .pulse → alarm s.toPart = true ∧ alarm t.toPart = false))) ∧
  ∀ (h : Health) (rep : Report) (w : WatchRig), rep.origin = .real → rep.relock = false →
    (rep.transport ≠ .play →
      (h.arrive rep w).stall = false ∧ (h.arrive rep w).jump = false ∧ (h.arrive rep w).jumpRun = 0 ∧
        (h.arrive rep w).silenceRun = 0) ∧
    (rep.transport = .play →
      (h.arrival = none → (h.arrive rep w).stall = false ∧ (h.arrive rep w).jump = h.jump ∧
        (h.arrive rep w).jumpRun = h.jumpRun) ∧
      (∀ ref d normal, h.arrival = some ref → d = sdiff rep.stamp ref.stamp → normal = 24 * ((ref.count : Int) + 1) →
        (d = 0 → (h.arrive rep w).stall = true) ∧
        (d = normal → (h.arrive rep w).stall = false) ∧
        (d ≠ 0 → d ≠ normal → (h.arrive rep w).stall = h.stall) ∧
        (ref.cue ≠ rep.cue → (h.arrive rep w).jump = false ∧ (h.arrive rep w).jumpRun = 0) ∧
        (ref.cue = rep.cue → ref.transport ≠ .play →
          (h.arrive rep w).jump = h.jump ∧ (h.arrive rep w).jumpRun = h.jumpRun) ∧
        (ref.cue = rep.cue → ref.transport = .play →
          (d = 0 → (h.arrive rep w).jump = h.jump ∧ (h.arrive rep w).jumpRun = 0) ∧
          (d ≠ 0 → d ≠ normal → (h.arrive rep w).jump = true ∧ (h.arrive rep w).jumpRun = 0) ∧
          (d = normal → h.jump = false → (h.arrive rep w).jump = false ∧ (h.arrive rep w).jumpRun = h.jumpRun) ∧
          (d = normal → h.jump = true → h.jumpRun < 7 →
            (h.arrive rep w).jump = true ∧ (h.arrive rep w).jumpRun = h.jumpRun + 1) ∧
          (d = normal → h.jump = true → h.jumpRun = 7 →
            (h.arrive rep w).jump = false ∧ (h.arrive rep w).jumpRun = 0))) ∧
      (∀ limit : Nat, limit = (w.causes.get Cause.silence.idx).p1.toNat →
        (0 < limit →
          (∀ period ∈ rep.audio, ∀ n ∈ w.slots, (period.getD n.val 0#24).toInt.natAbs < limit) →
          (h.arrive rep w).silenceRun = min (h.silenceRun + 1) 65535) ∧
        (limit = 0 ∨ (∃ period ∈ rep.audio, ∃ n ∈ w.slots, limit ≤ (period.getD n.val 0#24).toInt.natAbs) →
          (h.arrive rep w).silenceRun = 0)))

/-- R105, R106, R168: takeover. It happens when both rigs are start-ready, or one has been for the start hold; every
start-pending group that no partner leads takes its start state, and the relay follows the bypass-engaged mark. TAKEOVER sent
alone is the model's choice (log 1), and so is the place of the RELAY notice behind the START notices of the same instant
(log 4). R168, R169, R170: the panel outputs of every state: the relay, the two tallies (those of a follower's group before
takeover are log 52's choice), and ALARM in both its modes. -/
def Obligations.Takeover : Prop :=
  (∀ s : Machine.Part,
    (relay s = true ↔ s.takeover.done = true ∧ s.panel.bypass = false) ∧
    (∀ x, tally s x = true ↔ ∃ g, (s.groups.get g).course = .steady (.rig x) ∨
      ∃ f, (s.groups.get g).course = .fading f ∧
        ((x = .A ∧ (f.kind = .bToA ∨ f.kind = .darkToA)) ∨ (x = .B ∧ (f.kind = .aToB ∨ f.kind = .darkToB)))) ∧
    (s.inReset = true → alarm s = false) ∧
    (s.inReset = false → s.tables.setup.alarm = .pulse → (alarm s = true ↔ 0 < s.panel.pulse)) ∧
    (s.inReset = false → s.tables.setup.alarm = .level →
      (alarm s = true ↔ (∃ g, (groupEntry s g).mode = .auto ∧ (s.groups.get g).failedOver = true) ∨
        (∃ x, (s.health.get x).health ≠ .good) ∨ (s.takeover.done = true ∧ relay s = false)))) ∧
  ∀ s : State, s.inReset = false → s.takeover.done = false →
    ((triggerReady s.toPart .A = true ∧ triggerReady s.toPart .B = true) ∨
      ∃ x, triggerReady s.toPart x = true ∧ s.tables.setup.startHold.toNat ≤ min (s.takeover.ready.get x + 1) 20000) →
    ∃ t, exec .takeover s = .next t ∧ t.takeover = ⟨true, ⟨0, 0⟩⟩ ∧ relay t.toPart = !s.panel.bypass ∧
      (s.panel.bypass = false → raised t.toPart (.relay true false)) ∧
      ∀ (g : Fin 16) (e : GroupEntry), groupEntry s.toPart g = e →
        ((s.groups.get g).startPending = false → (t.groups.get g).course = (s.groups.get g).course) ∧
        ((s.groups.get g).startPending = true →
          (t.groups.get g).startPending = false ∧ (t.groups.get g).requests = [] ∧
          (isLed s.toPart g = true → (t.groups.get g).course = .steady .dark) ∧
          (isLed s.toPart g = false →
            (e.mode = .fixed → (t.groups.get g).course = .steady (.rig e.home)) ∧
            (e.mode ≠ .fixed → startReady s.toPart g e.home = true →
              (t.groups.get g).course = .steady (.rig e.home) ∧ (t.groups.get g).failedOver = false) ∧
            (e.mode ≠ .fixed → startReady s.toPart g e.home = false → startReady s.toPart g e.home.other = true →
              (t.groups.get g).course = .steady (.rig e.home.other) ∧
                ((t.groups.get g).failedOver = true ↔ e.mode = .auto)) ∧
            (e.mode ≠ .fixed → startReady s.toPart g e.home = false → startReady s.toPart g e.home.other = false →
              (t.groups.get g).course = .steady .dark)))

/-- R104, R171: the 40th boundary of an asserted button. A press hands a BUTTON request to each group that qualifies and that
no partner leads, and on a follower in UP queues a button proposal for its matched set (R119), also before its
takeover (log 53, the model's choice); a button whose taken mark is
set gives none. BUTTON_PRESS sent alone at a run of 39 is the model's choice (log 1). -/
def Obligations.ButtonPress : Prop :=
  ∀ (x : Rig) (s : State), s.inReset = false → (s.panel.buttons.get x).run = 39 →
    ((s.panel.buttons.get x).taken = true →
      exec (.buttonPress x) s =
        .next { s with panel := { s.panel with buttons := s.panel.buttons.set x ⟨40, true⟩ } }) ∧
    ((s.panel.buttons.get x).taken = false →
      ∃ t, exec (.buttonPress x) s = .next t ∧ t.panel = { s.panel with buttons := s.panel.buttons.set x ⟨40, true⟩ } ∧
        (s.gang.role ≠ .follower ∨ s.gang.state ≠ .up ∨ s.gang.matched = 0#16 → t.gang = s.gang) ∧
        (s.gang.role = .follower → s.gang.state = .up → s.gang.matched ≠ 0#16 →
          t.gang.btnRound = !s.gang.btnRound ∧
            ⟨8, !s.gang.btnRound, s.gang.matched, .rig x, false, none⟩ ∈ t.gang.proposes ∧
            (∀ p ∈ t.gang.proposes, p.ref = 8 → p = ⟨8, !s.gang.btnRound, s.gang.matched, .rig x, false, none⟩) ∧
            t.gang.proposes.filter (fun p => p.ref != 8) = s.gang.proposes.filter (fun p => p.ref != 8)) ∧
        ∀ g, (t.groups.get g).requests = (s.groups.get g).requests ++
          (if isLed s.toPart g = false ∧ (groupEntry s.toPart g).isProtected = false ∧
              (groupEntry s.toPart g).mode ≠ .fixed ∧ (s.groups.get g).startPending = false ∧
              rigUsable s.toPart g x = true ∧ (s.groups.get g).course.dest ≠ .rig x then
            [⟨.rig x, .button, none⟩] else []))

/-- R89, R102, R150, R151: a MOVE_GROUP executes: a request that carries its binding to every masked group, and the binding
set on those not yet steady on the target; with none to bind it completes OK. A failed check ends it with the failing group.
MOVE_GROUP_EXECUTE sent alone is the model's choice (log 1); it acts also on the part that a follower has reclaimed from a
lost link (R123) while that part is still held or waits, though the command's own part has executed (log 23). R120: a
proposal that a leader holds executes in the same way, or its board entry becomes ANSWERED and the ANSWER is queued; an
unmatched group is BAD_TARGET before checks a to e (log 35). R89, R103: at a group's decision a bound command is superseded
where the group goes elsewhere than its target, or where a later request of the same boundary replaced the command's own
(log 14 says which requests replace which). R151: what the four named conditions are. The checks are those of
MoveGroupIsTaken. -/
def Obligations.MoveGroupExecutes : Prop :=
  (∀ (s : Machine.Part) (mask : Half) (target : End) (c : Cond), condHolds s mask target c = true ↔
    (c.targetUsable = true → ∀ g x, inMask mask g = true → target = .rig x → rigUsable s g x = true) ∧
    (c.aligned = true → s.tracker.inForce.aligned = true) ∧
    (c.targetStopped = true → ∀ x, target = .rig x → s.tracker.inForce.transport.get x = some .stop) ∧
    (c.bothStopped = true → s.tracker.inForce.bothStopped = true)) ∧
  (∀ (r : Rig) (tag : Byte) (id : Nat) (h : Held) (req : MoveReq) (mask : Half) (st : Stage) (s : State),
    s.inReset = false → (moveIds s.toPart r tag).head? = some id → (s.port.get r).find id = some h →
    h.phase = .move ⟨req, some ⟨mask, st⟩, none, none⟩ → (∀ g, inMask mask g = true → isLed s.toPart g = false) →
    ((st = .held ∧ checkAll s.toPart mask req = none) ∨
        (∃ n c, st = .waiting n ∧ req.cond = some c ∧ checkAll s.toPart mask req = none ∧
          condHolds s.toPart mask req.target c = true) →
      ∃ t, exec (.moveGroupExecute (.command r tag)) s = .next t ∧
        (∀ g, (t.groups.get g).course = (s.groups.get g).course ∧
          (inMask mask g = false → (t.groups.get g).requests = (s.groups.get g).requests) ∧
          (inMask mask g = true → (t.groups.get g).requests =
            (s.groups.get g).requests ++ [⟨req.target, .command, some (.command r id false)⟩]) ∧
          (inMask mask g = true → (s.groups.get g).course ≠ .steady req.target →
            (t.groups.get g).binding = some (.command r id false))) ∧
        ((∃ g, inMask mask g = true ∧ (s.groups.get g).course ≠ .steady req.target) →
          (t.port.get r).find id = some { h with phase :=
            (.move ⟨req, some ⟨mask, .executed (toBind s.toPart mask req.target) s.clock.frame⟩, none, none⟩) }) ∧
        ((∀ g, inMask mask g = true → (s.groups.get g).course = .steady req.target) →
          ⟨id, h.tag, h.code, .ok, 0, be16 0#16 ++ be32 s.clock.frame⟩ ∈ (t.port.get r).responses)) ∧
    (∀ status g, (st = .held ∧ checkAll s.toPart mask req = some (status, g)) ∨
        (∃ n, st = .waiting n ∧ checkAB s.toPart mask req = some (status, g)) →
      ∃ t, exec (.moveGroupExecute (.command r tag)) s = .next t ∧ (∀ k, (t.groups.get k).requests = (s.groups.get k).requests) ∧
        ⟨id, h.tag, h.code, status, 0, [BitVec.ofNat 8 g.val]⟩ ∈ (t.port.get r).responses)) ∧
  (∀ (r : Rig) (tag : Byte) (id : Nat) (h : Held) (req : MoveReq) (own mask bound : Half) (frame : Word) (st : Stage)
      (s : State),
    s.inReset = false → (moveIds s.toPart r tag).head? = some id → (s.port.get r).find id = some h →
    h.phase = .move ⟨req, some ⟨own, .executed bound frame⟩, some ⟨mask, st⟩, none⟩ →
    (∀ g, inMask mask g = true → isLed s.toPart g = false ∧ (s.groups.get g).binding ≠ some (.command r id false)) →
    ((st = .held ∧ checkAll s.toPart mask req = none) ∨
        (∃ n c, st = .waiting n ∧ req.cond = some c ∧ checkAll s.toPart mask req = none ∧
          condHolds s.toPart mask req.target c = true) →
      (∃ g, inMask mask g = true ∧ (s.groups.get g).course ≠ .steady req.target) →
      ∃ t, exec (.moveGroupExecute (.command r tag)) s = .next t ∧
        (∀ g, inMask mask g = true → (t.groups.get g).requests =
            (s.groups.get g).requests ++ [⟨req.target, .command, some (.command r id true)⟩] ∧
          ((s.groups.get g).course ≠ .steady req.target → (t.groups.get g).binding = some (.command r id true))) ∧
        (t.port.get r).find id = some { h with phase := .move ⟨req, some ⟨own, .executed bound frame⟩,
          some ⟨mask, .executed (toBind s.toPart mask req.target) s.clock.frame⟩, none⟩ }) ∧
    (∀ status g, (st = .held ∧ checkAll s.toPart mask req = some (status, g)) ∨
        (∃ n, st = .waiting n ∧ checkAB s.toPart mask req = some (status, g)) →
      ∃ t, exec (.moveGroupExecute (.command r tag)) s = .next t ∧ (∀ k, (t.groups.get k).requests = (s.groups.get k).requests) ∧
        (t.port.get r).find id = some { h with phase := .move ⟨req, some ⟨own, .executed bound frame⟩,
          some ⟨mask, .ended [BitVec.ofNat 8 g.val]⟩, some (status, [BitVec.ofNat 8 g.val])⟩ })) ∧
  (∀ (k : Fin 8) (round : Bool) (req : MoveReq) (mask : Half) (st : Stage) (s : State), s.inReset = false →
    s.gang.board.get k = ⟨round, .held req ⟨mask, st⟩⟩ →
    ((∀ g, inMask mask g = true → isLeading s.toPart g = true) →
      ((st = .held ∧ checkAll s.toPart mask req = none) ∨
          (∃ n c, st = .waiting n ∧ req.cond = some c ∧ checkAll s.toPart mask req = none ∧
            condHolds s.toPart mask req.target c = true) →
        ∃ t, exec (.moveGroupExecute (.proposal k)) s = .next t ∧
          (∀ g, (t.groups.get g).course = (s.groups.get g).course ∧
            (inMask mask g = false → (t.groups.get g).requests = (s.groups.get g).requests) ∧
            (inMask mask g = true → (t.groups.get g).requests =
              (s.groups.get g).requests ++ [⟨req.target, .command, some (.proposal k)⟩]) ∧
            (inMask mask g = true → (s.groups.get g).course ≠ .steady req.target →
              (t.groups.get g).binding = some (.proposal k))) ∧
          ((∃ g, inMask mask g = true ∧ (s.groups.get g).course ≠ .steady req.target) →
            t.gang.board.get k =
              ⟨round, .held req ⟨mask, .executed (toBind s.toPart mask req.target) s.clock.frame⟩⟩) ∧
          ((∀ g, inMask mask g = true → (s.groups.get g).course = .steady req.target) →
            t.gang.board.get k = ⟨round, .answered .ok⟩ ∧ ⟨k, round, .ok⟩ ∈ t.gang.answers)) ∧
      (∀ status g, (st = .held ∧ checkAll s.toPart mask req = some (status, g)) ∨
          (∃ n, st = .waiting n ∧ checkAB s.toPart mask req = some (status, g)) →
        ∃ t, exec (.moveGroupExecute (.proposal k)) s = .next t ∧
          (∀ j, (t.groups.get j).requests = (s.groups.get j).requests) ∧
          t.gang.board.get k = ⟨round, .answered status⟩ ∧ ⟨k, round, status⟩ ∈ t.gang.answers)) ∧
    ((∃ g, inMask mask g = true ∧ isLeading s.toPart g = false) → (st = .held ∨ ∃ n, st = .waiting n) →
      ∃ t, exec (.moveGroupExecute (.proposal k)) s = .next t ∧
        (∀ j, (t.groups.get j).requests = (s.groups.get j).requests) ∧
        t.gang.board.get k = ⟨round, .answered .badTarget⟩ ∧ ⟨k, round, .badTarget⟩ ∈ t.gang.answers)) ∧
  (∀ (requests : List Request) (o : Owner), o ∈ replacedOwners requests ↔
    ∃ (i j : Nat) (q later : Request), i < j ∧ requests[i]? = some q ∧ requests[j]? = some later ∧ q.owner = some o ∧
      (later.dest ≠ q.dest ∨ (later.owner ≠ none ∧ later.owner ≠ q.owner))) ∧
  ∀ (s : Machine.Part) (g : Fin 16) (requests : List Request) (r : Rig) (id : Nat) (h : Held) (req : MoveReq)
    (mask bound : Half) (frame : Word), (s.port.get r).find id = some h →
    h.phase = .move ⟨req, some ⟨mask, .executed bound frame⟩, none, none⟩ →
    ((((s.groups.get g).binding = some (.command r id false) ∧ (s.groups.get g).course.dest ≠ req.target) ∨
        .command r id false ∈ replacedOwners requests) →
      ⟨id, h.tag, h.code, .superseded, 0, be16 bound ++ be32 frame ++ [BitVec.ofNat 8 g.val]⟩ ∈
          ((settleBinding g requests s).port.get r).responses ∧
        ∀ k, ((settleBinding g requests s).groups.get k).binding ≠ some (.command r id false) ∧
          ((settleBinding g requests s).groups.get k).course = (s.groups.get k).course) ∧
    ((s.groups.get g).binding = some (.command r id false) → (s.groups.get g).course.dest = req.target →
      requests = [] → settleBinding g requests s = s)

/-- R151: the evaluation at which the wait count reaches the timeout and the conditions do not all hold, for that command alone
(log 1). A part reclaimed from a lost link (R123) that still waits times out too, though the command's own part has executed
(log 23); the command then completes when that part ends (R119). A waiting proposal of a leader's board becomes ANSWERED with
TIMEOUT, and its ANSWER is queued (R120). -/
def Obligations.MoveGroupTimesOut : Prop :=
  (∀ (k : Fin 8) (round : Bool) (n : Nat) (req : MoveReq) (mask : Half) (c : Cond) (s : State), s.inReset = false →
    s.gang.board.get k = ⟨round, .held req ⟨mask, .waiting n⟩⟩ →
    (∀ g, inMask mask g = true → isLeading s.toPart g = true) →
    req.cond = some c → c.timeout ≠ 0#16 → c.timeout.toNat ≤ n + 1 → checkAB s.toPart mask req = none →
    (condHolds s.toPart mask req.target c = false ∨ checkCDE s.toPart mask req ≠ none) →
    ∃ t, exec (.moveGroupTimeout (.proposal k)) s = .next t ∧
      t.gang.board.get k = ⟨round, .answered .timeout⟩ ∧ ⟨k, round, .timeout⟩ ∈ t.gang.answers ∧
      ∀ g, (t.groups.get g).requests = (s.groups.get g).requests ∧ (t.groups.get g).course = (s.groups.get g).course ∧
        (t.groups.get g).binding ≠ some (.proposal k)) ∧
  ∀ (r : Rig) (tag : Byte) (id n : Nat) (h : Held) (req : MoveReq) (mask : Half) (c : Cond) (s : State),
    s.inReset = false → (moveIds s.toPart r tag).head? = some id → (s.port.get r).find id = some h →
    (∀ g, inMask mask g = true → isLed s.toPart g = false) →
    req.cond = some c → c.timeout ≠ 0#16 → c.timeout.toNat ≤ n + 1 → checkAB s.toPart mask req = none →
    (condHolds s.toPart mask req.target c = false ∨ checkCDE s.toPart mask req ≠ none) →
    (h.phase = .move ⟨req, some ⟨mask, .waiting n⟩, none, none⟩ →
      ∃ t, exec (.moveGroupTimeout (.command r tag)) s = .next t ∧
        ⟨id, h.tag, h.code, .timeout, 0, []⟩ ∈ (t.port.get r).responses ∧
        ∀ g, (t.groups.get g).requests = (s.groups.get g).requests ∧ (t.groups.get g).course = (s.groups.get g).course ∧
          (t.groups.get g).binding ≠ some (.command r id false)) ∧
    ∀ own bound frame, h.phase = .move ⟨req, some ⟨own, .executed bound frame⟩, some ⟨mask, .waiting n⟩, none⟩ →
      ∃ t, exec (.moveGroupTimeout (.command r tag)) s = .next t ∧
        (t.port.get r).find id = some { h with phase := .move ⟨req, some ⟨own, .executed bound frame⟩,
          some ⟨mask, .ended []⟩, some (.timeout, [])⟩ } ∧
        ∀ g, (t.groups.get g).requests = (s.groups.get g).requests ∧ (t.groups.get g).course = (s.groups.get g).course ∧
          (t.groups.get g).binding ≠ some (.command r id true)

/-- R73, R77, R81, R83, R85, R153, R159, R168: the pending writes take effect in order and their commands complete; a change
of home clears the failed-over flag; a SET_MODE is checked again; a BYPASS sets its mark and the relay follows. R66, R72: a
disable takes its cause to CLEAR, also where the next write enables it again, and raises a notice where the cause stood.
The three events sent alone are the model's choice (log 1). -/
def Obligations.WritesTakeEffect : Prop :=
  (∀ s : State, s.inReset = false → (∀ w ∈ s.writes, w.act.isTable = true) →
    ∃ t, exec .writeTakesEffect s = .next t ∧ t.writes = [] ∧
      t.tables = s.writes.foldl (fun tables w => tablesAfter w.act tables) s.tables ∧
      (∀ g, (t.groups.get g).course = (s.groups.get g).course ∧ (t.groups.get g).binding = (s.groups.get g).binding ∧
        (t.groups.get g).startPending = (s.groups.get g).startPending) ∧
      (∀ w ∈ s.writes, ∀ r id h, w.owner = some (r, id) → (s.port.get r).find id = some h → h.phase = .pendingWrite →
        ⟨id, h.tag, h.code, .ok, 0, []⟩ ∈ (t.port.get r).responses) ∧
      (∀ o g e, s.writes = [⟨o, .group g e⟩] →
        t.groups.get g = if (groupEntry s.toPart g).home = e.home then s.groups.get g
          else { s.groups.get g with failedOver := false, holdTimer := 0 }) ∧
      (∀ o new, s.writes = [⟨o, .setup new⟩] →
        t.tracker.history = (if new.tolerance = s.tables.setup.tolerance ∧ new.reference = s.tables.setup.reference then
          s.tracker.history else []) ∧
        t.panel.pulse = if new.alarm = s.tables.setup.alarm then s.panel.pulse else 0) ∧
      (∀ o o' x c off on,
        s.writes = [⟨o, .watchCause x c off⟩] ∨ s.writes = [⟨o, .watchCause x c off⟩, ⟨o', .watchCause x c on⟩] →
        off.enabled = false →
        (t.health.get x).causes = (s.health.get x).causes.set c ⟨.clear, 0⟩ ∧
        t.health.get x.other = s.health.get x.other ∧
        (((s.health.get x).causes.get c).state = .confirmed ∨ ((s.health.get x).causes.get c).state = .clearing →
          (t.health.get x).published.getLsbD c.val = false ∧
          ∃ n : Notice, n = ⟨s.clock.frame, .rigHealth x (s.health.get x).health (t.health.get x).health
              ((t.health.get x).inState .pending) ((t.health.get x).inState .confirmed)
              ((t.health.get x).inState .clearing) (s.health.get x).sticky⟩ ∧
            (∀ r, n ∈ (t.port.get r).lane.notices) ∧ n ∈ t.program.lane.notices))) ∧
  ∀ (s : State) (r : Rig) (id : Nat) (h : Held) (rest : List PendingWrite), s.inReset = false →
    (s.port.get r).find id = some h → h.phase = .pendingWrite →
    (∀ g mode, s.writes = ⟨some (r, id), .setMode g mode⟩ :: rest →
      (setModeCheck (groupEntry s.toPart g) (s.groups.get g) mode = none →
        ∃ t, exec .setModeTakesEffect s = .next t ∧ t.writes = rest ∧
          t.tables = { s.tables with groups := s.tables.groups.set g { groupEntry s.toPart g with mode } } ∧
          (t.port.get r).responses = (s.port.get r).responses ++ [⟨id, h.tag, h.code, .ok, 0, []⟩]) ∧
      (∀ st, setModeCheck (groupEntry s.toPart g) (s.groups.get g) mode = some st →
        ∃ t, exec .setModeTakesEffect s = .next t ∧ t.writes = rest ∧ t.tables = s.tables ∧
          (t.port.get r).responses = (s.port.get r).responses ++ [⟨id, h.tag, h.code, st, 0, []⟩])) ∧
    (∀ engage, s.writes = ⟨some (r, id), .bypass engage⟩ :: rest →
      ∃ t, exec .bypassTakesEffect s = .next t ∧ t.writes = rest ∧ t.panel = { s.panel with bypass := engage } ∧
        (t.port.get r).responses = (s.port.get r).responses ++ [⟨id, h.tag, h.code, .ok, 0, []⟩] ∧
        (s.takeover.done = true → s.panel.bypass ≠ engage → raised t.toPart (.relay (!engage) true)) ∧
        (s.takeover.done = false ∨ s.panel.bypass = engage → noNotice s.toPart t.toPart))

/-- R158, R164, R165, R166: a save completes, verified or not, with its notice, its response, and the load that a reset has
deferred; that load takes effect while no group is fading, and softens a FIXED entry whose group is elsewhere. A cause that
the loaded Watch Table disables is CLEAR (R66). DEFERRED_LOAD sent alone, and unchanged while a group is fading, is the model's
choice (logs 1 and 2), and so is a save that completes while the RESET line holds the part (log 22). -/
def Obligations.SavesAndDeferredLoad : Prop :=
  (∀ (verified : Bool) (s : State), s.store.save = .saving →
    ∃ t, exec (.saveComplete verified) s = .next t ∧
      t.store = { s.store with
        image := (if verified then s.store.snapshot.getD s.store.image else s.store.image)
        valid := verified, storeValid := verified, save := (if verified then .ok else .storeFailed), snapshot := none } ∧
      t.tables = s.tables ∧ raised t.toPart (.store (if verified then 0 else 1) verified) ∧
      t.writes = (if s.store.reload then s.writes ++ [⟨none, .load⟩] else s.writes) ∧
      ∀ r h, (s.port.get r).slots.find? isSaving = some h → (s.port.get r).find h.id = some h →
        (t.port.get r).responses = (s.port.get r).responses ++
          [⟨h.id, h.tag, h.code, if verified then .ok else .storeFailed, 0, [if verified then 1#8 else 0#8]⟩]) ∧
  ∀ (o : Option (Rig × Nat)) (rest : List PendingWrite) (s : State), s.inReset = false → s.writes = ⟨o, .load⟩ :: rest →
    ((∃ g, (s.groups.get g).course.isFading = true) → exec .deferredLoad s = .next s) ∧
    ((∀ g, (s.groups.get g).course.isFading = false) →
      ∃ t, exec .deferredLoad s = .next t ∧ t.writes = rest ∧ t.store.reload = false ∧
        t.store.storeValid = s.store.valid ∧
        (∀ (x : Rig) (c : Fin 8), ((t.tables.watch.get x).causes.get c).enabled = false →
          (t.health.get x).causes.get c = ⟨.clear, 0⟩) ∧
        (s.store.valid = false → t.tables = factoryTables ∧
          (∀ r, ⟨s.clock.frame, .store 2 false⟩ ∈ (t.port.get r).lane.notices) ∧
          ⟨s.clock.frame, .store 2 false⟩ ∈ t.program.lane.notices) ∧
        (s.store.valid = true →
          t.tables.routes = s.store.image.routes ∧ t.tables.watch = s.store.image.watch ∧
          t.tables.setup = s.store.image.setup ∧
          ∀ g, groupEntry t.toPart g =
            if (s.store.image.groups.get g).mode = .fixed ∧ (s.groups.get g).startPending = false ∧
                (s.groups.get g).course ≠ .steady (.rig (s.store.image.groups.get g).home) then
              { s.store.image.groups.get g with mode := .manual }
            else s.store.image.groups.get g))

/-! ## The Gang Port -/

/-- R109, R112, R113, R118, R120: a gang frame arrives. A SOLO unit reads none; a bad frame ends the good run; the fourth
good one in a row brings the link up; in UP a follower holds its leader's MOVE and a leader its follower's PROPOSE, which it
answers where a check of the taking fails, or keeps as a press for ref 8, whatever its target (DARK too, log 59, the model's
choice). A frame of another length, or that does not begin
with the sync word, counts as bad (log 32), and an unmatched group is BAD_TARGET before checks a to e (log 35). R119: a
follower takes the answer for an awaiting ref and its round, from the board or from an ANSWER, and ignores any other: the
ref's record and the command it serves stand (a board status above 13 is no answer, log 44). R123: a leader whose partner is
not UP clears its board, before it takes the PROPOSE of the same frame (log 60, the model's choice). -/
def Obligations.GangFrameReceived : Prop :=
  (∀ (b : List Byte) (s : State), s.inReset = false →
    (s.gang.role = .solo → exec (.gangFrameReceived b) s = .next s) ∧
    (s.gang.role ≠ .solo → (goodCheck 64 b = false ∨ (byteAt b 2).toNat ≠ s.gang.role.partner.code) →
      exec (.gangFrameReceived b) s = .next { s with gang := { s.gang with goodRun := 0 } }) ∧
    (s.gang.role ≠ .solo → goodCheck 64 b = true → (byteAt b 2).toNat = s.gang.role.partner.code →
      ∃ t, exec (.gangFrameReceived b) s = .next t ∧ t.gang.partner = some (readReport b) ∧ t.gang.silence = 0 ∧
        t.gang.arrived = true ∧
        (s.gang.state = .seeking ∨ s.gang.state = .lost → s.gang.goodRun < 3 →
          t.gang.goodRun = s.gang.goodRun + 1 ∧ t.gang.state = s.gang.state ∧ noNotice s.toPart t.toPart) ∧
        (s.gang.state = .seeking ∨ s.gang.state = .lost → s.gang.goodRun = 3 →
          t.gang.state = .up ∧ t.gang.adopt = (s.gang.role == .follower) ∧
            raised t.toPart (.gang s.gang.role s.gang.state .up)) ∧
        (∀ m, s.gang.state = .up → s.gang.role = .follower → readGangMsg b = .move m →
          inMask s.gang.matched m.group = true →
          t.gang.pending.get m.group = some { m with
            start := if 8 < sdiff m.start s.clock.frame then s.clock.frame + 1#32 else m.start }) ∧
        (∀ (p : ProposeMsg), s.gang.state = .up → s.gang.role = .leader → byteAt b 3 = 2#8 →
          readGangMsg b = .propose p → p.ref.val = 8 →
          t.gang.presses = s.gang.presses ++ [⟨p.target, p.mask, true⟩] ∧ t.gang.board = s.gang.board) ∧
        (∀ (p : ProposeMsg), s.gang.state = .up → s.gang.role = .leader → byteAt b 3 ≠ 2#8 →
          readGangMsg b = .propose p →
          (p.ref.val = 8 → t.gang.presses = s.gang.presses ++ [⟨p.target, p.mask, true⟩]) ∧
          (∀ k : Fin 8, p.ref.val = k.val → p.mask = 0#16 → t.gang.board.get k = ⟨p.round, .answered .ok⟩) ∧
          ∀ j : Fin 8, p.ref.val ≠ j.val → t.gang.board.get j = ⟨(s.gang.board.get j).round, .idle⟩) ∧
        (∀ (p : ProposeMsg) (k : Fin 8), s.gang.state = .up → s.gang.role = .leader → byteAt b 3 = 2#8 →
          readGangMsg b = .propose p → p.ref.val = k.val →
          ((s.gang.board.get k).round = p.round → (s.gang.board.get k).state ≠ .idle →
            t.gang.board = s.gang.board) ∧
          ((s.gang.board.get k).round ≠ p.round ∨ (s.gang.board.get k).state = .idle →
            (p.mask = 0#16 → t.gang.board.get k = ⟨p.round, .answered .ok⟩) ∧
            (p.mask ≠ 0#16 → (∃ g, inMask p.mask g = true ∧ inMask s.gang.matched g = false) →
              t.gang.board.get k = ⟨p.round, .answered .badTarget⟩) ∧
            (∀ st g, p.mask ≠ 0#16 → (∀ g, inMask p.mask g = true → inMask s.gang.matched g = true) →
              checkTaking { s.toPart with gang := { s.gang with partner := some (readReport b) } } p.mask
                ⟨p.target, p.force, p.cond⟩ = some (st, g) →
              t.gang.board.get k = ⟨p.round, .answered st⟩ ∧ ⟨k, p.round, st⟩ ∈ t.gang.answers) ∧
            (p.mask ≠ 0#16 → (∀ g, inMask p.mask g = true → inMask s.gang.matched g = true) →
              checkTaking { s.toPart with gang := { s.gang with partner := some (readReport b) } } p.mask
                ⟨p.target, p.force, p.cond⟩ = none →
              t.gang.board.get k = ⟨p.round,
                .held ⟨p.target, p.force, p.cond⟩ ⟨p.mask, if p.cond = none then .held else .waiting 0⟩⟩))))) ∧
  (∀ (b : List Byte) (s : State) (k : Fin 8), s.inReset = false → s.gang.role = .follower → s.gang.state = .up →
    goodCheck 64 b = true → (byteAt b 2).toNat = Role.leader.code →
    ((s.gang.records.get k).awaiting = false ∨
      ((((readReport b).board.get k).state ≠ 2#2 ∨ ((readReport b).board.get k).round ≠ (s.gang.records.get k).round ∨
          13 < ((readReport b).board.get k).status.toNat) ∧
        ∀ st, readGangMsg b ≠ .answer ⟨k, (s.gang.records.get k).round, st⟩)) →
    ∃ t, exec (.gangFrameReceived b) s = .next t ∧ t.gang.records.get k = s.gang.records.get k ∧
      ∀ r id, (s.gang.records.get k).serves = some (r, id) →
        (∀ j, j ≠ k → (s.gang.records.get j).serves ≠ some (r, id)) → (t.port.get r).find id = (s.port.get r).find id) ∧
  ∀ (b : List Byte) (s : State) (k : Fin 8) (r : Rig) (id : Nat) (h : Held) (req : MoveReq) (mask : Half) (st : Status),
    s.inReset = false → s.gang.role = .follower → s.gang.state = .up → goodCheck 64 b = true →
    (byteAt b 2).toNat = Role.leader.code → (s.gang.records.get k).awaiting = true →
    (s.gang.records.get k).serves = some (r, id) → (∀ j, j ≠ k → (s.gang.records.get j).serves ≠ some (r, id)) →
    (s.port.get r).find id = some h → h.phase = .move ⟨req, none, some ⟨mask, .proposed k⟩, none⟩ →
    (((readReport b).board.get k).state = 2#2 ∧ ((readReport b).board.get k).round = (s.gang.records.get k).round ∧
        readStatusCode ((readReport b).board.get k).status = some st) ∨
      (((readReport b).board.get k).state ≠ 2#2 ∧ readGangMsg b = .answer ⟨k, (s.gang.records.get k).round, st⟩) →
    ∃ t, exec (.gangFrameReceived b) s = .next t ∧ (t.gang.records.get k).awaiting = false ∧
      (t.gang.records.get k).round = (s.gang.records.get k).round ∧
      ⟨id, h.tag, h.code, st, 0,
        if st ∈ [.badTarget, .isProtected, .busy, .unusable, .notAligned] then [0xFF#8] else []⟩ ∈
          (t.port.get r).responses

/-- R113, R114, R123: the link comes up, is lost, and the count is adopted. At a loss the queues and the board empty, the
matched set empties (log 12), and a proposed part becomes a local part, first checked at the next boundary (log 43). The three
events sent alone are the model's choice (log 1). R115: on a leader in UP the usability of a matched group combines the local
sets with the partner's. R116: there each transition of a matched group queues its MOVE, in the place of an unsent one. -/
def Obligations.GangLink : Prop :=
  (∀ s : State, s.inReset = false →
    ((s.gang.state = .seeking ∨ s.gang.state = .lost) → s.gang.goodRun = 3 →
      ∃ t, exec .gangLinkUp s = .next t ∧ t.gang.state = .up ∧ t.gang.goodRun = 0 ∧
        t.gang.adopt = (s.gang.role == .follower) ∧ raised t.toPart (.gang s.gang.role s.gang.state .up)) ∧
    (s.gang.state = .up → s.gang.arrived = false → 7 ≤ s.gang.silence →
      ∃ t, exec .gangLinkLost s = .next t ∧ t.gang.state = .lost ∧ t.gang.matched = 0#16 ∧ t.gang.moves = [] ∧
        t.gang.answers = [] ∧ t.gang.proposes = [] ∧ t.gang.adopt = false ∧ t.clock.qual.gang = 0 ∧
        t.clock.selected ≠ .gang ∧ (∀ g, t.gang.pending.get g = none) ∧
        (∀ k, (t.gang.board.get k).state = .idle ∧ (t.gang.board.get k).round = (s.gang.board.get k).round ∧
          (t.gang.records.get k).awaiting = false) ∧
        (s.clock.selected ≠ .gang → raised t.toPart (.gang s.gang.role .up .lost)) ∧
        ∀ (k : Fin 8) r id h req mask own first, (s.gang.records.get k).awaiting = true →
          (s.gang.records.get k).serves = some (r, id) →
          (∀ j, j ≠ k → (s.gang.records.get j).serves ≠ some (r, id)) → (s.port.get r).find id = some h →
          h.phase = .move ⟨req, own, some ⟨mask, .proposed k⟩, first⟩ →
          (t.port.get r).find id = some { h with
            phase := (.move ⟨req, own, some ⟨mask, if req.cond = none then .held else .waiting 0⟩, first⟩) }) ∧
    (∀ p, s.gang.role = .follower → s.gang.adopt = true → s.gang.partner = some p →
      exec .countAdoption s = .next { s with
        clock := { s.clock with frame := p.frame + 1#32 }, gang := { s.gang with adopt := false } })) ∧
  (∀ (s : Machine.Part) (g : Fin 16) (x : Rig) (p : GangReport), s.gang.partner = some p →
    (s.gang.role = .leader → s.gang.state = .up → inMask s.gang.matched g = true →
      (rigUsable s g x = true ↔ (s.health.get x).inForce &&& (groupEntry s g).mask = 0#8 ∧
        p.unus.get x &&& (groupEntry s g).mask = 0#8)) ∧
    (s.gang.role ≠ .leader ∨ s.gang.state ≠ .up ∨ inMask s.gang.matched g = false →
      (rigUsable s g x = true ↔ (s.health.get x).inForce &&& (groupEntry s g).mask = 0#8))) ∧
  ∀ (s : Machine.Part) (g : Fin 16) (f : Fade) (m : MoveMsg),
    m = ⟨g, f.kind.src, f.kind.dst, f.law, f.len, min (f.q + 48) f.len, s.clock.frame + 2#32, f.unaligned,
      (s.groups.get g).failedOver, (s.groups.get g).darkByRequest⟩ →
    raised (announce g f s) (.groupMove g false f.kind.src f.kind.dst f.reason f.unaligned f.q f.len) ∧
    (s.gang.role = .leader → s.gang.state = .up → inMask s.gang.matched g = true →
      ((∀ x ∈ s.gang.moves, x.group ≠ g) → (announce g f s).gang.moves = s.gang.moves ++ [m]) ∧
      (∀ x ∈ s.gang.moves, x.group = g →
        (announce g f s).gang.moves = s.gang.moves.map fun y => if y.group = g then m else y)) ∧
    (s.gang.role ≠ .leader ∨ s.gang.state ≠ .up ∨ inMask s.gang.matched g = false →
      (announce g f s).gang = s.gang)

/-- R107, R118: a pending MOVE starts at a boundary at or after its start frame, as far on as the boundary is late; at or
beyond L the group is steady on the MOVE's "to" source at once. GANG_MOVE_START sent alone, with the other groups' courses
standing, is the model's choice (log 1), and so is that a MOVE starts whose group has left the matched set (log 37). R88: at a boundary a group whose MOVE
starts, and a group that is led, takes no decision of its own. -/
def Obligations.GangMoveStarts : Prop :=
  (∀ (s t : Machine.Part) (g : Fin 16),
    (∀ m, s.gang.pending.get g = some m → 0 ≤ sdiff s.clock.frame m.start → isLed s g = false →
      decides t (takenUpAt s) g = false) ∧
    (isLed t g = true → ∀ takenUp, decides t takenUp g = false)) ∧
  ∀ (g : Fin 16) (m : MoveMsg) (q : Nat) (s : State), s.inReset = false → s.gang.pending.get g = some m →
    0 ≤ sdiff s.clock.frame m.start →
    q = min m.len (m.q0 + 24 * (sdiff s.clock.frame m.start).toNat) →
    ∃ t, exec (.gangMoveStart g) s = .next t ∧ t.gang.pending.get g = none ∧ (t.groups.get g).startPending = false ∧
      (t.groups.get g).failedOver = m.failedOver ∧ (t.groups.get g).darkByRequest = m.darkByRequest ∧
      (t.groups.get g).holdTimer =
        (if (s.groups.get g).failedOver = m.failedOver then (s.groups.get g).holdTimer else 0) ∧
      (q < m.len → m.src ≠ m.dst →
        ∃ kind, kind.src = m.src ∧ kind.dst = m.dst ∧
          (t.groups.get g).course = .fading ⟨kind, q, m.len, m.law, .gang, m.unaligned, q⟩ ∧
          raised t.toPart (.groupMove g false m.src m.dst .gang m.unaligned q m.len)) ∧
      (q = m.len → (t.groups.get g).course = .steady m.dst) ∧
      ∀ k, k ≠ g → (t.groups.get k).course = (s.groups.get k).course

/-- R117, R120, R121, R122, R123: a lost PROPOSE is queued again at the back; a mismatch queues a MOVE that sets the partner's
group steady; a button proposal that waits hands its requests to the groups that qualify, also one for DARK (log 59).
The three events sent alone are the model's choice (log 1); the law of a repair's MOVE is left open (log 42). -/
def Obligations.GangRepairs : Prop :=
  (∀ (k : Fin 8) (s : State) (sent : Word) (p : GangReport) (msg : ProposeMsg), s.inReset = false →
    s.gang.role = .follower → s.gang.state = .up → (s.gang.records.get k).awaiting = true →
    (s.gang.records.get k).sentAt = some sent → (s.gang.records.get k).message = some msg → s.gang.partner = some p →
    (∀ x ∈ s.gang.proposes, x.ref.val ≠ k.val) → msg.ref.val = k.val → 0 ≤ sdiff p.frame (sent + 2#32) →
    ((p.board.get k).round ≠ (s.gang.records.get k).round ∨
      ((p.board.get k).state ≠ 1#2 ∧ (p.board.get k).state ≠ 2#2)) →
    exec (.proposeResend k) s = .next { s with gang := { s.gang with proposes := s.gang.proposes ++ [msg] } }) ∧
  (∀ (g : Fin 16) (s : State) (p : GangReport) (e : End), s.inReset = false → isLeading s.toPart g = true →
    s.gang.partner = some p → p.state = 2#8 → (s.groups.get g).course = .steady e →
    (p.codes.get g).toNat ≠ (Course.steady e).code → (s.gang.fresh = true ∨ 7 ≤ s.gang.mismatch.get g) →
    ∃ t m, exec (.mismatchRepair g) s = .next t ∧ m ∈ t.gang.moves ∧ t.gang.mismatch.get g = 0 ∧
      (∀ x ∈ t.gang.moves, x.group = g → x = m) ∧ m.group = g ∧ m.src = .dark ∧ m.dst = e ∧ m.q0 = m.len ∧
      m.len = fadeLength (groupEntry s.toPart g).fade ∧ m.start = s.clock.frame + 2#32 ∧ m.unaligned = false ∧
      m.failedOver = (s.groups.get g).failedOver ∧ m.darkByRequest = (s.groups.get g).darkByRequest) ∧
  ∀ (s : State) (n : End) (mask : Half) (matchedOnly : Bool), s.inReset = false →
    s.gang.presses = [⟨n, mask, matchedOnly⟩] →
    ∃ t, exec .buttonProposalApply s = .next t ∧ t.gang.presses = [] ∧
      ∀ g, (t.groups.get g).requests = (s.groups.get g).requests ++
        (if inMask mask g = true ∧ (matchedOnly = true → isLeading s.toPart g = true) ∧ isLed s.toPart g = false ∧
            (groupEntry s.toPart g).isProtected = false ∧ (groupEntry s.toPart g).mode ≠ .fixed ∧
            (s.groups.get g).startPending = false ∧ (s.groups.get g).course.dest ≠ n ∧
            (match n with
              | .rig x => rigUsable s.toPart g x
              | .dark => true) = true then
          [⟨n, .button, none⟩] else [])

/-! ## Headline results -/

/-- R69, R88, R90, R91, R96, R98, R107, R170: a boundary takes an AUTO group of a SOLO unit off a rig whose published causes
make it unusable, when the other rig is usable: a fade from its start, with the entry's length and law, and the ALARM
pulse. -/
def Obligations.BoundaryFailsOver : Prop :=
  ∀ (lines : Lines) (ord : Order) (s : State) (g : Fin 16) (e : GroupEntry) (x : Rig), noResetDue s.toPart →
    s.gang.role = .solo → s.writes = [] → s.takeover.done = true → s.gang.presses = [] → s.gang.pending.get g = none →
    (∀ r, (s.port.get r).slots = []) → lines.btnA = false → lines.btnB = false →
    groupEntry s.toPart g = e → e.mode = .auto → (s.groups.get g).startPending = false →
    (s.groups.get g).requests = [] → (s.groups.get g).course = .steady (.rig x) →
    (s.health.get x).published &&& e.mask ≠ 0#8 → (s.health.get x.other).published &&& e.mask = 0#8 →
    ∃ t f, exec (.localFrameBoundary lines ord) s = .next t ∧ (t.groups.get g).course = .fading f ∧
      f.kind.src = .rig x ∧ f.kind.dst = .rig x.other ∧ f.q = 0 ∧ f.len = fadeLength e.fade ∧ f.law = e.law ∧
      f.reason = .autoFailover ∧
      (f.unaligned = true ↔ e.requireAlign = true ∧ s.tracker.computed.met = false) ∧
      ((t.groups.get g).failedOver = true ↔ x = e.home) ∧ (t.groups.get g).holdTimer = 0 ∧
      (s.tables.setup.alarm = .pulse → t.panel.pulse = 200)

/-- R42: the history holds the most recent measurements, five at most; five equal ones make it stable. R41: the class of a
boundary, by the two receivers and the two offers, in its order. R41, R42, R43: what a boundary does to the history, the last
measurement and the last cues: a skipped boundary at which no cue changed adds nothing and removes nothing. R44, R45: the
state, stable offset and residual derived, in OUT_OF_REACH and outside it. That a skipped boundary derives too, where R41
keeps state and stable offset, is the model's choice (log 28). -/
def Obligations.MeasurementHistory : Prop :=
  (∀ (l : List Int) (m : Int), l.length < 5 → pushMeasure l m = l ++ [m]) ∧
  (∀ (l : List Int) (m : Int), l.length = 5 → pushMeasure l m = l.tail ++ [m]) ∧
  (∀ (ms : List Int), ms.foldl pushMeasure [] = ms.drop (ms.length - 5)) ∧
  (∀ (l : List Int) (m : Int), l.length ≤ 5 → (stableOf l = some m ↔ l = [m, m, m, m, m])) ∧
  (∀ (lockedA lockedB : Bool) (ya yb : Option Yield) (c : OfferClass), c = classify lockedA lockedB ya yb →
    (lockedA = false ∨ lockedB = false → c = .noMeasure .waiting) ∧
    (lockedA = true → lockedB = true →
      (∀ y, ya = some y ∨ yb = some y → y.frame.transport ≠ .play → c = .noMeasure .stopped) ∧
      ((∀ y, ya = some y ∨ yb = some y → y.frame.transport = .play) →
        (ya = none ∨ yb = none → c = .skipped) ∧
        ∀ a b, ya = some a → yb = some b →
          (a.frame.cue ≠ b.frame.cue → c = .noMeasure .cueDiff) ∧
          (a.frame.cue = b.frame.cue → a.frame.origin ≠ .real ∨ b.frame.origin ≠ .real → c = .skipped) ∧
          (a.frame.cue = b.frame.cue → a.frame.origin = .real → b.frame.origin = .real →
            c = .valid (sdiff (b.frame.stamp + BitVec.ofNat 32 b.offset) (a.frame.stamp + BitVec.ofNat 32 a.offset)))))) ∧
  (∀ (t : Tracker) (ya yb : Option Yield) (frame : Word) (m : Int),
    (∀ why, (t.note (.noMeasure why) ya yb frame).history = []) ∧
    ((∀ c y, (t.lastCue.a = some c ∧ ya = some y) ∨ (t.lastCue.b = some c ∧ yb = some y) → y.frame.cue = c) →
      (t.note .skipped ya yb frame).history = t.history ∧
      (t.note (.valid m) ya yb frame).history = pushMeasure t.history m) ∧
    (∀ c y, (t.lastCue.a = some c ∧ ya = some y) ∨ (t.lastCue.b = some c ∧ yb = some y) → y.frame.cue ≠ c →
      (t.note .skipped ya yb frame).history = [] ∧ (t.note (.valid m) ya yb frame).history = [m]) ∧
    (t.note (.valid m) ya yb frame).lastMeas = some (m, frame) ∧
    (t.note .skipped ya yb frame).lastMeas = t.lastMeas ∧
    ∀ cls, (∀ y, ya = some y → (t.note cls ya yb frame).lastCue.a = some y.frame.cue) ∧
      (∀ y, yb = some y → (t.note cls ya yb frame).lastCue.b = some y.frame.cue) ∧
      (ya = none → (t.note cls ya yb frame).lastCue.a = t.lastCue.a) ∧
      (yb = none → (t.note cls ya yb frame).lastCue.b = t.lastCue.b) ∧
      (t.note cls ya yb frame).state = t.state ∧ (t.note cls ya yb frame).stable = t.stable ∧
      (t.note cls ya yb frame).residual = t.residual) ∧
  ∀ (t : Tracker) (tolerance : Half) (cls : OfferClass),
    (∀ why, cls = .noMeasure why →
      t.derive cls tolerance = { t with state := .noMeasure why, stable := none, residual := 0 }) ∧
    ((∀ why, cls ≠ .noMeasure why) →
      (stableOf t.history = none → t.state ≠ .outOfReach →
        t.derive cls tolerance = { t with state := .settling, stable := none }) ∧
      (stableOf t.history = none → t.state = .outOfReach → t.derive cls tolerance = { t with stable := none }) ∧
      ∀ m, stableOf t.history = some m →
        (t.state ≠ .outOfReach → t.derive cls tolerance = { t with
          stable := some m
          state := if m = 0 then .aligned else if m.natAbs ≤ tolerance.toNat then .offset else .misaligned }) ∧
        (t.state = .outOfReach → m = 0 →
          t.derive cls tolerance = { t with state := .aligned, stable := some 0, residual := 0 }) ∧
        (t.state = .outOfReach → m ≠ 0 → t.derive cls tolerance = { t with stable := some m }))

/-- R36, R37, R48: the move request for a stable offset, and what the ring makes of it. R47, R49, R50, R51: the side that is
moved, what the correction leaves, the verdict, and the ALIGN notice, of which a boundary raises at most one. That the turn
derives at a skipped boundary too is the model's choice (log 28). A receiver that leaves LOCKED between classification and
request (log 38) leaves its ring where the flush puts it: reported move 0, OUT_OF_REACH, and the history empty. The last part
is a boundary without an underrun and without a table write: the tracker and the rings are those of its turn, and the on-air
facts are those of the groups (R46). -/
def Obligations.AlignmentMoves : Prop :=
  (∀ (s : Machine.Part) (x : Rig) (m δ : Int), δ = (if x = .B then -m else m) →
    ((s.rx.get x).state ≠ .locked → moveRing x m s = s ∧ madeMove s x m = 0) ∧
    ((s.rx.get x).state = .locked →
      moveRing x m s =
        s.setRing x { s.ring.get x with R := (s.ring.get x).R + BitVec.ofInt 32 (madeMove s x m) } ∧
      (24 ≤ (s.ring.get x).fill - δ → (s.ring.get x).fill - δ ≤ 3048 → madeMove s x m = δ) ∧
      (3048 < (s.ring.get x).fill - δ →
        (δ < 0 → 3048 ≤ (s.ring.get x).fill → madeMove s x m = 0) ∧
        (δ < 0 → (s.ring.get x).fill < 3048 → madeMove s x m = (s.ring.get x).fill - 3048) ∧
        (0 < δ → madeMove s x m = δ)) ∧
      ((s.ring.get x).fill - δ < 24 →
        (0 < δ → (s.ring.get x).fill ≤ 24 → madeMove s x m = 0) ∧
        (0 < δ → 24 < (s.ring.get x).fill → madeMove s x m = (s.ring.get x).fill - 24) ∧
        (δ < 0 → madeMove s x m = δ)) ∧
      (madeMove s x m).natAbs ≤ δ.natAbs ∧ (0 < madeMove s x m → 0 < δ) ∧ (madeMove s x m < 0 → δ < 0))) ∧
  (∀ (t : Tracker) (reference : Rig),
    (stableOf t.history = none ∨ stableOf t.history = some 0 → t.side reference = none) ∧
    ∀ m, stableOf t.history = some m → m ≠ 0 →
      (t.onAir.get reference.other = false → t.side reference = some (reference.other, m)) ∧
      (t.onAir.get reference.other = true → t.onAir.get reference = false → t.side reference = some (reference, m)) ∧
      (t.onAir.get reference.other = true → t.onAir.get reference = true → t.side reference = none)) ∧
  (∀ (t : Tracker) (x : Rig) (m made applied : Int) (tolerance : Half), applied = (if x = .B then -made else made) →
    t.settle x m (amountApplied x made) tolerance = { t with
      lastCorr := some ⟨x, m, applied⟩
      residual := m - applied
      history := []
      state := if m - applied ≠ 0 then .outOfReach
        else if t.state = .outOfReach then
          (if m = 0 then .aligned else if m.natAbs ≤ tolerance.toNat then .offset else .misaligned)
        else t.state }) ∧
  (∀ (t : Tracker) (lockedA lockedB : Bool) (ya yb : Option Yield) (v : Verdict), v = t.verdict lockedA lockedB ya yb →
    (v.aligned = true ↔ t.state = .aligned ∨ t.state = .offset) ∧
    (v.bothStopped = true ↔ lockedA = true ∧ lockedB = true ∧ ∃ a b, ya = some a ∧ yb = some b ∧
      a.frame.transport = .stop ∧ b.frame.transport = .stop) ∧
    (v.met = true ↔ v.aligned = true ∨ v.bothStopped = true) ∧
    v.transport = ⟨ya.map fun y => y.frame.transport, yb.map fun y => y.frame.transport⟩) ∧
  (∀ (s : Machine.Part) (ord : Order) (ya yb : Option Yield) (la lb : Bool) (T : Tracker), ya = (s.ring.get .A).yield →
    yb = (s.ring.get .B).yield → la = isLocked s .A → lb = isLocked s .B →
    T = (s.tracker.note (classify la lb ya yb) ya yb s.clock.frame).derive (classify la lb ya yb)
      s.tables.setup.tolerance →
    ((∀ x, ¬losesAt ord s x) →
      (T.side s.tables.setup.reference = none →
        (trackerTurn ord s).ring = s.ring ∧
        (trackerTurn ord s).tracker = { T with computed := T.verdict la lb ya yb } ∧
        pushedOnce s (trackerTurn ord s)
          (if T.state = s.tracker.state then none else some (.align s.tracker.state T.state T.stable none))) ∧
      ∀ x m, T.side s.tables.setup.reference = some (x, m) →
        ∃ U c, U = T.settle x m (amountApplied x (madeMove s x m)) s.tables.setup.tolerance ∧ U.lastCorr = some c ∧
          (trackerTurn ord s).tracker = { U with computed := U.verdict la lb ya yb } ∧
          (trackerTurn ord s).ring = (moveRing x m s).ring ∧
          pushedOnce s (trackerTurn ord s) (some (.align s.tracker.state U.state U.stable (some (c, U.residual))))) ∧
    ∀ x, losesAt ord s x →
      (trackerTurn ord s).tracker.history = [] ∧
      (trackerTurn ord s).ring.get x = { s.ring.get x with V := (s.ring.get x).W, H := 0, R := (s.ring.get x).W } ∧
      (((trackerTurn ord s).rx.get x).state =
        if lossOf ord x = some .activity then .noSignal else .hunting) ∧
      ∀ m, T.side s.tables.setup.reference = some (x, m) →
        (trackerTurn ord s).tracker.lastCorr = some ⟨x, m, 0⟩ ∧ (trackerTurn ord s).tracker.residual = m ∧
          (trackerTurn ord s).tracker.state = .outOfReach ∧
          raised (trackerTurn ord s) (.align s.tracker.state .outOfReach (some m) (some (⟨x, m, 0⟩, m)))) ∧
  ∀ (lines : Lines) (ord : Order) (s : State), noResetDue s.toPart → s.writes = [] →
    (∀ x, (s.rx.get x).state = .locked → 24 ≤ (s.ring.get x).fill) →
    ∃ t p, exec (.localFrameBoundary lines ord) s = .next t ∧
      p = trackerTurn ord { s.toPart with clock := { s.clock with frame := t.clock.frame } } ∧ t.ring = p.ring ∧
      t.tracker = { p.tracker with inForce := s.tracker.computed, onAir := t.tracker.onAir } ∧
      ∀ x, t.tracker.onAir.get x = true ↔ ∃ g, (t.groups.get g).course = .steady (.rig x) ∨
        ∃ f, (t.groups.get g).course = .fading f ∧ (f.kind.src = .rig x ∨ f.kind.dst = .rig x)

/-- R3, R4, R8, R111, R112, R144, R147, R148: what the part writes on a line it reads back: the header and audio of a program
frame as a forward frame, a gang message in a gang frame, and the table entries of the reads as those of the writes. R6, R7,
R142, R143, R144, R145: the codes, and where each field stands in the summary, in the results of the reads and in the gang
frame, whose status byte of an IDLE or HELD board entry is 0 (log 56, the model's choice). -/
def Obligations.WrittenRecordsReadBack : Prop :=
  (∀ f : ProgramFrame, f.lane.length = 32 → f.audio.length = 24 → (∀ p ∈ f.audio, p.length = 64) →
    f.bytes.length = 4660 ∧ goodCheck 4660 f.bytes = true ∧ (readForward f.bytes).seq = f.seq ∧
      (readForward f.bytes).stamp = f.stamp ∧ frameCue (readForward f.bytes) = f.cue ∧
      readTransport (readForward f.bytes).transport = f.transport ∧ (readForward f.bytes).beat = f.beat ∧
      (readForward f.bytes).lane = f.lane ∧ (readForward f.bytes).audio = f.audio ∧
      frameSelfFault (readForward f.bytes) = false ∧ frameReturnPause (readForward f.bytes) = false) ∧
  (∀ (s : Machine.Part) (m : MoveMsg), m.len ∈ [1, 24, 48, 96, 192, 480, 960] → m.q0 ≤ m.len →
    (m.src ≠ m.dst ∨ m.q0 = m.len) →
    goodCheck 64 (sealFrame (gangCovered s (.move m))) = true ∧
      readGangMsg (sealFrame (gangCovered s (.move m))) = .move m) ∧
  (∀ (s : Machine.Part) (a : AnswerMsg), readGangMsg (sealFrame (gangCovered s (.answer a))) = .answer a) ∧
  (∀ (s : Machine.Part) (p : ProposeMsg) (c : Cond), p.cond = some c → (c.flagBits ≠ 0 ∨ c.timeout ≠ 0#16) →
    readGangMsg (sealFrame (gangCovered s (.propose p))) = .propose p) ∧
  (∀ (g : Fin 16) (e : GroupEntry), readCommand .writeGroup (BitVec.ofNat 8 g.val :: e.bytes) none = .ok (.write (.group g e))) ∧
  (∀ (x : Rig) (c : Fin 8) (e : WatchEntry), readP1 c e.p1 = some e.p1 → readP2 c e.p2 = some e.p2 →
    readCommand .writeWatch ([BitVec.ofNat 8 (rigCode x), BitVec.ofNat 8 c.val] ++ e.bytes) none =
      .ok (.write (.watchCause x c e))) ∧
  (∀ (first : Nat) (es : List RouteEntry), 1 ≤ es.length → first + es.length ≤ 64 →
    (∀ e ∈ es, e.used = true → e.slotA ≠ none ∨ e.slotB ≠ none) →
    readCommand .writeRoute
        ([BitVec.ofNat 8 first, BitVec.ofNat 8 es.length] ++ es.flatMap fun e => e.bytes) none =
      .ok (.write (.route first es))) ∧
  (∀ e : Setup, 48 ≤ e.fill.toNat → e.fill.toNat ≤ 1536 → e.tolerance.toNat ≤ 480 → e.startHold.toNat ≤ 20000 →
    readCommand .writeSetup (be16 e.fill ++ be16 e.tolerance ++
        [BitVec.ofNat 8 (rigCode e.reference), BitVec.ofNat 8 e.alarm.code] ++ be16 e.startHold) none =
      .ok (.write (.setup e))) ∧
  (∀ (x : Rig) (slots : List (Fin 64)) (rest : List Byte), slots ≠ [] → slots.length ≤ 4 → slots.Nodup →
    readCommand .writeWatch ([BitVec.ofNat 8 (rigCode x), 8#8, BitVec.ofNat 8 slots.length] ++
        (slots.map fun n => BitVec.ofNat 8 n.val) ++ rest) none =
      .ok (.write (.watchSlots x slots))) ∧
  ([RxState.noSignal, .hunting, .verifying, .locked].map RxState.code = [0, 1, 2, 3] ∧
    [RigHealth.good, .suspect, .recovering, .failed].map RigHealth.code = [0, 1, 2, 3] ∧
    [Role.solo, .leader, .follower].map Role.code = [0, 1, 2] ∧
    [GangState.off, .seeking, .up, .lost].map GangState.code = [0, 1, 2, 3] ∧
    [LockLevel.opened, .guarded, .frozen].map LockLevel.code = [0, 1, 2] ∧
    [Source.ref, .gang, .rigA, .rigB, .free].map sourceCode = [0, 1, 2, 3, 4] ∧
    [TrackState.noMeasure .waiting, .settling, .aligned, .offset, .misaligned, .outOfReach].map TrackState.code =
      [0, 1, 2, 3, 4, 5] ∧
    [TrackState.settling, .noMeasure .waiting, .noMeasure .stopped, .noMeasure .cueDiff].map TrackState.whyCode =
      [0, 1, 2, 3] ∧
    [Course.steady .dark, .steady (.rig .A), .steady (.rig .B)].map Course.code = [0, 1, 2] ∧
    (∀ f : Fade, Course.code (.fading f) = match f.kind with
      | .aToB => 3 | .bToA => 4 | .aToDark => 5 | .bToDark => 6 | .darkToA => 7 | .darkToB => 8) ∧
    [RefuseReason.none, .noSlot, .broken, .orphan, .tooLong].map RefuseReason.code = [0, 1, 2, 3, 4] ∧
    [SaveState.none, .saving, .ok, .storeFailed].map SaveState.code = [0, 1, 2, 3] ∧
    [CauseState.clear, .pending, .confirmed, .clearing].map CauseState.code = [0, 1, 2, 3]) ∧
  (∀ (s : Machine.Part) (r : Rig) (confirmed : PerRig (BitVec 8)) (offset : Half),
    (∀ x (c : Fin 8), (confirmed.get x).getLsbD c.val = true ↔ ((s.health.get x).causes.get c).state = .confirmed) →
    offset.toInt = max (-32767) (min 32767 (s.tracker.stable.getD 0)) →
    summaryBytes s r =
      [s.clock.frame.extractLsb' 8 8, s.clock.frame.extractLsb' 0 8,
        BitVec.ofNat 8 (16 * s.gang.role.code + s.gang.state.code),
        BitVec.ofNat 8 (s.lock.level.code + 4 * bit s.lock.key + 8 * bit (relay s) + 16 * sourceCode s.clock.selected),
        BitVec.ofNat 8 (16 * (s.rx.get .A).state.code + (s.health.get .A).health.code), confirmed.a,
        BitVec.ofNat 8 (16 * (s.rx.get .B).state.code + (s.health.get .B).health.code), confirmed.b,
        BitVec.ofNat 8 (16 * s.tracker.state.code + s.tracker.state.whyCode),
        offset.extractLsb' 8 8, offset.extractLsb' 0 8] ++
      ([(0, 1), (2, 3), (4, 5), (6, 7), (8, 9), (10, 11), (12, 13), (14, 15)].map fun (g : Fin 16 × Fin 16) =>
        BitVec.ofNat 8 (16 * (s.groups.get g.1).course.code + (s.groups.get g.2).course.code)) ++
      [BitVec.ofNat 8 (8 - ((s.port.get r).slots.filter fun h => !h.reserved).length), (s.port.get r).refTag,
        BitVec.ofNat 8 (s.port.get r).refReason.code, BitVec.ofNat 8 s.store.save.code,
        BitVec.ofNat 8 (bit s.store.storeValid + 2 * bit (s.port.get r).lane.gapFlag)]) ∧
  (∀ (l : Lane), l.gapFlag = true ↔
    l.gapPending = true ∨ ∃ m, l.inSend = some m ∧ m.kind = .notice true) ∧
  (∀ (s : Machine.Part) (r : Rig) (failedOver dark bound : Half),
    (∀ g : Fin 16, failedOver.getLsbD g.val = (s.groups.get g).failedOver ∧
      dark.getLsbD g.val = (s.groups.get g).darkByRequest ∧
      bound.getLsbD g.val = (s.groups.get g).binding.isSome) →
    statusBytes s r = summaryBytes s r ++ be16 s.tables.setup.fill ++ be16 s.tables.setup.tolerance ++
      [BitVec.ofNat 8 (rigCode s.tables.setup.reference), BitVec.ofNat 8 s.tables.setup.alarm.code] ++
      be16 s.tables.setup.startHold ++ [BitVec.ofNat 8 (bit s.takeover.done + 2 * bit s.panel.bypass)] ++
      be16 failedOver ++ be16 dark ++ be16 bound ++
      [BitVec.ofNat 8 (bit (tally s .A) + 2 * bit (tally s .B) + 4 * bit (alarm s))]) ∧
  (∀ (s : Machine.Part) (x : Rig), healthBytes s x =
    [BitVec.ofNat 8 (rigCode x)] ++
      ([Cause.linkDown, .frameErrors, .stampStall, .stampJump, .beatLost, .silence, .slip, .selfFault].flatMap fun c =>
        BitVec.ofNat 8 (bit ((s.tables.watch.get x).causes.get c.idx).enabled +
          2 * bit (activity (s.rx.get x) (s.tables.watch.get x) (s.health.get x) c) +
          4 * ((s.health.get x).causes.get c.idx).state.code) ::
            be16 (BitVec.ofNat 16 ((s.health.get x).causes.get c.idx).timer)) ++
      be16 (BitVec.ofNat 16 (s.health.get x).beatAge) ++ be16 (BitVec.ofNat 16 (s.health.get x).silenceRun) ++
      be16 (BitVec.ofNat 16 (s.health.get x).slipWindow) ++
      [BitVec.ofNat 8 (bit (s.health.get x).mark + 2 * bit (s.rx.get x).selfFault), (s.health.get x).sticky,
        BitVec.ofNat 8 (s.health.get x).health.code, (s.health.get x).published]) ∧
  (∀ (s : Machine.Part) (x : Rig) (c : Counters), c = (s.rx.get x).counters →
    countBytes s x = [BitVec.ofNat 8 (rigCode x)] ++ be32 c.good ++ be32 c.bad ++ be32 c.lost ++ be32 c.concealed ++
      be32 c.skipSlips ++ be32 c.repeatSlips ++ be32 c.resyncs) ∧
  (∀ (s : Machine.Part) (flags : Byte) (meas corr : List Byte),
    flags = BitVec.ofNat 8
      (bit s.tracker.stable.isSome + 2 * bit s.tracker.lastMeas.isSome + 4 * bit s.tracker.lastCorr.isSome) →
    ((∃ m frame, s.tracker.lastMeas = some (m, frame) ∧ meas = be32 (BitVec.ofInt 32 m) ++ be32 frame) ∨
      (s.tracker.lastMeas = none ∧ meas = List.replicate 8 0#8)) →
    ((∃ c, s.tracker.lastCorr = some c ∧ corr =
        [BitVec.ofNat 8 (rigCode c.side)] ++ be32 (BitVec.ofInt 32 c.m) ++ be32 (BitVec.ofInt 32 c.applied)) ∨
      (s.tracker.lastCorr = none ∧ corr = List.replicate 9 0#8)) →
    alignBytes s = [BitVec.ofNat 8 s.tracker.state.code, BitVec.ofNat 8 s.tracker.state.whyCode, flags] ++
      be32 (BitVec.ofInt 32 (s.tracker.stable.getD 0)) ++ meas ++
      be32 ((s.ring.get .A).W - (s.ring.get .A).R) ++ be32 ((s.ring.get .B).W - (s.ring.get .B).R) ++
      be32 (BitVec.ofInt 32 s.tracker.residual) ++ corr) ∧
  (∀ (s : Machine.Part) (m : GangMsg) (ganged : Half) (board : List Byte),
    (∀ g : Fin 16, ganged.getLsbD g.val = true ↔ s.gang.role ≠ .solo ∧ (groupEntry s g).ganged = true) →
    (board = if s.gang.role = .leader then
        (List.finRange 8).flatMap fun k => match s.gang.board.get k with
          | ⟨round, .idle⟩ => [BitVec.ofNat 8 (128 * bit round), 0#8]
          | ⟨round, .held _ _⟩ => [BitVec.ofNat 8 (128 * bit round + 1), 0#8]
          | ⟨round, .answered st⟩ => [BitVec.ofNat 8 (128 * bit round + 2), BitVec.ofNat 8 st.code]
      else List.replicate 16 0#8) →
    gangCovered s m = [BitVec.ofNat 8 s.gang.role.code, BitVec.ofNat 8 s.gang.state.code] ++ be32 s.clock.frame ++
      [(s.health.get .A).published, (s.health.get .B).published] ++ be16 ganged ++
      ([(0, 1), (2, 3), (4, 5), (6, 7), (8, 9), (10, 11), (12, 13), (14, 15)].map fun (g : Fin 16 × Fin 16) =>
        BitVec.ofNat 8 (16 * (s.groups.get g.1).course.code + (s.groups.get g.2).course.code)) ++
      board ++ m.bytes ++ [0#8, 0#8, 0#8, 0#8]) ∧
  (∀ (s : Machine.Part) (first count : Nat),
    routeBytes s first count = [BitVec.ofNat 8 first, BitVec.ofNat 8 count] ++
      (((List.finRange 64).filter fun k => first ≤ k.val && k.val < first + count).flatMap fun k =>
        (s.tables.routes.get k).bytes) ∧
    groupBytes s first count = [BitVec.ofNat 8 first, BitVec.ofNat 8 count] ++
      (((List.finRange 16).filter fun g => first ≤ g.val && g.val < first + count).flatMap fun g =>
        (s.tables.groups.get g).bytes)) ∧
  (∀ (s : Machine.Part) (x : Rig) (w : WatchRig), w = s.tables.watch.get x →
    watchBytes s x = [BitVec.ofNat 8 (rigCode x)] ++ ((List.finRange 8).flatMap fun c => (w.causes.get c).bytes) ++
      [BitVec.ofNat 8 w.slots.length] ++ (w.slots.map fun n => BitVec.ofNat 8 n.val) ++
      List.replicate (4 - w.slots.length) 0xFF#8) ∧
  (∀ e : RouteEntry, e.bytes =
    [BitVec.ofNat 8 (128 * bit e.used + e.group.val),
      match e.slotA with | some n => BitVec.ofNat 8 n.val | none => 0xFF#8,
      match e.slotB with | some n => BitVec.ofNat 8 n.val | none => 0xFF#8]) ∧
  (∀ e : WatchEntry, e.bytes =
    [BitVec.ofNat 8 (bit e.enabled), e.confirm.extractLsb' 8 8, e.confirm.extractLsb' 0 8, e.clear.extractLsb' 8 8,
      e.clear.extractLsb' 0 8, e.p1.extractLsb' 16 8, e.p1.extractLsb' 8 8, e.p1.extractLsb' 0 8,
      e.p2.extractLsb' 8 8, e.p2.extractLsb' 0 8]) ∧
  (∀ e : GroupEntry, e.bytes =
    [BitVec.ofNat 8 e.mode.code, BitVec.ofNat 8 (rigCode e.home), e.mask, BitVec.ofNat 8 e.fade.val,
      BitVec.ofNat 8 e.law.code, BitVec.ofNat 8 e.policy.code, e.hold.extractLsb' 8 8, e.hold.extractLsb' 0 8,
      BitVec.ofNat 8 (bit e.requireAlign), BitVec.ofNat 8 e.lastResort.code, BitVec.ofNat 8 (bit e.isProtected),
      BitVec.ofNat 8 (bit e.ganged)]) ∧
  ([Mode.auto, .manual, .fixed].map Mode.code = [0, 1, 2] ∧ [Law.linear, .smooth].map Law.code = [0, 1] ∧
    [ReturnPolicy.stay, .returnHold, .returnAtStop].map ReturnPolicy.code = [0, 1, 2] ∧
    [LastResort.stayOnFailed, .goDark].map LastResort.code = [0, 1] ∧
    [AlarmMode.level, .pulse].map AlarmMode.code = [0, 1] ∧ [Rig.A, .B].map rigCode = [0, 1]) ∧
  (∀ x : Half, be16 x = [x.extractLsb' 8 8, x.extractLsb' 0 8]) ∧
  ∀ x : Word, be32 x = [x.extractLsb' 24 8, x.extractLsb' 16 8, x.extractLsb' 8 8, x.extractLsb' 0 8]
end

