-- ==== Sys2Proof/Laws/State.lean ====
section
/-! SUPPORT. What each field holds after each update of one rig's, one group's or the tables' state, and what the
containers and counts hold after a read or a write. -/

namespace Sys2Proof.Machine

/-! ## Containers -/

@[simp] theorem PerRig.get_set_self {α : Type} (p : PerRig α) (r : Rig) (x : α) : (p.set r x).get r = x := by
  cases r <;> rfl

@[simp] theorem PerRig.get_set_other {α : Type} (p : PerRig α) (r : Rig) (x : α) :
    (p.set r x).get r.other = p.get r.other := by cases r <;> rfl

theorem PerRig.get_set {α : Type} (p : PerRig α) (r q : Rig) (x : α) :
    (p.set r x).get q = if q = r then x else p.get q := by cases r <;> cases q <;> rfl

@[simp] theorem PerRig.get_map {α β : Type} (f : α → β) (p : PerRig α) (r : Rig) : (p.map f).get r = f (p.get r) := by
  cases r <;> rfl

@[simp] theorem PerRig.get_both {α : Type} (x : α) (r : Rig) : (PerRig.both x).get r = x := by cases r <;> rfl

@[simp] theorem PerRig.get_A {α : Type} (p : PerRig α) : p.get .A = p.a := rfl
@[simp] theorem PerRig.get_B {α : Type} (p : PerRig α) : p.get .B = p.b := rfl

theorem PerRig.forall_get {α : Type} {p : PerRig α} {P : α → Prop} : (∀ r, P (p.get r)) ↔ P p.a ∧ P p.b :=
  ⟨fun h => ⟨h .A, h .B⟩, fun h r => by cases r <;> simp [PerRig.get, h]⟩

theorem Tbl.ext_cells {n : Nat} {α : Type} {t u : Tbl n α} (h : t.cells = u.cells) : t = u := by
  cases t; cases u; simp_all

@[simp] theorem Tbl.get_set_self {n : Nat} {α : Type} (t : Tbl n α) (i : Fin n) (x : α) : (t.set i x).get i = x := by
  simp [Tbl.get, Tbl.set]

theorem Tbl.get_set {n : Nat} {α : Type} (t : Tbl n α) (i j : Fin n) (x : α) :
    (t.set i x).get j = if j = i then x else t.get j := by
  simp only [Tbl.get, Tbl.set, List.getElem_set]
  by_cases h : j = i
  · simp [h]
  · have : ¬ i.val = j.val := fun e => h (Fin.ext e.symm)
    simp [h, this]

theorem Tbl.get_set_other {n : Nat} {α : Type} (t : Tbl n α) {i j : Fin n} (x : α) (h : j ≠ i) :
    (t.set i x).get j = t.get j := by simp [Tbl.get_set, h]

@[simp] theorem Tbl.get_map {n : Nat} {α β : Type} (f : α → β) (t : Tbl n α) (i : Fin n) :
    (t.map f).get i = f (t.get i) := by simp [Tbl.get, Tbl.map]

@[simp] theorem Tbl.get_ofFn {n : Nat} {α : Type} (f : Fin n → α) (i : Fin n) : (Tbl.ofFn f).get i = f i := by
  simp [Tbl.get, Tbl.ofFn]

@[simp] theorem Tbl.get_fill {n : Nat} {α : Type} (x : α) (i : Fin n) : (Tbl.fill x : Tbl n α).get i = x := by
  simp [Tbl.get, Tbl.fill]

theorem Tbl.ext_get {n : Nat} {α : Type} {t u : Tbl n α} (h : ∀ i, t.get i = u.get i) : t = u := by
  apply Tbl.ext_cells
  apply List.ext_getElem (by rw [t.len, u.len])
  intro i h1 _
  exact h ⟨i, by rw [← t.len]; exact h1⟩

/-! ## Counts -/

theorem rise_le (n lim : Nat) : rise n lim ≤ lim := Nat.min_le_right _ _

@[simp] theorem Rig.other_other (r : Rig) : r.other.other = r := by cases r <;> rfl
@[simp] theorem Rig.other_ne (r : Rig) : r.other ≠ r := by cases r <;> decide

/-! ## Fields after an update -/

section
variable (s : Part) (r : Rig) (x : Receiver)
@[simp] theorem setRx_rx : (s.setRx r x).rx = s.rx.set r x := rfl
@[simp] theorem setRx_clock : (s.setRx r x).clock = s.clock := rfl
@[simp] theorem setRx_ring : (s.setRx r x).ring = s.ring := rfl
@[simp] theorem setRx_tracker : (s.setRx r x).tracker = s.tracker := rfl
@[simp] theorem setRx_health : (s.setRx r x).health = s.health := rfl
@[simp] theorem setRx_tables : (s.setRx r x).tables = s.tables := rfl
@[simp] theorem setRx_writes : (s.setRx r x).writes = s.writes := rfl
@[simp] theorem setRx_groups : (s.setRx r x).groups = s.groups := rfl
@[simp] theorem setRx_takeover : (s.setRx r x).takeover = s.takeover := rfl
@[simp] theorem setRx_samples : (s.setRx r x).samples = s.samples := rfl
@[simp] theorem setRx_program : (s.setRx r x).program = s.program := rfl
@[simp] theorem setRx_port : (s.setRx r x).port = s.port := rfl
@[simp] theorem setRx_nextId : (s.setRx r x).nextId = s.nextId := rfl
@[simp] theorem setRx_resetRequested : (s.setRx r x).resetRequested = s.resetRequested := rfl
@[simp] theorem setRx_inReset : (s.setRx r x).inReset = s.inReset := rfl
@[simp] theorem setRx_gang : (s.setRx r x).gang = s.gang := rfl
@[simp] theorem setRx_lock : (s.setRx r x).lock = s.lock := rfl
@[simp] theorem setRx_store : (s.setRx r x).store = s.store := rfl
@[simp] theorem setRx_panel : (s.setRx r x).panel = s.panel := rfl
end

section
variable (s : Part) (r : Rig) (x : Ring)
@[simp] theorem setRing_rx : (s.setRing r x).rx = s.rx := rfl
@[simp] theorem setRing_clock : (s.setRing r x).clock = s.clock := rfl
@[simp] theorem setRing_ring : (s.setRing r x).ring = s.ring.set r x := rfl
@[simp] theorem setRing_tracker : (s.setRing r x).tracker = s.tracker := rfl
@[simp] theorem setRing_health : (s.setRing r x).health = s.health := rfl
@[simp] theorem setRing_tables : (s.setRing r x).tables = s.tables := rfl
@[simp] theorem setRing_writes : (s.setRing r x).writes = s.writes := rfl
@[simp] theorem setRing_groups : (s.setRing r x).groups = s.groups := rfl
@[simp] theorem setRing_takeover : (s.setRing r x).takeover = s.takeover := rfl
@[simp] theorem setRing_samples : (s.setRing r x).samples = s.samples := rfl
@[simp] theorem setRing_program : (s.setRing r x).program = s.program := rfl
@[simp] theorem setRing_port : (s.setRing r x).port = s.port := rfl
@[simp] theorem setRing_nextId : (s.setRing r x).nextId = s.nextId := rfl
@[simp] theorem setRing_resetRequested : (s.setRing r x).resetRequested = s.resetRequested := rfl
@[simp] theorem setRing_inReset : (s.setRing r x).inReset = s.inReset := rfl
@[simp] theorem setRing_gang : (s.setRing r x).gang = s.gang := rfl
@[simp] theorem setRing_lock : (s.setRing r x).lock = s.lock := rfl
@[simp] theorem setRing_store : (s.setRing r x).store = s.store := rfl
@[simp] theorem setRing_panel : (s.setRing r x).panel = s.panel := rfl
end

section
variable (s : Part) (r : Rig) (x : Health)
@[simp] theorem setHealth_rx : (s.setHealth r x).rx = s.rx := rfl
@[simp] theorem setHealth_clock : (s.setHealth r x).clock = s.clock := rfl
@[simp] theorem setHealth_ring : (s.setHealth r x).ring = s.ring := rfl
@[simp] theorem setHealth_tracker : (s.setHealth r x).tracker = s.tracker := rfl
@[simp] theorem setHealth_health : (s.setHealth r x).health = s.health.set r x := rfl
@[simp] theorem setHealth_tables : (s.setHealth r x).tables = s.tables := rfl
@[simp] theorem setHealth_writes : (s.setHealth r x).writes = s.writes := rfl
@[simp] theorem setHealth_groups : (s.setHealth r x).groups = s.groups := rfl
@[simp] theorem setHealth_takeover : (s.setHealth r x).takeover = s.takeover := rfl
@[simp] theorem setHealth_samples : (s.setHealth r x).samples = s.samples := rfl
@[simp] theorem setHealth_program : (s.setHealth r x).program = s.program := rfl
@[simp] theorem setHealth_port : (s.setHealth r x).port = s.port := rfl
@[simp] theorem setHealth_nextId : (s.setHealth r x).nextId = s.nextId := rfl
@[simp] theorem setHealth_resetRequested : (s.setHealth r x).resetRequested = s.resetRequested := rfl
@[simp] theorem setHealth_inReset : (s.setHealth r x).inReset = s.inReset := rfl
@[simp] theorem setHealth_gang : (s.setHealth r x).gang = s.gang := rfl
@[simp] theorem setHealth_lock : (s.setHealth r x).lock = s.lock := rfl
@[simp] theorem setHealth_store : (s.setHealth r x).store = s.store := rfl
@[simp] theorem setHealth_panel : (s.setHealth r x).panel = s.panel := rfl
end

section
variable (s : Part) (r : Rig) (x : Port)
@[simp] theorem setPort_rx : (s.setPort r x).rx = s.rx := rfl
@[simp] theorem setPort_clock : (s.setPort r x).clock = s.clock := rfl
@[simp] theorem setPort_ring : (s.setPort r x).ring = s.ring := rfl
@[simp] theorem setPort_tracker : (s.setPort r x).tracker = s.tracker := rfl
@[simp] theorem setPort_health : (s.setPort r x).health = s.health := rfl
@[simp] theorem setPort_tables : (s.setPort r x).tables = s.tables := rfl
@[simp] theorem setPort_writes : (s.setPort r x).writes = s.writes := rfl
@[simp] theorem setPort_groups : (s.setPort r x).groups = s.groups := rfl
@[simp] theorem setPort_takeover : (s.setPort r x).takeover = s.takeover := rfl
@[simp] theorem setPort_samples : (s.setPort r x).samples = s.samples := rfl
@[simp] theorem setPort_program : (s.setPort r x).program = s.program := rfl
@[simp] theorem setPort_port : (s.setPort r x).port = s.port.set r x := rfl
@[simp] theorem setPort_nextId : (s.setPort r x).nextId = s.nextId := rfl
@[simp] theorem setPort_resetRequested : (s.setPort r x).resetRequested = s.resetRequested := rfl
@[simp] theorem setPort_inReset : (s.setPort r x).inReset = s.inReset := rfl
@[simp] theorem setPort_gang : (s.setPort r x).gang = s.gang := rfl
@[simp] theorem setPort_lock : (s.setPort r x).lock = s.lock := rfl
@[simp] theorem setPort_store : (s.setPort r x).store = s.store := rfl
@[simp] theorem setPort_panel : (s.setPort r x).panel = s.panel := rfl
end

section
variable (s : Part) (g : Fin 16) (x : GroupRec)
@[simp] theorem setGroup_rx : (s.setGroup g x).rx = s.rx := rfl
@[simp] theorem setGroup_clock : (s.setGroup g x).clock = s.clock := rfl
@[simp] theorem setGroup_ring : (s.setGroup g x).ring = s.ring := rfl
@[simp] theorem setGroup_tracker : (s.setGroup g x).tracker = s.tracker := rfl
@[simp] theorem setGroup_health : (s.setGroup g x).health = s.health := rfl
@[simp] theorem setGroup_tables : (s.setGroup g x).tables = s.tables := rfl
@[simp] theorem setGroup_writes : (s.setGroup g x).writes = s.writes := rfl
@[simp] theorem setGroup_groups : (s.setGroup g x).groups = s.groups.set g x := rfl
@[simp] theorem setGroup_takeover : (s.setGroup g x).takeover = s.takeover := rfl
@[simp] theorem setGroup_samples : (s.setGroup g x).samples = s.samples := rfl
@[simp] theorem setGroup_program : (s.setGroup g x).program = s.program := rfl
@[simp] theorem setGroup_port : (s.setGroup g x).port = s.port := rfl
@[simp] theorem setGroup_nextId : (s.setGroup g x).nextId = s.nextId := rfl
@[simp] theorem setGroup_resetRequested : (s.setGroup g x).resetRequested = s.resetRequested := rfl
@[simp] theorem setGroup_inReset : (s.setGroup g x).inReset = s.inReset := rfl
@[simp] theorem setGroup_gang : (s.setGroup g x).gang = s.gang := rfl
@[simp] theorem setGroup_lock : (s.setGroup g x).lock = s.lock := rfl
@[simp] theorem setGroup_store : (s.setGroup g x).store = s.store := rfl
@[simp] theorem setGroup_panel : (s.setGroup g x).panel = s.panel := rfl
end

section
variable (s : Part) (t : Tables)
@[simp] theorem setTables_rx : (s.setTables t).rx = s.rx := rfl
@[simp] theorem setTables_clock : (s.setTables t).clock = s.clock := rfl
@[simp] theorem setTables_ring : (s.setTables t).ring = s.ring := rfl
@[simp] theorem setTables_tracker : (s.setTables t).tracker = s.tracker := rfl
@[simp] theorem setTables_health : (s.setTables t).health = s.health := rfl
@[simp] theorem setTables_tables : (s.setTables t).tables = t := rfl
@[simp] theorem setTables_writes : (s.setTables t).writes = s.writes := rfl
@[simp] theorem setTables_groups : (s.setTables t).groups = s.groups := rfl
@[simp] theorem setTables_takeover : (s.setTables t).takeover = s.takeover := rfl
@[simp] theorem setTables_samples : (s.setTables t).samples = s.samples := rfl
@[simp] theorem setTables_program : (s.setTables t).program = s.program := rfl
@[simp] theorem setTables_port : (s.setTables t).port = s.port := rfl
@[simp] theorem setTables_nextId : (s.setTables t).nextId = s.nextId := rfl
@[simp] theorem setTables_resetRequested : (s.setTables t).resetRequested = s.resetRequested := rfl
@[simp] theorem setTables_inReset : (s.setTables t).inReset = s.inReset := rfl
@[simp] theorem setTables_gang : (s.setTables t).gang = s.gang := rfl
@[simp] theorem setTables_lock : (s.setTables t).lock = s.lock := rfl
@[simp] theorem setTables_store : (s.setTables t).store = s.store := rfl
@[simp] theorem setTables_panel : (s.setTables t).panel = s.panel := rfl
end

/-! ## Masks and requests -/

/-- A bit of a mask is set for the members that its predicate holds of. -/
theorem maskOf_getLsbD {w : Nat} (p : Fin w → Bool) (i : Fin w) : (maskOf w p).getLsbD i.val = p i := by
  have key : ∀ (l : List (Fin w)) (m : BitVec w),
      (l.foldl (fun m j => if p j then m ||| BitVec.twoPow w j.val else m) m).getLsbD i.val =
        (m.getLsbD i.val || (decide (i ∈ l) && p i)) := by
    intro l
    induction l with
    | nil => intro m; simp
    | cons j l ih =>
      intro m
      rw [List.foldl_cons, ih]
      by_cases hj : i = j
      · subst hj
        cases hp : p i <;> simp
      · have hne : i.val ≠ j.val := fun h => hj (Fin.ext h)
        cases hp : p j <;> simp [hj, hne]
  unfold maskOf
  rw [key]; simp

@[simp] theorem inMask_maskOf {w : Nat} (p : Fin w → Bool) (i : Fin w) : inMask (maskOf w p) i = p i :=
  maskOf_getLsbD p i

/-- R89: a later request replaces one with another destination, and one with another binding where it carries one. -/
theorem Request.replaces_iff (later q : Request) :
    later.replaces q = true ↔ later.dest ≠ q.dest ∨ (later.owner ≠ none ∧ later.owner ≠ q.owner) := by
  unfold Request.replaces
  cases later.owner <;> simp

/-- With no request there is nothing to supersede but the group's own binding. -/
@[simp] theorem settleBinding_nil (g : Fin 16) (s : Part) : settleBinding g [] s = supersedeIfElsewhere g s := rfl

end Sys2Proof.Machine
end

