-- ==== Sys2Proof/Laws/Keeps.lean ====
section
/-! SUPPORT. Which blocks each shared operation may change, one lemma for each operation, and how the lemmas join. -/

namespace Sys2Proof.Machine

/-! ## Joining -/

theorem Same.refl (F : List Block) (s : Part) : Same F s s := by intro b _; cases b <;> rfl

theorem Block.agrees_trans {b : Block} {s t u : Part} (h : b.agrees s t) (k : b.agrees t u) : b.agrees s u := by
  cases b <;> exact k.trans h

theorem Same.trans {F : List Block} {s t u : Part} (h : Same F s t) (k : Same F t u) : Same F s u :=
  fun b hb => Block.agrees_trans (h b hb) (k b hb)

theorem Same.mono {F : List Block} {s t : Part} (h : Same F s t) {G : List Block}
    (sub : F.all (fun b => G.contains b) = true) : Same G s t := by
  intro b hb
  refine h b fun hF => hb ?_
  have := List.all_eq_true.mp sub b hF
  simpa using this

/-- Two changes in turn, in lists that a larger one holds. -/
theorem Same.step {F G K : List Block} {s t u : Part} (h : Same F s t) (k : Same G t u)
    (sub : (F ++ G).all (fun b => K.contains b) = true) : Same K s u := by
  rw [List.all_append, Bool.and_eq_true] at sub
  exact (h.mono sub.1).trans (k.mono sub.2)

theorem Same.foldl {α : Type} {F : List Block} {f : Part → α → Part} (h : ∀ s a, Same F s (f s a)) (l : List α)
    (s : Part) : Same F s (l.foldl f s) := by
  induction l generalizing s with
  | nil => exact Same.refl F s
  | cons a l ih => exact (h s a).trans (ih (f s a))

theorem Same.get {F : List Block} {s t : Part} (h : Same F s t) (b : Block) (hb : F.contains b = false) : b.agrees s t :=
  h b (by simpa using hb)

/-! ## Ops.lean -/

theorem setRx_same (r : Rig) (x : Receiver) (s : Part) : Same [.rx] s (s.setRx r x) := by
  intro b hb; cases b <;> first | rfl | simp at hb
theorem setRing_same (r : Rig) (x : Ring) (s : Part) : Same [.ring] s (s.setRing r x) := by
  intro b hb; cases b <;> first | rfl | simp at hb
theorem setHealth_same (r : Rig) (x : Health) (s : Part) : Same [.health] s (s.setHealth r x) := by
  intro b hb; cases b <;> first | rfl | simp at hb
theorem setPort_same (r : Rig) (x : Port) (s : Part) : Same [.port] s (s.setPort r x) := by
  intro b hb; cases b <;> first | rfl | simp at hb
theorem setGroup_same (g : Fin 16) (x : GroupRec) (s : Part) : Same [.groups] s (s.setGroup g x) := by
  intro b hb; cases b <;> first | rfl | simp at hb
theorem setTables_same (x : Tables) (s : Part) : Same [.tables] s (s.setTables x) := by
  intro b hb; cases b <;> first | rfl | simp at hb
theorem withGang_same (x : Gang) (s : Part) : Same [.gang] s { s with gang := x } := by
  intro b hb; cases b <;> first | rfl | simp at hb
theorem withClock_same (x : FrameClock) (s : Part) : Same [.clock] s { s with clock := x } := by
  intro b hb; cases b <;> first | rfl | simp at hb
theorem withTracker_same (x : Tracker) (s : Part) : Same [.tracker] s { s with tracker := x } := by
  intro b hb; cases b <;> first | rfl | simp at hb
theorem withPanel_same (x : Panel) (s : Part) : Same [.panel] s { s with panel := x } := by
  intro b hb; cases b <;> first | rfl | simp at hb
theorem withLock_same (x : ShowLock) (s : Part) : Same [.lock] s { s with lock := x } := by
  intro b hb; cases b <;> first | rfl | simp at hb
theorem withStore_same (x : Store) (s : Part) : Same [.store] s { s with store := x } := by
  intro b hb; cases b <;> first | rfl | simp at hb
theorem withWrites_same (x : List PendingWrite) (s : Part) : Same [.writes] s { s with writes := x } := by
  intro b hb; cases b <;> first | rfl | simp at hb
theorem withProgram_same (x : Program) (s : Part) : Same [.program] s { s with program := x } := by
  intro b hb; cases b <;> first | rfl | simp at hb
theorem withGroups_same (x : Tbl 16 GroupRec) (s : Part) : Same [.groups] s { s with groups := x } := by
  intro b hb; cases b <;> first | rfl | simp at hb
theorem withTakeover_same (x : Takeover) (s : Part) : Same [.takeover] s { s with takeover := x } := by
  intro b hb; cases b <;> first | rfl | simp at hb

theorem raise_same (n : NoticeBody) (s : Part) : Same [.port, .program] s (raise n s) := by
  intro b hb; cases b <;> first | rfl | simp at hb

theorem respond_same (r : Rig) (id : Nat) (st : Status) (i : Nat) (res : List Byte) (s : Part) :
    Same [.port] s (respond r id st i res s) := setPort_same _ _ _
theorem setPhase_same (r : Rig) (id : Nat) (ph : Phase) (s : Part) : Same [.port] s (setPhase r id ph s) :=
  setPort_same _ _ _
theorem refuseMessage_same (r : Rig) (tag : Byte) (why : RefuseReason) (s : Part) :
    Same [.port] s (refuseMessage r tag why s) := setPort_same _ _ _

theorem setStage_same (o : Owner) (st : Stage) (s : Part) : Same [.port, .gang] s (setStage o st s) := by
  unfold setStage
  repeat' split
  all_goals first
    | with_reducible exact Same.refl _ _
    | exact (setPhase_same _ _ _ _).mono (by decide)
    | exact (withGang_same _ _).mono (by decide)

theorem unbind_same (o : Owner) (s : Part) : Same [.groups] s (unbind o s) := by
  intro b hb; cases b <;> first | rfl | simp at hb

theorem endOwner_same (o : Owner) (st : Status) (res : List Byte) (s : Part) :
    Same [.port, .gang, .groups] s (endOwner o st res s) := by
  unfold endOwner
  repeat' split
  all_goals first
    | with_reducible exact Same.refl _ _
    | (dsimp only; split
       · exact ((setPhase_same _ _ _ _).step (unbind_same _ _) (K := [.port, .groups]) (by decide)).step
           (respond_same _ _ _ _ _ _) (by decide)
       · exact (setPhase_same _ _ _ _).step (unbind_same _ _) (by decide))
    | exact (withGang_same _ _).step (unbind_same _ _) (by decide)

theorem supersede_same (o : Owner) (g : Fin 16) (s : Part) : Same [.port, .gang, .groups] s (supersede o g s) := by
  unfold supersede; split
  · exact endOwner_same _ _ _ _
  · exact Same.refl _ _

theorem settleArrival_same (o : Owner) (s : Part) : Same [.port, .gang, .groups] s (settleArrival o s) := by
  unfold settleArrival
  repeat' split
  all_goals first | with_reducible exact Same.refl _ _ | exact endOwner_same _ _ _ _

theorem settleArrivals_same (s : Part) : Same [.port, .gang, .groups] s (settleArrivals s) :=
  Same.foldl (fun s o => settleArrival_same o s) _ s

theorem selectSource_same (src : Source) (loss : Bool) (s : Part) :
    Same [.clock, .port, .program] s (selectSource src loss s) :=
  (withClock_same _ _).step (raise_same _ _) (by decide)

theorem sourceLost_same (src : Source) (s : Part) : Same [.clock, .port, .program] s (sourceLost src s) := by
  unfold sourceLost; dsimp only; split
  · exact (withClock_same _ _).step (selectSource_same _ _ _) (by decide)
  · exact (withClock_same _ _).mono (by decide)

theorem clearHistory_same (s : Part) : Same [.tracker] s (clearHistory s) := withTracker_same _ _

theorem flushRing_same (r : Rig) (s : Part) : Same [.ring, .tracker] s (flushRing r s) :=
  (setRing_same _ _ _).step (clearHistory_same _) (by decide)

theorem reportSkip_same (r : Rig) (s : Part) : Same [.rx, .health] s (reportSkip r s) :=
  (setRx_same _ _ _).step (setHealth_same _ _ _) (by decide)

theorem writeFrame_same (r : Rig) (rep : Report) (s : Part) : Same frameBlocks s (writeFrame r rep s) := by
  unfold writeFrame
  dsimp only
  have h1 : Same frameBlocks s (if ((s.ring.get r).take rep s.tables.setup.fill).2 = true then reportSkip r s else s) := by
    split
    · exact (reportSkip_same r s).mono (by decide)
    · exact Same.refl _ _
  split
  · exact ((h1.step (setRing_same _ _ _) (K := frameBlocks) (by decide)).step (setHealth_same _ _ _)
      (K := frameBlocks) (by decide)).step (clearHistory_same _) (by decide)
  · exact (h1.step (setRing_same _ _ _) (K := frameBlocks) (by decide)).step (setHealth_same _ _ _) (by decide)

theorem relayChange_same (c old : Bool) (s : Part) : Same [.port, .program] s (relayChange c old s) := by
  unfold relayChange; split
  · exact raise_same _ _
  · exact Same.refl _ _

theorem setLevel_same (l : LockLevel) (k : Bool) (s : Part) : Same [.lock, .port, .program] s (setLevel l k s) := by
  unfold setLevel; split
  · exact Same.refl _ _
  · exact (withLock_same _ _).step (raise_same _ _) (by decide)

theorem queueMove_same (m : MoveMsg) (s : Part) : Same [.gang] s (queueMove m s) := withGang_same _ _

/-! ## Groups.lean -/

theorem tickFades_same (s : Part) : Same [.groups] s (tickFades s) := withGroups_same _ _

theorem completeFade_same (g : Fin 16) (s : Part) : Same [.groups, .port, .program] s (completeFade g s) := by
  unfold completeFade
  repeat' split
  all_goals first
    | with_reducible exact Same.refl _ _
    | exact (setGroup_same _ _ _).step (raise_same _ _) (by decide)

theorem completeFades_same (s : Part) : Same [.groups, .port, .program] s (completeFades s) :=
  Same.foldl (fun s g => completeFade_same g s) _ s

theorem announce_same (g : Fin 16) (f : Fade) (s : Part) : Same [.port, .program, .gang] s (announce g f s) := by
  unfold announce; dsimp only; split
  · exact (raise_same _ _).step (queueMove_same _ _) (by decide)
  · exact (raise_same _ _).mono (by decide)

theorem supersedeIfElsewhere_same (g : Fin 16) (s : Part) :
    Same [.port, .gang, .groups] s (supersedeIfElsewhere g s) := by
  unfold supersedeIfElsewhere
  repeat' split
  all_goals first | with_reducible exact Same.refl _ _ | exact supersede_same _ _ _

theorem supersedeReplaced_same (g : Fin 16) (q : List Request) (s : Part) :
    Same [.port, .gang, .groups] s (supersedeReplaced g q s) :=
  Same.foldl (fun _ _ => supersede_same _ _ _) _ s

theorem settleBinding_same (g : Fin 16) (q : List Request) (s : Part) :
    Same [.port, .gang, .groups] s (settleBinding g q s) :=
  (supersedeReplaced_same _ _ _).trans (supersedeIfElsewhere_same _ _)

theorem refuseRequests_same (st : Status) (g : Fin 16) (s : Part) :
    Same [.port, .gang, .groups] s (refuseRequests st g s) :=
  ((setGroup_same _ _ _).mono (by decide)).trans (Same.foldl (fun _ _ => endOwner_same _ _ _ _) _ _)

theorem decideGroups_same (w : Fin 16 → Bool) (s : Part) :
    Same [.port, .gang, .groups, .program, .panel] s (decideGroups w s) := by
  unfold decideGroups
  dsimp only
  refine Same.trans ?_ ((withPanel_same _ _).mono (by decide))
  refine Same.trans ?_ (Same.foldl (fun _ _ => (settleBinding_same _ _ _).mono (by decide)) _ _)
  refine Same.trans ?_ (Same.foldl (fun _ _ => ?_) _ _)
  · refine Same.trans ?_ ((withGroups_same _ _).mono (by decide))
    refine Same.trans ?_ (Same.foldl (fun _ _ => (refuseRequests_same _ _ _).mono (by decide)) _ _)
    exact Same.foldl (fun _ _ => (refuseRequests_same _ _ _).mono (by decide)) _ _
  · split
    · exact (announce_same _ _ _).mono (by decide)
    · exact Same.refl _ _

theorem addRequest_same (g : Fin 16) (q : Request) (s : Part) : Same [.groups] s (addRequest g q s) :=
  setGroup_same _ _ _

theorem handPress_same (t : End) (among : Fin 16 → Bool) (s : Part) : Same [.groups] s (handPress t among s) :=
  Same.foldl (fun _ _ => addRequest_same _ _ _) _ s

theorem proposePress_same (b : Rig) (s : Part) : Same [.gang] s (proposePress b s) := by
  unfold proposePress; split
  · exact withGang_same _ _
  · exact Same.refl _ _

theorem press_same (b : Rig) (s : Part) : Same [.groups, .gang] s (press b s) :=
  (handPress_same _ _ _).step (proposePress_same _ _) (by decide)

theorem applyPresses_same (s : Part) : Same [.groups, .gang] s (applyPresses s) :=
  ((withGang_same _ _).mono (by decide)).trans (Same.foldl (fun _ _ => (handPress_same _ _ _).mono (by decide)) _ _)

theorem bindGroup_same (o : Owner) (g : Fin 16) (s : Part) : Same [.port, .gang, .groups] s (bindGroup o g s) := by
  unfold bindGroup
  dsimp only
  refine Same.trans ?_ ((setGroup_same _ _ _).mono (by decide))
  repeat' split
  all_goals first | with_reducible exact Same.refl _ _ | exact supersede_same _ _ _

theorem executeRun_same (o : Owner) (req : MoveReq) (mask : Half) (s : Part) :
    Same [.port, .gang, .groups] s (executeRun o req mask s) := by
  unfold executeRun
  dsimp only
  have h1 := (setStage_same o (.executed (toBind s mask req.target) s.clock.frame) s).mono
    (G := [.port, .gang, .groups]) (by decide)
  have h2 := h1.trans (Same.foldl (fun t g => bindGroup_same o g t)
    (allGroups.filter fun g => inMask (toBind s mask req.target) g) _)
  have h3 := h2.trans (Same.foldl (fun t g => (addRequest_same g
      ⟨req.target, .command, some o⟩ t).mono
    (G := [.port, .gang, .groups]) (by decide)) (allGroups.filter fun g => inMask mask g) _)
  split
  · exact h3.trans (endOwner_same _ _ _ _)
  · exact h3

theorem runOwner_same (o : Owner) (s : Part) : Same [.port, .gang, .groups] s (runOwner o s) := by
  unfold runOwner
  repeat' split
  all_goals first
    | with_reducible exact Same.refl _ _
    | exact endOwner_same _ _ _ _
    | exact executeRun_same _ _ _ _
    | exact (setStage_same _ _ _).mono (by decide)

theorem runMoves_same (o : Order) (s : Part) : Same [.port, .gang, .groups] s (runMoves o s) :=
  Same.foldl (fun _ _ => runOwner_same _ _) _ s

theorem takeStart_same (g : Fin 16) (s : Part) : Same [.port, .gang, .groups, .program] s (takeStart g s) := by
  unfold takeStart
  by_cases h : (s.groups.get g).startPending = true
  · rw [if_pos h]
    generalize hst : (if isLed s g = true then End.dark else startState s g) = st
    have h1 (r : GroupRec) (n : NoticeBody) : Same [.port, .gang, .groups, .program] s
        (raise n ((refuseRequests .busy g s).setGroup g r)) :=
      ((refuseRequests_same _ _ _).step (setGroup_same _ _ _) (K := [.port, .gang, .groups, .program])
        (by decide)).step (raise_same _ _) (by decide)
    by_cases h2 : isLeading s g = true
    · simp only [h2, if_true]
      exact (h1 _ _).step (queueMove_same _ _) (by decide)
    · simp only [h2]
      exact h1 _ _
  · rw [if_neg h]
    exact Same.refl _ _

theorem takeOver_same (s : Part) : Same [.takeover, .port, .gang, .groups, .program] s (takeOver s) := by
  unfold takeOver
  dsimp only
  exact (((withTakeover_same _ _).mono (by decide)).trans
    (Same.foldl (fun _ _ => (takeStart_same _ _).mono (by decide)) _ _)).trans ((relayChange_same _ _ _).mono (by decide))

theorem takeoverTurn_same (s : Part) : Same [.takeover, .port, .gang, .groups, .program] s (takeoverTurn s) := by
  unfold takeoverTurn
  by_cases h : s.takeover.done = true
  · rw [if_pos h]; exact Same.refl _ _
  · rw [if_neg h]
    by_cases h2 : takeoverDue s = true
    · rw [if_pos h2]; exact takeOver_same _
    · rw [if_neg h2]; exact (withTakeover_same _ _).mono (by decide)

theorem publishOnAir_same (s : Part) : Same [.tracker] s (publishOnAir s) := withTracker_same _ _

/-! ## Frames.lean -/

theorem sendChunk_same (r : Rig) (s : Part) : Same [.port] s (sendChunk r s).2 := setPort_same _ _ _

theorem beginReturn_same (r : Rig) (s : Part) : Same [.port] s (beginReturn r s) :=
  (sendChunk_same r s).step (setPort_same _ _ _) (by decide)

theorem endReturn_same (r : Rig) (s : Part) : Same [.port, .resetRequested] s (endReturn r s) := by
  unfold endReturn
  dsimp only
  repeat' split
  all_goals first
    | with_reducible exact Same.refl _ _
    | exact (setPort_same _ _ _).mono (by decide)
    | (intro b hb; cases b <;> first | rfl | simp at hb)

theorem programLane_same (s : Part) : Same [.program] s (programLane s) := withProgram_same _ _
theorem programHeader_same (s : Part) : Same [.program] s (programHeader s) := withProgram_same _ _

theorem endProgram_same (s : Part) : Same [.program] s (endProgram s) := by
  unfold endProgram; split
  · exact Same.refl _ _
  · exact withProgram_same _ _

theorem noteSent_same (p : ProposeMsg) (s : Part) : Same [.gang] s (noteSent p s) := by
  unfold noteSent; split
  · exact withGang_same _ _
  · exact Same.refl _ _

theorem takeGangMsg_same (s : Part) : Same [.gang] s (takeGangMsg s).2 := by
  unfold takeGangMsg
  repeat' split
  all_goals first
    | with_reducible exact Same.refl _ _
    | exact withGang_same _ _
    | exact (withGang_same _ _).step (noteSent_same _ _) (by decide)

theorem beginGang_same (s : Part) : Same [.gang] s (beginGang s) :=
  (takeGangMsg_same s).step (withGang_same _ _) (by decide)

theorem beginFrames_same (s : Part) : Same [.port, .program] s (beginFrames s) :=
  ((beginReturn_same _ _).step (beginReturn_same _ _) (K := [.port, .program]) (by decide)).step (programLane_same _)
    (by decide)

theorem endFrames_same (s : Part) : Same [.port, .resetRequested, .program] s (endFrames s) :=
  ((endReturn_same _ _).step (endReturn_same _ _) (K := [.port, .resetRequested, .program]) (by decide)).step
    (endProgram_same _) (by decide)

/-! ## Commands.lean -/

theorem clearSticky_same (x : Rig) (c : Byte) (s : Part) : Same [.health] s (clearSticky x c s) := setHealth_same _ _ _
theorem clearCounts_same (x : Rig) (s : Part) : Same [.rx] s (clearCounts x s) := setRx_same _ _ _

theorem acceptWrite_same (r : Rig) (id : Nat) (a : WriteAct) (s : Part) :
    Same [.port, .writes] s (acceptWrite r id a s) := (withWrites_same _ _).step (setPhase_same _ _ _ _) (by decide)

theorem takeWrite_same (r : Rig) (id : Nat) (a : WriteAct) (s : Part) : Same [.port, .writes] s (takeWrite r id a s) := by
  unfold takeWrite; split
  · exact (respond_same _ _ _ _ _ _).mono (by decide)
  · exact acceptWrite_same _ _ _ _

theorem propose_same (r : Rig) (id : Nat) (ref : Fin 8) (m : Half) (q : MoveReq) (s : Part) :
    Same [.gang] s (propose r id ref m q s) := withGang_same _ _

theorem holdMove_same (r : Rig) (id : Nat) (m l : Half) (q : MoveReq) (ref : Option (Fin 8)) (s : Part) :
    Same [.port] s (holdMove r id m l q ref s) := setPhase_same _ _ _ _

theorem takeMove_same (r : Rig) (id : Nat) (m : Half) (q : MoveReq) (s : Part) :
    Same [.port, .gang] s (takeMove r id m q s) := by
  unfold takeMove
  dsimp only
  repeat' split
  all_goals first
    | exact (respond_same _ _ _ _ _ _).mono (by decide)
    | exact (propose_same _ _ _ _ _ _).step (holdMove_same _ _ _ _ _ _ _) (by decide)
    | exact (holdMove_same _ _ _ _ _ _ _).mono (by decide)

theorem takeSetMode_same (r : Rig) (id : Nat) (g : Fin 16) (m : Mode) (s : Part) :
    Same [.port, .writes] s (takeSetMode r id g m s) := by
  unfold takeSetMode; split
  · exact (respond_same _ _ _ _ _ _).mono (by decide)
  · exact acceptWrite_same _ _ _ _

theorem takeMarkRig_same (r : Rig) (id : Nat) (x : Rig) (f : Bool) (s : Part) :
    Same [.port, .health] s (takeMarkRig r id x f s) := (setHealth_same _ _ _).step (respond_same _ _ _ _ _ _) (by decide)

theorem withdraw_same (ref : Fin 8) (s : Part) : Same [.gang] s (withdraw ref s) := by
  unfold withdraw
  dsimp only
  split <;> exact withGang_same _ _

theorem withdrawPart_same (p : Option MovePart) (s : Part) : Same [.gang] s (withdrawPart p s) := by
  unfold withdrawPart; split
  · exact withdraw_same _ _
  · exact Same.refl _ _

theorem cancelOne_same (r : Rig) (id : Nat) (s : Part) :
    Same [.port, .writes, .gang, .groups] s (cancelOne r id s) := by
  unfold cancelOne
  repeat' split
  all_goals first
    | with_reducible exact Same.refl _ _
    | exact (withWrites_same _ _).step (respond_same _ _ _ _ _ _) (by decide)
    | exact (((unbind_same _ _).step (unbind_same _ _) (K := [.port, .writes, .gang, .groups]) (by decide)).step
        (withdrawPart_same _ _) (K := [.port, .writes, .gang, .groups]) (by decide)).step (respond_same _ _ _ _ _ _)
        (by decide)

theorem takeCancel_same (r : Rig) (id : Nat) (sc : Scope) (s : Part) :
    Same [.port, .writes, .gang, .groups] s (takeCancel r id sc s) :=
  (Same.foldl (fun t i => cancelOne_same r i t) _ s).step (respond_same _ _ _ _ _ _) (by decide)

theorem takeSetLock_same (r : Rig) (id : Nat) (l : LockLevel) (s : Part) :
    Same [.port, .lock, .program] s (takeSetLock r id l s) := by
  unfold takeSetLock; split
  · exact (setLevel_same _ _ _).step (respond_same _ _ _ _ _ _) (by decide)
  · exact (respond_same _ _ _ _ _ _).mono (by decide)

theorem takeSave_same (r : Rig) (id : Nat) (s : Part) : Same [.port, .store] s (takeSave r id s) :=
  (withStore_same _ _).step (setPhase_same _ _ _ _) (by decide)

theorem perform_same (r : Rig) (id : Nat) (c : Command) (s : Part) : Same messageBlocks s (perform r id c s) := by
  unfold perform
  dsimp only
  repeat' split
  all_goals first
    | exact (respond_same _ _ _ _ _ _).mono (by decide)
    | exact (respond_same _ _ _ _ _ _).step (clearSticky_same _ _ _) (by decide)
    | exact (respond_same _ _ _ _ _ _).step (clearCounts_same _ _) (by decide)
    | exact (takeWrite_same _ _ _ _).mono (by decide)
    | exact (takeMove_same _ _ _ _ _).mono (by decide)
    | exact (takeSetMode_same _ _ _ _ _).mono (by decide)
    | exact (takeMarkRig_same _ _ _ _ _).mono (by decide)
    | exact (takeCancel_same _ _ _ _).mono (by decide)
    | exact (takeSetLock_same _ _ _ _).mono (by decide)
    | exact (takeSave_same _ _ _).mono (by decide)
    | exact (acceptWrite_same _ _ _ _).mono (by decide)

theorem judge_same (r : Rig) (id : Nat) (msg : List Byte) (s : Part) : Same messageBlocks s (judge r id msg s) := by
  unfold judge
  repeat' split
  all_goals first
    | exact (respond_same _ _ _ _ _ _).mono (by decide)
    | exact perform_same _ _ _ _

theorem occupy_same (r : Rig) (v : Bool) (msg : List Byte) (s : Part) : Same [.port, .nextId] s (occupy r v msg s) := by
  intro b hb; cases b <;> first | rfl | simp at hb

theorem intake_same (r : Rig) (msg : List Byte) (s : Part) : Same messageBlocks s (intake r msg s) := by
  unfold intake
  repeat' split
  all_goals first
    | exact (refuseMessage_same _ _ _ _).mono (by decide)
    | exact (occupy_same _ _ _ _).step (judge_same _ _ _ _) (by decide)

/-! ## Receivers.lean -/

theorem setAssembly_same (r : Rig) (a : Assembly) (s : Part) : Same [.port] s (setAssembly r a s) := setPort_same _ _ _

theorem refuseGathered_same (r : Rig) (why : RefuseReason) (s : Part) : Same [.port] s (refuseGathered r why s) := by
  unfold refuseGathered; split
  · exact refuseMessage_same _ _ _ _
  all_goals exact Same.refl _ _

theorem handChunk_same (r : Rig) (c : List Byte) (s : Part) : Same messageBlocks s (handChunk r c s) := by
  unfold handChunk
  dsimp only
  repeat' split
  all_goals first
    | with_reducible exact Same.refl _ _
    | exact (refuseMessage_same _ _ _ _).mono (by decide)
    | exact (setAssembly_same _ _ _).mono (by decide)
    | exact (refuseGathered_same _ _ _).step (setAssembly_same _ _ _) (by decide)
    | exact (setAssembly_same _ _ _).step (intake_same _ _ _) (by decide)
    | exact ((refuseGathered_same _ _ _).step (setAssembly_same _ _ _) (K := [.port]) (by decide)).step
        (intake_same _ _ _) (by decide)

theorem handLoss_same (r : Rig) (s : Part) : Same [.port] s (handLoss r s) := by
  unfold handLoss; split
  · exact (refuseGathered_same _ _ _).step (setAssembly_same _ _ _) (by decide)
  all_goals exact Same.refl _ _

theorem takeGood_same (r : Rig) (f : ForwardFrame) (b : Bool) (s : Part) :
    Same (frameBlocks ++ messageBlocks) s (takeGood r f b s) :=
  ((setRx_same _ _ _).step (writeFrame_same _ _ _) (K := frameBlocks) (by decide)).step (handChunk_same _ _ _) (by decide)

theorem writeStandIn_same (r : Rig) (p : PrevFrame) (o : Origin) (a : Audio) (s : Part) :
    Same frameBlocks s (writeStandIn r p o a s) := writeFrame_same _ _ _

theorem takeBad_same (r : Rig) (s : Part) : Same (frameBlocks ++ [.port]) s (takeBad r s) := by
  unfold takeBad
  dsimp only
  have h := (handLoss_same r s).step (setRx_same r (s.rx.get r).takeBad _) (K := frameBlocks ++ [.port]) (by decide)
  split
  · exact h.step (writeStandIn_same _ _ _ _ _) (by decide)
  · exact h

theorem fillFrame_same (r : Rig) (s : Part) : Same frameBlocks s (fillFrame r s) := by
  unfold fillFrame
  dsimp only
  split
  · exact (setRx_same _ _ _).step (writeStandIn_same _ _ _ _ _) (by decide)
  · exact (setRx_same _ _ _).mono (by decide)

theorem fillFrames_same (r : Rig) (k : Nat) (s : Part) : Same frameBlocks s (fillFrames r k s) := by
  induction k generalizing s with
  | zero => exact Same.refl _ _
  | succ k ih => exact (fillFrame_same r s).trans (ih _)

theorem takeGap_same (r : Rig) (k : Nat) (f : ForwardFrame) (s : Part) :
    Same (frameBlocks ++ messageBlocks) s (takeGap r k f s) :=
  ((handLoss_same _ _).step (fillFrames_same _ _ _) (K := frameBlocks ++ messageBlocks) (by decide)).step
    (takeGood_same _ _ _ _) (by decide)

theorem takeResync_same (r : Rig) (f : ForwardFrame) (s : Part) :
    Same (frameBlocks ++ messageBlocks) s (takeResync r f s) :=
  (((handLoss_same _ _).step (flushRing_same _ _) (K := frameBlocks ++ messageBlocks) (by decide)).step
    (setRx_same _ _ _) (K := frameBlocks ++ messageBlocks) (by decide)).step (takeGood_same _ _ _ _) (by decide)

theorem leaveLocked_same (r : Rig) (st : RxState) (s : Part) :
    Same (frameBlocks ++ [.port, .clock, .program]) s (leaveLocked r st s) :=
  ((((setRx_same _ _ _).step (flushRing_same _ _) (K := frameBlocks) (by decide)).step (setHealth_same _ _ _)
    (K := frameBlocks) (by decide)).step (handLoss_same _ _) (K := frameBlocks ++ [.port, .clock, .program])
    (by decide)).step (sourceLost_same _ _) (by decide)

theorem verifyGood_same (r : Rig) (f : ForwardFrame) (s : Part) :
    Same (frameBlocks ++ messageBlocks) s (verifyGood r f s) := by
  unfold verifyGood
  dsimp only
  split
  · exact (setRx_same _ _ _).step (takeGood_same _ _ _ _) (by decide)
  · exact (setRx_same _ _ _).step (handChunk_same _ _ _) (by decide)

theorem verifyBad_same (r : Rig) (s : Part) : Same [.rx, .port] s (verifyBad r s) :=
  (handLoss_same _ _).step (setRx_same _ _ _) (by decide)

theorem activityLost_same (r : Rig) (s : Part) :
    Same [.rx, .ring, .tracker, .health, .port, .clock, .program] s (activityLost r s) := by
  unfold activityLost
  dsimp only
  repeat' split
  all_goals first
    | exact (setRx_same _ _ _).step (leaveLocked_same _ _ _) (by decide)
    | exact ((setRx_same _ _ _).step (handLoss_same _ _) (K := [.rx, .port]) (by decide)).step (setRx_same _ _ _)
        (by decide)
    | exact (setRx_same _ _ _).step (setRx_same _ _ _) (by decide)

/-! ## Gang.lean -/

theorem takeAnswer_same (ref : Fin 8) (round : Bool) (st : Status) (s : Part) :
    Same [.port, .gang, .groups] s (takeAnswer ref round st s) := by
  unfold takeAnswer
  dsimp only
  repeat' split
  all_goals first
    | with_reducible exact Same.refl _ _
    | exact (withGang_same _ _).mono (by decide)
    | exact (withGang_same _ _).step (endOwner_same _ _ _ _) (by decide)

theorem boardAnswers_same (rep : GangReport) (s : Part) : Same [.port, .gang, .groups] s (boardAnswers rep s) := by
  refine Same.foldl (fun t ref => ?_) _ s
  dsimp only
  repeat' split
  all_goals first | with_reducible exact Same.refl _ _ | exact takeAnswer_same _ _ _ _

theorem takeGangMove_same (m : MoveMsg) (s : Part) : Same [.gang] s (takeGangMove m s) := by
  unfold takeGangMove
  dsimp only
  repeat' split
  all_goals first | with_reducible exact Same.refl _ _ | exact withGang_same _ _

theorem startMove_same (m : MoveMsg) (s : Part) : Same [.gang, .groups, .port, .program] s (startMove m s) := by
  unfold startMove
  dsimp only
  have h (x : Gang) (r : GroupRec) : Same [.gang, .groups, .port, .program] s
      (Part.setGroup { s with gang := x } m.group r) :=
    (withGang_same _ _).step (setGroup_same _ _ _) (by decide)
  split
  · exact ((h _ _).step (raise_same _ _) (K := [.gang, .groups, .port, .program]) (by decide)).step
      (supersedeIfElsewhere_same _ _) (by decide)
  · refine Same.trans ?_ ((supersedeIfElsewhere_same _ _).mono (by decide))
    split
    · exact h _ _
    · exact (h _ _).step (raise_same _ _) (by decide)

theorem startPendingMove_same (g : Fin 16) (s : Part) :
    Same [.gang, .groups, .port, .program] s (startPendingMove g s) := by
  unfold startPendingMove
  repeat' split
  all_goals first | with_reducible exact Same.refl _ _ | exact startMove_same _ _

theorem startPendingMoves_same (s : Part) : Same [.gang, .groups, .port, .program] s (startPendingMoves s) :=
  Same.foldl (fun _ _ => startPendingMove_same _ _) _ s

/-- A group without a pending MOVE has no stray one (R118). -/
theorem strayMove_of_none (s : Part) (g : Fin 16) (h : s.gang.pending.get g = none) : strayMove s g = false := by
  simp [strayMove, moveStarts, h]

theorem startStrayMoves_same (s : Part) : Same [.gang, .groups, .port, .program] s (startStrayMoves s) :=
  Same.foldl (fun _ _ => startPendingMove_same _ _) _ s

theorem dropProposal_same (ref : Fin 8) (s : Part) : Same [.groups] s (dropProposal ref s) := by
  unfold dropProposal; split
  · exact unbind_same _ _
  all_goals exact Same.refl _ _

theorem setBoard_same (ref : Fin 8) (e : BoardEntry) (s : Part) : Same [.gang] s (setBoard ref e s) := withGang_same _ _

theorem holdProposal_same (ref : Fin 8) (p : ProposeMsg) (s : Part) :
    Same [.port, .gang, .groups] s (holdProposal ref p s) := by
  unfold holdProposal
  dsimp only
  split
  · exact (setBoard_same _ _ _).step (endOwner_same _ _ _ _) (by decide)
  · exact (setBoard_same _ _ _).mono (by decide)

theorem takePropose_same (p : ProposeMsg) (s : Part) : Same [.port, .gang, .groups] s (takePropose p s) := by
  unfold takePropose
  dsimp only
  repeat' split
  all_goals first
    | with_reducible exact Same.refl _ _
    | exact (withGang_same _ _).mono (by decide)
    | exact ((dropProposal_same _ _).step (setBoard_same _ _ _) (K := [.port, .gang, .groups]) (by decide)).step
        (withGang_same _ _) (by decide)
    | exact (dropProposal_same _ _).step (holdProposal_same _ _ _) (by decide)

theorem clearBoard_same (s : Part) : Same [.gang, .groups] s (clearBoard s) :=
  (Same.foldl (fun _ _ => dropProposal_same _ _) _ s).step (withGang_same _ _) (by decide)

theorem setGangState_same (st : GangState) (s : Part) : Same [.gang, .port, .program] s (setGangState st s) :=
  (withGang_same _ _).step (raise_same _ _) (by decide)

theorem linkUp_same (s : Part) : Same [.gang, .port, .program] s (linkUp s) :=
  (withGang_same _ _).step (setGangState_same _ _) (by decide)

theorem reclaim_same (ref : Fin 8) (s : Part) : Same [.gang, .port] s (reclaim ref s) := by
  unfold reclaim
  dsimp only
  repeat' split
  all_goals first
    | exact (withGang_same _ _).mono (by decide)
    | exact (withGang_same _ _).step (setStage_same _ _ _) (by decide)

theorem linkLost_same (s : Part) : Same [.gang, .groups, .port, .program, .clock] s (linkLost s) := by
  unfold linkLost
  dsimp only
  refine Same.trans ?_ ((sourceLost_same _ _).mono (by decide))
  refine Same.trans ?_ ((setGangState_same _ _).mono (by decide))
  refine Same.trans ?_ ((withGang_same _ _).mono (by decide))
  exact ((clearBoard_same _).mono (by decide)).trans (Same.foldl (fun _ _ => (reclaim_same _ _).mono (by decide)) _ _)

theorem takeGangMsgIn_same (m : GangMsg) (s : Part) : Same [.port, .gang, .groups] s (takeGangMsgIn m s) := by
  unfold takeGangMsgIn
  split
  all_goals first
    | with_reducible exact Same.refl _ _
    | exact (takeGangMove_same _ _).mono (by decide)
    | exact takePropose_same _ _
    | exact takeAnswer_same _ _ _ _

theorem takeReport_same (rep : GangReport) (s : Part) : Same [.gang, .groups] s (takeReport rep s) := by
  unfold takeReport
  dsimp only
  split
  · exact (withGang_same _ _).step (clearBoard_same _) (by decide)
  · exact (withGang_same _ _).mono (by decide)

theorem acceptFrame_same (b : List Byte) (s : Part) : Same [.gang, .groups, .port, .program] s (acceptFrame b s) := by
  unfold acceptFrame
  dsimp only
  have h := (takeReport_same (readReport b) s).mono (G := [.gang, .groups, .port, .program]) (by decide)
  repeat' split
  all_goals first
    | exact h
    | exact h.step (linkUp_same _) (by decide)
    | exact h.step (withGang_same _ _) (by decide)
    | exact (h.step (boardAnswers_same _ _) (K := [.gang, .groups, .port, .program]) (by decide)).step
        (takeGangMsgIn_same _ _) (by decide)
    | exact h.step (takeGangMsgIn_same _ _) (by decide)

theorem gangFrame_same (b : List Byte) (s : Part) : Same [.gang, .groups, .port, .program] s (gangFrame b s) := by
  unfold gangFrame
  repeat' split
  all_goals first
    | with_reducible exact Same.refl _ _
    | exact acceptFrame_same _ _
    | exact (withGang_same _ _).mono (by decide)

theorem adoptCount_same (s : Part) : Same [.clock, .gang] s (adoptCount s) := by
  unfold adoptCount
  split
  · intro b hb; cases b <;> first | rfl | simp at hb
  · exact (withGang_same _ _).mono (by decide)

theorem adoptTurn_same (s : Part) : Same [.clock, .gang] s (adoptTurn s) := by
  unfold adoptTurn; split
  · exact adoptCount_same _
  · exact Same.refl _ _

theorem matchTurn_same (s : Part) : Same [.gang] s (matchTurn s) := by
  unfold matchTurn; split
  · exact withGang_same _ _
  · exact Same.refl _ _

theorem repairGroup_same (g : Fin 16) (s : Part) : Same [.gang] s (repairGroup g s) := by
  unfold repairGroup; split
  · exact queueMove_same _ _
  · exact Same.refl _ _

theorem mismatchTurn_same (s : Part) : Same [.gang] s (mismatchTurn s) := by
  unfold mismatchTurn
  dsimp only
  split
  · exact (withGang_same _ _).trans (Same.foldl (fun _ _ => repairGroup_same _ _) _ _)
  · exact Same.refl _ _

theorem resendOne_same (ref : Fin 8) (s : Part) : Same [.gang] s (resendOne ref s) := by
  unfold resendOne
  repeat' split
  all_goals first | with_reducible exact Same.refl _ _ | exact withGang_same _ _

theorem resendTurn_same (s : Part) : Same [.gang] s (resendTurn s) := Same.foldl (fun _ _ => resendOne_same _ _) _ s

theorem silenceTurn_same (s : Part) : Same [.gang, .groups, .port, .program, .clock] s (silenceTurn s) := by
  unfold silenceTurn
  by_cases h : s.gang.role = .solo
  · rw [if_pos h]; exact Same.refl _ _
  · rw [if_neg h]
    dsimp only
    by_cases h2 : 8 ≤ silenceNext s
    · rw [if_pos h2]
      by_cases h3 : s.gang.state = .up
      · rw [if_pos h3]; exact (withGang_same _ _).step (linkLost_same _) (by decide)
      · rw [if_neg h3]; exact (withGang_same _ _).mono (by decide)
    · rw [if_neg h2]; exact (withGang_same _ _).mono (by decide)

theorem gangTurn_same (s : Part) : Same [.gang, .groups, .port, .program, .clock] s (gangTurn s) :=
  ((mismatchTurn_same _).step (resendTurn_same _) (K := [.gang]) (by decide)).step (silenceTurn_same _) (by decide)

/-! ## Writes.lean -/

theorem writeRoutes_same (n : Nat) (es : List RouteEntry) (s : Part) : Same [.tables] s (writeRoutes n es s) :=
  setTables_same _ _

theorem writeGroup_same (g : Fin 16) (e : GroupEntry) (s : Part) : Same [.tables, .groups] s (writeGroup g e s) :=
  (setGroup_same _ _ _).step (setTables_same _ _) (by decide)

theorem writeGroups_same (t : Tbl 16 GroupEntry) (s : Part) : Same [.tables, .groups] s (writeGroups t s) :=
  Same.foldl (fun _ _ => writeGroup_same _ _ _) _ s

theorem dropCauses_same (x : Rig) (off : Fin 8 → Bool) (s : Part) : Same [.health] s (dropCauses x off s) :=
  setHealth_same _ _ _

/-- R66: what a disable does to one cause. -/
@[simp] theorem Health.drop_causes (h : Health) (off : Fin 8 → Bool) (i : Fin 8) :
    (h.drop off).causes.get i = if off i then ⟨.clear, 0⟩ else h.causes.get i := Tbl.get_ofFn _ _

theorem writeWatchCause_same (x : Rig) (c : Fin 8) (e : WatchEntry) (s : Part) :
    Same [.tables, .health] s (writeWatchCause x c e s) :=
  (setTables_same _ _).step (dropCauses_same _ _ _) (by decide)

theorem writeWatchSlots_same (x : Rig) (l : List (Fin 64)) (s : Part) : Same [.tables] s (writeWatchSlots x l s) :=
  setTables_same _ _

theorem writeSetup_same (n : Setup) (s : Part) : Same [.tables, .tracker, .panel] s (writeSetup n s) := by
  unfold writeSetup
  dsimp only
  repeat' split
  all_goals first
    | exact ((setTables_same _ _).step (clearHistory_same _) (K := [.tables, .tracker, .panel]) (by decide)).step
        (withPanel_same _ _) (by decide)
    | exact (setTables_same _ _).step (clearHistory_same _) (by decide)
    | exact (setTables_same _ _).step (withPanel_same _ _) (by decide)
    | exact (setTables_same _ _).mono (by decide)

theorem writeTables_same (t : Tables) (s : Part) :
    Same [.tables, .groups, .tracker, .panel, .health] s (writeTables t s) :=
  ((((writeGroups_same _ _).step (setTables_same _ _) (K := [.tables, .groups, .health]) (by decide)).step
    (dropCauses_same _ _ _) (K := [.tables, .groups, .health]) (by decide)).step (dropCauses_same _ _ _)
    (K := [.tables, .groups, .health]) (by decide)).step (writeSetup_same _ _) (by decide)

/-- The blocks that a deferred load changes. -/
def loadBlocks : List Block := [.tables, .groups, .tracker, .panel, .health, .store, .port, .program]

theorem deferredLoad_same (s : Part) : Same loadBlocks s (deferredLoad s) := by
  unfold deferredLoad
  dsimp only
  split
  · exact (withStore_same _ _).step (writeTables_same _ _) (by decide)
  · exact ((withStore_same _ _).step (writeTables_same _ _) (K := loadBlocks) (by decide)).step (raise_same _ _) (by decide)

theorem respondOwner_same (o : Option (Rig × Nat)) (st : Status) (s : Part) : Same [.port] s (respondOwner o st s) := by
  unfold respondOwner; split
  · exact respond_same _ _ _ _ _ _
  · exact Same.refl _ _

theorem setBypass_same (e : Bool) (s : Part) : Same [.panel, .port, .program] s (setBypass e s) :=
  (withPanel_same _ _).step (relayChange_same _ _ _) (by decide)

theorem writeMode_same (g : Fin 16) (m : Mode) (s : Part) : Same [.tables] s (writeMode g m s) := setTables_same _ _

theorem applySetMode_same (o : Option (Rig × Nat)) (g : Fin 16) (m : Mode) (s : Part) :
    Same [.tables, .port] s (applyWrite ⟨o, .setMode g m⟩ s) := by
  unfold applyWrite
  dsimp only
  split
  · exact (respondOwner_same _ _ _).mono (by decide)
  · exact (writeMode_same _ _ _).step (respondOwner_same _ _ _) (by decide)

theorem applyBypass_same (o : Option (Rig × Nat)) (e : Bool) (s : Part) :
    Same [.panel, .port, .program] s (applyWrite ⟨o, .bypass e⟩ s) :=
  (setBypass_same _ _).step (respondOwner_same _ _ _) (by decide)

theorem applyTable_same (w : PendingWrite) (h : w.act.isTable = true) (s : Part) :
    Same [.tables, .groups, .tracker, .panel, .health, .port] s (applyWrite w s) := by
  obtain ⟨o, act⟩ := w
  cases act <;> simp [WriteAct.isTable] at h <;> unfold applyWrite
  · exact (writeRoutes_same _ _ _).step (respondOwner_same _ _ _) (by decide)
  · exact (writeGroup_same _ _ _).step (respondOwner_same _ _ _) (by decide)
  · exact (writeWatchCause_same _ _ _ _).step (respondOwner_same _ _ _) (by decide)
  · exact (writeWatchSlots_same _ _ _).step (respondOwner_same _ _ _) (by decide)
  · exact (writeSetup_same _ _).step (respondOwner_same _ _ _) (by decide)
  · exact (writeTables_same _ _).step (respondOwner_same _ _ _) (by decide)

theorem applyWrite_same (w : PendingWrite) (s : Part) : Same loadBlocks s (applyWrite w s) := by
  obtain ⟨o, act⟩ := w
  cases act
  case setMode => exact (applySetMode_same _ _ _ _).mono (by decide)
  case bypass => exact (applyBypass_same _ _ _).mono (by decide)
  case load => exact deferredLoad_same _
  all_goals exact (applyTable_same _ rfl _).mono (by decide)

theorem applyWrites_same (l : List PendingWrite) (s : Part) : Same (loadBlocks ++ [.writes]) s (applyWrites l s) := by
  induction l generalizing s with
  | nil => exact (withWrites_same _ _).mono (by decide)
  | cons w l ih =>
    unfold applyWrites
    split
    · exact (withWrites_same _ _).mono (by decide)
    · exact ((applyWrite_same w s).mono (by decide)).trans (ih _)

theorem applyTableWrites_same (l : List PendingWrite) (s : Part) :
    Same [.tables, .groups, .tracker, .panel, .health, .port, .writes] s (applyTableWrites l s) := by
  induction l generalizing s with
  | nil => exact (withWrites_same _ _).mono (by decide)
  | cons w l ih =>
    unfold applyTableWrites
    split
    case isTrue h => exact ((applyTable_same w h s).mono (by decide)).trans (ih _)
    case isFalse => exact (withWrites_same _ _).mono (by decide)

theorem selectBetter_same (s : Part) : Same [.clock, .port, .program] s (selectBetter s) := by
  unfold selectBetter
  dsimp only
  split
  · exact selectSource_same _ _ _
  · exact Same.refl _ _

theorem raiseHealth_same (x : Rig) (o m n : Health) (s : Part) : Same [.port, .program] s (raiseHealth x o m n s) := by
  unfold raiseHealth; split
  · exact raise_same _ _
  · exact Same.refl _ _

theorem settleHealth_same (x : Rig) (h : Health) (s : Part) : Same [.health, .port, .program] s (settleHealth x h s) := by
  unfold settleHealth
  dsimp only
  split
  · exact Same.refl _ _
  · exact (setHealth_same _ _ _).step (raiseHealth_same _ _ _ _ _) (by decide)

theorem settleWrites_same (b : PerRig Health) (s : Part) : Same [.health, .clock, .port, .program] s (settleWrites b s) :=
  (((settleHealth_same .A _ s).mono (by decide)).trans ((settleHealth_same .B _ _).mono (by decide))).trans
    ((selectBetter_same _).mono (by decide))

/-! ## Resets.lean and Boundary.lean -/

theorem respondSave_same (r : Rig) (st : Status) (s : Part) : Same [.port] s (respondSave r st s) := by
  unfold respondSave; split
  · exact respond_same _ _ _ _ _ _
  · exact Same.refl _ _

theorem saveDone_same (v : Bool) (s : Part) : Same [.store, .port, .program, .writes] s (saveDone v s) := by
  unfold saveDone
  dsimp only
  have h (st : Status) (n : NoticeBody) (x : Store) : Same [.store, .port, .program, .writes] s
      (respondSave .B st (respondSave .A st (raise n { s with store := x }))) :=
    (((withStore_same _ _).step (raise_same _ _) (K := [.store, .port, .program, .writes]) (by decide)).step
      (respondSave_same _ _ _) (K := [.store, .port, .program, .writes]) (by decide)).step (respondSave_same _ _ _)
      (by decide)
  split
  · exact (h _ _ _).step (withWrites_same _ _) (by decide)
  · exact h _ _ _

theorem resetBlocks_same (s : Part) :
    Same [.rx, .clock, .ring, .tracker, .health, .writes, .groups, .takeover, .samples, .program, .port, .resetRequested,
      .gang, .lock, .panel] s (resetBlocks s) := by
  intro b hb; cases b <;> first | rfl | simp at hb

theorem loadTables_same (s : Part) : Same [.tables, .store] s (loadTables s) := by
  intro b hb; cases b <;> first | rfl | simp at hb

theorem endReset_same (l : Lines) (s : Part) : Same [.gang, .lock, .panel, .rx, .inReset, .tables, .store] s (endReset l s) := by
  unfold endReset
  dsimp only
  have h (a : Gang) (b : ShowLock) (c : Panel) (d : PerRig Receiver) (e : Bool) :
      Same [.gang, .lock, .panel, .rx, .inReset, .tables, .store] s
        { s with gang := a, lock := b, panel := c, rx := d, inReset := e } := by
    intro b hb; cases b <;> first | rfl | simp at hb
  split
  · exact h _ _ _ _ _
  · exact (h _ _ _ _ _).step (loadTables_same _) (by decide)

theorem keyChange_same (l : Bool) (s : Part) : Same [.lock, .port, .program] s (keyChange l s) := by
  unfold keyChange
  dsimp only
  split
  · exact (withLock_same _ _).step (setLevel_same _ _ _) (by decide)
  · exact (withLock_same _ _).mono (by decide)

theorem keyTurn_same (l : Bool) (s : Part) : Same [.lock, .port, .program] s (keyTurn l s) := by
  unfold keyTurn
  repeat' split
  all_goals first | exact (withLock_same _ _).mono (by decide) | exact keyChange_same _ _

theorem clockTurn_same (s : Part) : Same [.clock, .port, .program] s (clockTurn s) :=
  (withClock_same _ _).step (selectBetter_same _) (by decide)

theorem underrunTurn_same (x : Rig) (s : Part) : Same [.rx, .ring] s (underrunTurn x s) := by
  unfold underrunTurn
  dsimp only
  split
  · exact (setRing_same _ _ _).step (setRx_same _ _ _) (by decide)
  · exact Same.refl _ _

theorem slipTurn_same (x : Rig) (n : Nat) (s : Part) : Same [.health] s (slipTurn x n s) := by
  unfold slipTurn; split
  · exact setHealth_same _ _ _
  · exact Same.refl _ _

theorem healthTurn_same (x : Rig) (h : Health) (s : Part) : Same [.health, .port, .program] s (healthTurn x h s) :=
  (setHealth_same _ _ _).step (raiseHealth_same _ _ _ _ _) (by decide)

theorem watchRig_same (x : Rig) (h : Health) (b : Bool) (n : Nat) (s : Part) :
    Same [.health, .port, .program] s (watchRig x h b n s) := by
  unfold watchRig; split
  · exact (slipTurn_same _ _ _).step (healthTurn_same _ _ _) (by decide)
  · exact (healthTurn_same _ _ _).step (slipTurn_same _ _ _) (by decide)

theorem watchTurn_same (ord : Order) (b : PerRig Health) (s : Part) :
    Same [.rx, .ring, .health, .port, .program] s (watchTurn ord b s) := by
  unfold watchTurn
  dsimp only
  have h0 := (underrunTurn_same .A s).step (underrunTurn_same .B _) (K := [.rx, .ring, .health, .port, .program])
    (by decide)
  exact (h0.trans ((watchRig_same _ _ _ _ _).mono (by decide))).trans ((watchRig_same _ _ _ _ _).mono (by decide))

theorem moveRing_same (x : Rig) (m : Int) (s : Part) : Same [.ring] s (moveRing x m s) := by
  unfold moveRing; split
  · exact setRing_same _ _ _
  · exact Same.refl _ _

theorem raiseAlign_same (o n : Tracker) (c : Option Correction) (s : Part) :
    Same [.port, .program] s (raiseAlign o n c s) := by
  unfold raiseAlign; split
  · exact raise_same _ _
  · exact Same.refl _ _

/-- The blocks that a loss of LOCKED changes. -/
def lossBlocks : List Block := frameBlocks ++ [.port, .clock, .program]

theorem loseLock_same (x : Rig) (loss : Option LockLoss) (s : Part) : Same lossBlocks s (loseLock x loss s) := by
  unfold loseLock
  repeat' split
  all_goals first
    | with_reducible exact Same.refl _ _
    | exact (activityLost_same _ _).mono (by decide)
    | exact leaveLocked_same _ _ _

theorem lossTurn_same (ord : Order) (s : Part) : Same lossBlocks s (lossTurn ord s) :=
  (loseLock_same _ _ _).trans (loseLock_same _ _ _)

theorem loseLock_of_not_losesAt (ord : Order) (x : Rig) (s : Part) (h : ¬losesAt ord s x) :
    loseLock x (lossOf ord x) s = s := by
  unfold losesAt at h
  unfold loseLock isLocked
  cases hl : lossOf ord x with
  | none => rfl
  | some l => cases l <;> simp_all

/-- A boundary at which no receiver leaves LOCKED (R37). -/
theorem lossTurn_of_not_losesAt (ord : Order) (s : Part) (h : ∀ x, ¬losesAt ord s x) : lossTurn ord s = s := by
  unfold lossTurn
  rw [loseLock_of_not_losesAt ord .A s (h .A), loseLock_of_not_losesAt ord .B s (h .B)]

theorem trackerTurn_same (ord : Order) (s : Part) : Same lossBlocks s (trackerTurn ord s) := by
  unfold trackerTurn
  dsimp only
  have h1 (t : Tracker) : Same lossBlocks s (lossTurn ord { s with tracker := t }) :=
    ((withTracker_same _ _).mono (by decide)).trans (lossTurn_same _ _)
  split
  · exact (((h1 _).trans ((moveRing_same _ _ _).mono (by decide))).trans ((withTracker_same _ _).mono (by decide))).trans
      ((raiseAlign_same _ _ _ _).mono (by decide))
  · exact ((h1 _).trans ((withTracker_same _ _).mono (by decide))).trans ((raiseAlign_same _ _ _ _).mono (by decide))

theorem buttonTurn_same (x : Rig) (l : Bool) (s : Part) : Same [.panel, .groups, .gang] s (buttonTurn x l s) := by
  unfold buttonTurn
  dsimp only
  split
  · exact (withPanel_same _ _).step (press_same _ _) (by decide)
  · exact (withPanel_same _ _).mono (by decide)

theorem buttonsTurn_same (l : Lines) (b : Bool) (s : Part) : Same [.panel, .groups, .gang] s (buttonsTurn l b s) := by
  unfold buttonsTurn
  split <;> exact (buttonTurn_same _ _ _).trans (buttonTurn_same _ _ _)

theorem pressTurn_same (l : Lines) (o : Order) (s : Part) : Same [.panel, .groups, .gang] s (pressTurn l o s) := by
  unfold pressTurn
  split
  · exact (buttonsTurn_same _ _ _).trans ((applyPresses_same _).mono (by decide))
  · exact ((applyPresses_same _).mono (by decide)).trans (buttonsTurn_same _ _ _)

theorem requestTurn_same (l : Lines) (o : Order) (s : Part) :
    Same [.panel, .groups, .gang, .port] s (requestTurn l o s) := by
  unfold requestTurn; split
  · exact (pressTurn_same _ _ _).step (runMoves_same _ _) (by decide)
  · exact (runMoves_same _ _).step (pressTurn_same _ _ _) (by decide)

/-- The blocks that the groups' turn changes. -/
def switchBlocks : List Block := [.panel, .groups, .gang, .port, .program, .takeover, .tracker]

theorem switchTurn_same (l : Lines) (o : Order) (s : Part) : Same switchBlocks s (switchTurn l o s) := by
  unfold switchTurn
  dsimp only
  refine Same.trans ?_ ((publishOnAir_same _).mono (by decide))
  refine Same.trans ?_ ((settleArrivals_same _).mono (by decide))
  refine Same.trans ?_ ((startPendingMoves_same _).mono (by decide))
  refine Same.trans ?_ ((decideGroups_same _ _).mono (by decide))
  exact (((requestTurn_same _ _ _).mono (by decide)).trans ((startStrayMoves_same _).mono (by decide))).trans
    ((takeoverTurn_same _).mono (by decide))

theorem framesBefore_same (o : Order) (s : Part) : Same [.port, .program, .gang] s (framesBefore o s) := by
  unfold framesBefore
  have h : Same [.port, .program, .gang] s (if o.framesFirst = true then beginFrames s else s) := by
    by_cases h1 : o.framesFirst = true
    · rw [if_pos h1]; exact (beginFrames_same _).mono (by decide)
    · rw [if_neg h1]; exact Same.refl _ _
  by_cases h2 : o.gangFirst = true
  · simp only [h2, if_true]; exact h.step (beginGang_same _) (by decide)
  · simp only [h2]; exact h

theorem framesAfter_same (o : Order) (s : Part) : Same [.port, .program, .gang] s (framesAfter o s) := by
  unfold framesAfter
  have h : Same [.port, .program, .gang] s (if o.framesFirst = true then s else beginFrames s) := by
    by_cases h1 : o.framesFirst = true
    · rw [if_pos h1]; exact Same.refl _ _
    · rw [if_neg h1]; exact (beginFrames_same _).mono (by decide)
  refine Same.trans ?_ ((programHeader_same _).mono (by decide))
  by_cases h2 : o.gangFirst = true
  · simp only [h2, if_true]; exact h
  · simp only [h2]; exact h.step (beginGang_same _) (by decide)

theorem formSamples_same (s : Part) : Same [.samples, .program] s (formSamples s) := by
  intro b hb; cases b <;> first | rfl | simp at hb

theorem advanceRings_same (s : Part) : Same [.ring] s (advanceRings s) := by
  intro b hb; cases b <;> first | rfl | simp at hb

theorem samplePeriod_same (s : Part) :
    Same [.groups, .samples, .program, .port, .gang, .ring, .clock] s (samplePeriod s) := by
  unfold samplePeriod
  refine Same.trans ?_ ((withClock_same _ _).mono (by decide))
  refine Same.trans ?_ ((advanceRings_same _).mono (by decide))
  refine Same.trans ?_ ((settleArrivals_same _).mono (by decide))
  refine Same.trans ?_ ((completeFades_same _).mono (by decide))
  exact (tickFades_same _).step (formSamples_same _) (by decide)

theorem executeIfReady_same (o : Owner) (s : Part) : Same [.port, .gang, .groups] s (executeIfReady o s) := by
  unfold executeIfReady
  repeat' split
  all_goals first
    | with_reducible exact Same.refl _ _
    | exact endOwner_same _ _ _ _
    | exact executeRun_same _ _ _ _

theorem timeoutIfDue_same (o : Owner) (s : Part) : Same [.port, .gang, .groups] s (timeoutIfDue o s) := by
  unfold timeoutIfDue
  repeat' split
  all_goals first | with_reducible exact Same.refl _ _ | exact endOwner_same _ _ _ _

end Sys2Proof.Machine
end

