-- ==== Sys2Proof/Laws/Slots.lean ====
section
/-! SUPPORT. What taking a command does to its port's slots: the slot it takes, its response, its phase; and how a message on
a port that can take it comes to be judged. Every statement about a management command goes through these. -/

namespace Sys2Proof.Machine

/-- The command just taken is the one found under the next number. -/
theorem find_taken (l : List Held) (h : Held) (hn : ∀ k ∈ l, k.id < h.id) :
    (l ++ [h]).find? (fun k => k.id == h.id) = some h := by
  have : l.find? (fun k => k.id == h.id) = none := by
    rw [List.find?_eq_none]
    intro k hk
    have := hn k hk
    simp only [beq_iff_eq]
    omega
  simp [List.find?_append, this]

/-- A new phase for the command just taken leaves the older slots as they are. -/
theorem phase_taken (l : List Held) (h : Held) (ph : Phase) (hn : ∀ k ∈ l, k.id < h.id) :
    (l ++ [h]).map (fun k => if k.id == h.id then { k with phase := ph } else k) = l ++ [{ h with phase := ph }] := by
  have : l.map (fun k => if k.id == h.id then { k with phase := ph } else k) = l := by
    conv_rhs => rw [← List.map_id l]
    apply List.map_congr_left
    intro k hk
    have h1 := hn k hk
    have h2 : k.id ≠ h.id := by omega
    simp [h2]
  rw [List.map_append, this]
  simp

/-- A command that completes as it is taken (R131). -/
theorem respond_taken (s : Part) (r : Rig) (tag code : Byte) (msg : List Byte) (st : Status) (i : Nat) (res : List Byte)
    (h : ∀ k ∈ (s.port.get r).slots, k.id < s.nextId) (h0 : byteAt msg 0 = tag) (h1 : byteAt msg 1 = code) :
    respond r s.nextId st i res (occupy r false msg s) = answeredAs s r tag code st i res := by
  subst h0 h1
  have hf := find_taken (s.port.get r).slots ⟨s.nextId, byteAt msg 0, byteAt msg 1, false, .taken⟩ h
  have hm := phase_taken (s.port.get r).slots ⟨s.nextId, byteAt msg 0, byteAt msg 1, false, .taken⟩ .done h
  simp only at hf hm
  unfold respond occupy answeredAs Port.respond Port.find Part.setPort
  simp only [PerRig.get_set_self, hf, Port.setPhase, hm]
  cases r <;> simp [PerRig.set, PerRig.get]

/-- A command that stays in its slot, in a phase (R155). -/
theorem setPhase_taken (s : Part) (r : Rig) (tag code : Byte) (msg : List Byte) (ph : Phase)
    (h : ∀ k ∈ (s.port.get r).slots, k.id < s.nextId) (h0 : byteAt msg 0 = tag) (h1 : byteAt msg 1 = code) :
    setPhase r s.nextId ph (occupy r false msg s) = heldAs s r tag code ph := by
  subst h0 h1
  have hm := phase_taken (s.port.get r).slots ⟨s.nextId, byteAt msg 0, byteAt msg 1, false, .taken⟩ ph h
  simp only at hm
  unfold setPhase occupy heldAs Part.setPort
  simp only [PerRig.get_set_self, Port.setPhase, hm]
  cases r <;> simp [PerRig.set, PerRig.get]

/-- A message on a port that can take it is judged on the state in which its command holds the slot (R127, R139). -/
theorem takeMessage_eq (s : State) (r : Rig) (tag code : Byte) (body : List Byte) (h : canTake s.toPart r tag)
    (hb : body ≠ []) :
    takeMessage r tag code body s =
      .next (s.withPart
        (judge r s.nextId (tag :: code :: body) (occupy r false (tag :: code :: body) s.toPart))) := by
  obtain ⟨h1, h2, h3, h4⟩ := h
  cases body with
  | nil => exact absurd rfl hb
  | cons a l => simp [takeMessage, onPart, unlessReset, h1, intake, byteAt, h2, h3, State.withPart]

/-- R130: every code of the table is read as its command. -/
theorem readCode_byte (c : Code) : readCode c.byte = some c := by cases c <;> decide

/-- R129: a message whose length agrees, without a condition part. -/
theorem readMessage_plain (tag code n : Byte) (params : List Byte) (h : n.toNat = params.length) :
    readMessage (tag :: code :: n :: params) = some (params, none) := by
  have hb : byteAt (tag :: code :: n :: params) 2 = n := rfl
  simp only [readMessage, hb, h, List.length_cons]
  rw [if_pos (by omega)]
  rfl

/-- R139: a command whose checks up to the range check pass is performed. -/
theorem judge_passes (s : Part) (r : Rig) (id : Nat) (tag n : Byte) (c : Code) (params : List Byte) (cmd : Command)
    (hn : n.toNat = params.length) (hl : c.lengthOk params = true) (ht : c.takenAt s.lock.level = true)
    (hs : (c.waitsForStore && storeBusy s) = false) (hc : readCommand c params none = .ok cmd) :
    judge r id (tag :: c.byte :: n :: params) s = perform r id cmd s := by
  have hb : byteAt (tag :: c.byte :: n :: params) 1 = c.byte := rfl
  simp [judge, hb, readCode_byte, readMessage_plain _ _ _ _ hn, hl, ht, hs, hc]

/-- Every row of the table of command codes is a message with its code. -/
theorem exec_rowOf (c : Code) (r : Rig) (tag : Byte) (body : List Byte) (s : State) :
    exec (rowOf c r tag body) s = takeMessage r tag c.byte body s := by cases c <;> rfl

end Sys2Proof.Machine
end

