-- ==== Sys2Proof/Laws/Wire.lean ====
section
/-! SUPPORT. Lengths of what stands on the lines, and that a sealed frame has a good check (R2). -/

namespace Sys2Proof.Machine

theorem be16_length (h : Half) : (be16 h).length = 2 := rfl
theorem be32_length (w : Word) : (be32 w).length = 4 := rfl

/-- The four bytes of a word read back as the word (Conventions: big-endian). -/
theorem word_be32 (w : Word) : word (be32 w) 0 = w := by
  simp only [word, be32, byteAt, List.getD_cons_zero, List.getD_cons_succ]
  apply BitVec.eq_of_getLsbD_eq
  intro i hi
  simp only [BitVec.getLsbD_append, BitVec.getLsbD_extractLsb']
  by_cases h1 : i < 8
  · simp [h1]
  · by_cases h2 : i - 8 < 8
    · simp [h1, h2, show 8 + (i - 8) = i by omega]
    · by_cases h3 : i - 8 - 8 < 8
      · simp [h1, h2, h3, show 16 + (i - 8 - 8) = i by omega]
      · simp [h1, h2, h3, show 24 + (i - 8 - 8 - 8) = i by omega]
        omega

/-- Reading a word past a prefix. -/
theorem word_append (l m : List Byte) : word (l ++ m) l.length = word m 0 := by
  simp [word, byteAt, List.getD_eq_getElem?_getD, List.getElem?_append_right]

theorem sealFrame_length (c : List Byte) : (sealFrame c).length = c.length + 6 := by
  simp [sealFrame, syncWord, be32]

/-- R2: the check of a sealed frame is good. -/
theorem goodCheck_sealFrame (c : List Byte) : goodCheck (c.length + 6) (sealFrame c) = true := by
  have h1 : (sealFrame c).take 2 = syncWord := rfl
  have h2 : ((sealFrame c).drop 2).take (c.length + 6 - 6) = c := by
    have : (sealFrame c).drop 2 = c ++ be32 (frameCheck c) := rfl
    rw [this, Nat.add_sub_cancel, List.take_left]
  have h3 : word (sealFrame c) (c.length + 6 - 4) = frameCheck c := by
    have e : c.length + 6 - 4 = (syncWord ++ c).length := by simp [syncWord]
    rw [e, sealFrame, word_append, word_be32]
  simp only [goodCheck, sealFrame_length, h1, h2, h3]
  simp

theorem packCodes_length (f : Fin 16 → Nat) : (packCodes f).length = 8 := by simp [packCodes]

theorem GangMsg.bytes_length (m : GangMsg) : m.bytes.length = 20 := by
  cases m with
  | none => rfl
  | move m => rfl
  | answer a => rfl
  | propose p => cases p with | mk ref round mask target force cond => cases cond <;> rfl

/-- R111: bytes 2..59 of the gang frame. -/
theorem gangCovered_length (s : Part) (m : GangMsg) : (gangCovered s m).length = 58 := by
  have hb : ∀ e : BoardEntry, e.bytes.length = 2 := by
    intro e; cases e with | mk r st => cases st <;> rfl
  simp only [gangCovered, List.length_append, packCodes_length, GangMsg.bytes_length, List.length_replicate]
  have : (if s.gang.role = .leader then allRefs.flatMap fun r => (s.gang.board.get r).bytes
      else List.replicate 16 (0#8 : Byte)).length = 16 := by
    split
    · simp [List.length_flatMap, hb, allRefs]
    · simp
  rw [this]
  simp [be8, be16, be32]

/-- R111: the gang frame that the part begins has a good check. -/
theorem goodCheck_gangFrame (s : Part) (m : GangMsg) : goodCheck 64 (sealFrame (gangCovered s m)) = true := by
  have h := goodCheck_sealFrame (gangCovered s m)
  rwa [gangCovered_length] at h

/-- R5: a chunk of at most 30 payload bytes has 32 bytes. -/
theorem chunk_length (type : Byte) (payload : List Byte) (h : payload.length ≤ 30) : (chunk type payload).length = 32 := by
  simp [chunk]
  omega

theorem nextChunk_length (m : InSend) : (nextChunk m).1.length = 32 := by
  simp only [nextChunk]
  exact chunk_length _ _ (by simp)

/-- R132: whatever the sender chooses is one chunk. -/
theorem Lane.send_length (l : Lane) (isPaused : Bool) (responses : List Response) :
    (l.send isPaused responses).1.length = 32 := by
  simp only [Lane.send, Lane.choose]
  repeat' split
  all_goals first | rfl | exact nextChunk_length _

end Sys2Proof.Machine
end

