-- ==== Sys2Proof/Tests/Slice0.lean ====
section
/-! SUPPORT. Tests: ill-formed commands that the check refuses; the manual's worked arithmetic; and, for each statement of
Certificates/Slice0/Obligations.lean that has hypotheses, a state and operands that meet them. -/

namespace Sys2Proof.Tests

open Sys2Proof.Machine

/-! ## Ill-formed commands (WellFormed.lean) -/

def frame0 : ForwardFrame :=
  { seq := 8#16, stamp := 124#32, cueField := 5#16, transport := 1#8, flags := 0#8, beat := 9#8,
    lane := List.replicate 32 0#8, audio := silentAudio }

theorem test_wf_frame : (Instr.goodFrame .A frame0).wf = true := by decide
theorem test_ill_lane : (Instr.goodFrame .A { frame0 with lane := [] }).wf = false := by decide
theorem test_ill_audio : (Instr.goodFrame .A { frame0 with audio := [] }).wf = false := by decide
theorem test_ill_period : (Instr.goodFrame .A { frame0 with audio := List.replicate 24 [] }).wf = false := by decide
theorem test_ill_source : (Instr.sourceQualified .free).wf = false := by decide
theorem test_ill_move_tag : (Instr.moveGroupExecute (.command .A 0xFF#8)).wf = false := by decide
theorem test_ill_short : (Instr.save .A 1#8 []).wf = false := by decide
theorem test_ill_long : (Instr.save .A 1#8 (List.replicate 239 0#8)).wf = false := by decide +kernel
theorem test_ill_tag : (Instr.save .A 0xFF#8 [0#8]).wf = false := by decide
theorem test_ill_known_code : (Instr.unknownCommand .A 1#8 0x45#8 [0#8]).wf = false := by decide
theorem test_wf_message : (Instr.save .A 1#8 [0#8]).wf = true := by decide

/-! ## Worked arithmetic of the manual -/

/-- R2: the check of the nine bytes 0x31 to 0x39, by its steps CRC-32 with the most significant bit first. -/
theorem test_check : frameCheck [0x31#8, 0x32#8, 0x33#8, 0x34#8, 0x35#8, 0x36#8, 0x37#8, 0x38#8, 0x39#8] = 0xFC891918#32 := by
  decide +kernel

/-- Section 6.6: a quarter of the way through, under both laws. -/
theorem test_gain_quarter : gainTo .linear 12 48 = 16384 ∧ gainTo .smooth 12 48 = 10240 := by decide
theorem test_mix_quarter : mixInt 1000000 (-200000) 49152 16384 = 700000 ∧ mixInt 1000000 (-200000) 55296 10240 = 812500 := by
  decide
theorem test_mix_small : mixInt 7 0 62806 2730 = 7 ∧ mixInt (-7) 0 62806 2730 = -7 := by decide
theorem test_mix_tie : mixInt 1 0 32768 32768 = 1 ∧ mixInt (-1) 0 32768 32768 = 0 := by decide

/-- R37: the table of moves. -/
theorem test_moves : moveMade 252 (-30) = -30 ∧ moveMade 3030 (-30) = -18 ∧ moveMade 3048 (-12) = 0 ∧ moveMade 40 30 = 16 := by
  decide

/-- R37, at the ends of its clauses: the targets 24 and 3048 are within, a fill above 3048 does not rise. -/
theorem test_move_ends : moveMade 54 30 = 30 ∧ moveMade 3018 (-30) = -30 ∧ moveMade 3060 (-1) = 0 ∧ moveMade 3060 5 = 5 ∧
    moveMade 3060 12 = 12 ∧ moveMade 24 1 = 0 ∧ moveMade (-100) 5 = 0 ∧ moveMade (-100) (-5) = -5 := by decide

/-- R32, section 2.10: a fill of 20 makes one repeat slip; 24 makes none, −1 makes two. -/
theorem test_repeats : ({ Ring.initial with W := 96024#32, R := 96004#32 } : Ring).repeats = 1 ∧
    ({ Ring.initial with W := 24#32 } : Ring).repeats = 0 ∧ ({ Ring.initial with R := 1#32 } : Ring).repeats = 2 := by decide

/-- R65: the ends of the confirm and the clear time. -/
theorem test_causes : evalCause ⟨true, 2#16, 3#16, 0#24, 0#16⟩ true ⟨.pending, 0⟩ = ⟨.pending, 1⟩ ∧
    evalCause ⟨true, 2#16, 3#16, 0#24, 0#16⟩ true ⟨.pending, 1⟩ = ⟨.confirmed, 0⟩ ∧
    evalCause ⟨true, 2#16, 3#16, 0#24, 0#16⟩ false ⟨.clearing, 2⟩ = ⟨.clear, 0⟩ := by decide

/-- R30, step 1: a fill of 3048 takes a frame, one of 3049 makes a skip slip, one of 3072 as well. -/
theorem test_overrun : ({ Ring.initial with W := 3048#32 } : Ring).overrun = false ∧
    ({ Ring.initial with W := 3049#32 } : Ring).overrun = true ∧ ({ Ring.initial with W := 3072#32 } : Ring).overrun = true := by
  decide

/-- R35: after a relock the fill is the fill target, here 240. -/
theorem test_relock : (({ Ring.initial with W := 0xFFFFFFF8#32 } : Ring).take ⟨.real, 0#32, 0#12, .play, [], true, none⟩ 240#16).1.fill = 240 := by
  decide

/-- R90: a reversal and a redirect from q = 144 of 480. -/
theorem test_turn : turn (.fading ⟨.aToB, 144, 480, .smooth, .command, false, 0⟩) (.rig .A) 96 .linear =
      some (.bToA, 336, 480, .smooth) ∧
    turn (.fading ⟨.aToB, 144, 480, .smooth, .command, false, 0⟩) .dark 96 .linear =
      some (.bToDark, 336, 480, .smooth) := by decide

/-! ## The hypotheses of the statements -/

/-- Rig A hunts, verifies or is LOCKED; its line has activity. -/
def rxIn (st : RxState) : Receiver := { Receiver.initial true with state := st }
def withRx (rx : Receiver) : State := { State.reset with rx := ⟨rx, Receiver.initial false⟩ }
def prev0 : PrevFrame := ⟨.real, 100#32, 5#12, .play, some silentAudio⟩
def lockedRx : Receiver := { rxIn .locked with lastSeq := some 7#16, prev := some prev0, firstLock := true }
def withGroup (r : GroupRec) : State := { State.reset with groups := State.reset.groups.set 0 r }
def withHealth (h : Health) (rx : Receiver) : State := { withRx rx with health := ⟨h, Health.initial⟩ }
def onA : GroupRec := { GroupRec.initial with course := .steady (.rig .A), startPending := false }
def fade0 : Fade := ⟨.aToB, 23, 24, .smooth, .command, false, 0⟩
def heldCmd (ph : Phase) : Held := ⟨0, 5#8, 0x40#8, false, ph⟩
def withSlot (ph : Phase) (s : State) : State :=
  { s with port := ⟨{ Port.initial with slots := [heldCmd ph] }, Port.initial⟩, nextId := 1 }
def withGang (g : Gang) : State := { State.reset with gang := g }
def leaderUp : Gang := { Gang.initial .leader with state := .up, matched := 0xFFFF#16 }
def followerUp : Gang := { Gang.initial .follower with state := .up, matched := 0xFFFF#16 }
def report0 (st : Byte) (code : BitVec 4) : GangReport :=
  ⟨st, 10#32, PerRig.both 0#8, 0xFFFF#16, Tbl.fill code, Tbl.fill ⟨false, 0#2, 0#8⟩⟩
def allLow : Lines := ⟨false, false, false, false, false⟩
def order0 : Order := ⟨false, false, false, false, false, false, false, false, none, none⟩

theorem test_hyp_idle : State.reset.pending = [] := rfl
theorem test_hyp_lineReset : ({ State.reset with inReset := true } : State).inReset = true ∧ actsInReset .takeover = false := by
  decide
theorem test_hyp_otherRig : exec (.syncWordFound .A) State.reset = .next State.reset := rfl
theorem test_hyp_step : step State.reset = .next State.reset := rfl
theorem test_hyp_lockOk : lockOk { State.reset.toPart with lock := ⟨.guarded, true, 0⟩ } := by
  intro _; decide
theorem test_hyp_slots : slotsOk (withSlot .taken State.reset).toPart ∧ idsOk (withSlot .taken State.reset).toPart := by
  constructor <;> intro r <;> cases r <;> decide
theorem test_hyp_notices : noticesOk (withSlot .taken State.reset).toPart := by
  constructor
  · intro r; cases r <;> decide
  · decide
theorem test_hyp_rings : ringsOk { State.reset.toPart with
    ring := PerRig.both { Ring.initial with H := 24, W := 24#32, frames := [⟨0#32, 0#32, 0#12, .play, .real, []⟩] } } := by
  intro x
  cases x <;> (refine ⟨by decide, by decide, by decide, ?_⟩; intro i h; have : i = 0 := by simp [PerRig.both, PerRig.get] at h; exact h
               subst this; rfl)
theorem test_hyp_fades : Course.wf (.fading fade0) := by simp [Course.wf, fade0]
theorem test_hyp_scores : scoresOk { State.reset.toPart with rx := PerRig.both { Receiver.initial true with score := 255 } } := by
  constructor
  · intro x; cases x <;> decide
  · decide
theorem test_hyp_receivers : receiversOk (withRx lockedRx).toPart := by
  refine ⟨nofun, fun x => ?_⟩
  cases x <;> (refine ⟨?_, ?_, ?_⟩ <;> decide)
theorem test_hyp_held : receiversOk { State.reset.toPart with inReset := true } ∧
    ∀ x, (({ State.reset with inReset := true } : State).rx.get x).state = .noSignal := by
  refine ⟨⟨?_, fun x => ?_⟩, ?_⟩ <;> (first | intro h x | intro x | skip) <;> cases x <;> decide
theorem test_hyp_reset : State.reset.inReset = false ∧ ({ State.reset with resetRequested := true } : State).resetRequested = true ∧
    ({ State.reset with store := { State.reset.store with save := .saving } } : State).store.save = .saving := by decide
theorem test_hyp_noResetDue : noResetDue (withRx lockedRx).toPart ∧ (withRx lockedRx).rx.a.state = .locked ∧
    (withRx lockedRx).writes = [] ∧ ((withRx lockedRx).ring.get .A).fill ≤ 3072 := by
  refine ⟨⟨rfl, rfl⟩, rfl, rfl, by decide⟩
theorem test_hyp_resetDue : resetDue { State.reset.toPart with resetRequested := true } := ⟨rfl, rfl⟩
theorem test_hyp_adoption : ({ leaderUp with role := .follower, adopt := true, partner := some (report0 2#8 0#4) } : Gang).adopt = true :=
  rfl
/-- A follower in UP whose leader's count is 10, at counts that have drifted by 1 and by 2. -/
def drifting (n : Word) : State :=
  { State.reset with
    clock := { State.reset.clock with frame := n, started := true }
    gang := { followerUp with arrived := true, partner := some (report0 2#8 0#4) } }

theorem test_hyp_drift : noResetDue (drifting 11#32).toPart ∧ (drifting 11#32).gang.adopt = false ∧
    (sdiff (11#32 + 1#32) ((report0 2#8 0#4).frame + 1#32)).natAbs < 2 ∧
    2 ≤ (sdiff (12#32 + 1#32) ((report0 2#8 0#4).frame + 1#32)).natAbs ∧ (drifting 11#32).gang.silence < 7 ∧
    order0.framesFirst = false := by
  refine ⟨⟨rfl, rfl⟩, rfl, ?_, ?_, ?_, rfl⟩ <;> decide
theorem test_hyp_key : (38 : Nat) < 39 ∧ ({ State.reset with lock := ⟨.opened, false, 39⟩ } : State).lock.count = 39 := by decide
theorem test_hyp_source : sourcePresent { State.reset.toPart with clock := { State.reset.clock with refSignal := true } } .ref = true ∧
    (Qual.get ⟨199, 0, 0, 0⟩ .ref = 199) := by decide
theorem test_hyp_cause : activity (rxIn .hunting) factoryWatch Health.initial .linkDown = true ∧
    activity lockedRx factoryWatch Health.initial .linkDown = false ∧
    (factoryWatch.causes.get Cause.linkDown.idx).enabled = true ∧
    (factoryWatch.causes.get Cause.linkDown.idx).confirm.toNat ≤ min (1 + 1) 65535 := by decide

theorem test_hyp_gains : 0 < 24 ∧ 0 ≤ 24 ∧ gainTo .smooth 0 24 = 0 ∧ gainTo .smooth 24 24 = 65536 := by decide
theorem test_hyp_fade : ((withGroup { onA with course := .fading fade0 }).groups.get 0).course = .fading fade0 ∧
    fade0.len ≤ fade0.q + 1 ∧ fade0.q ≤ fade0.len := by decide
theorem test_hyp_arrival : (heldCmd (.move ⟨⟨.rig .B, false, none⟩, some ⟨1#16, .executed 1#16 0#32⟩, none, none⟩)).phase =
      .move ⟨⟨fade0.kind.dst, false, none⟩, some ⟨1#16, .executed 1#16 0#32⟩, none, none⟩ ∧
    (withSlot (.move ⟨⟨.rig .B, false, none⟩, some ⟨1#16, .executed 1#16 0#32⟩, none, none⟩) State.reset).port.a.find 0 =
      some (heldCmd (.move ⟨⟨.rig .B, false, none⟩, some ⟨1#16, .executed 1#16 0#32⟩, none, none⟩)) := by decide

/-- Group 0 AUTO on rig B, failed over from home A; rig A or rig B unusable by the sets in force. -/
def failedOver0 : GroupRec := { onA with course := .steady (.rig .B), failedOver := true, holdTimer := 9999 }
def unusable (a b : BitVec 8) : State :=
  { withGroup onA with health := ⟨{ Health.initial with inForce := a, published := a }, { Health.initial with inForce := b, published := b }⟩ }
def holdEntry : GroupEntry := { factoryGroup with policy := .returnHold, requireAlign := false }
def holdState (r : GroupRec) (require : Bool) : State :=
  { withGroup r with tables := { factoryTables with groups := Tbl.fill { holdEntry with requireAlign := require } } }

theorem test_hyp_policy_failover : onA.course.dest = .rig .A ∧ rigUsable (unusable 1#8 0#8).toPart 0 .A = false ∧
    rigUsable (unusable 1#8 0#8).toPart 0 .B = true ∧ rigUsable (unusable 1#8 1#8).toPart 0 .B = false := by decide
theorem test_hyp_policy_return : rigUsable (holdState failedOver0 false).toPart 0 .A = true ∧
    (groupEntry (holdState failedOver0 false).toPart 0).hold.toNat ≤ min (failedOver0.holdTimer + 1) 65535 ∧
    failedOver0.course = .steady (.rig (groupEntry (holdState failedOver0 false).toPart 0).home.other) ∧
    isLed (holdState failedOver0 false).toPart 0 = false ∧ alignMet (holdState failedOver0 true).toPart = false := by decide

/-- A MANUAL and an AUTO group that hold requests, the last for rig B. -/
def asked : GroupRec :=
  { onA with requests := [⟨.rig .A, .button, none⟩, ⟨.rig .B, .command, some (.command .A 0 false)⟩] }
def askedState (m : Mode) : State :=
  { withGroup asked with tables := { factoryTables with groups := Tbl.fill { factoryGroup with mode := m } }
                         takeover := { done := true, ready := PerRig.both 0 } }

theorem test_hyp_asked : (∀ m, noResetDue (askedState m).toPart) ∧ (askedState .manual).gang.role = .solo ∧
    (groupEntry (askedState .manual).toPart 0).mode = .manual ∧ (groupEntry (askedState .fixed).toPart 0).mode = .fixed ∧
    asked.requests.getLast? = some ⟨.rig .B, .command, some (.command .A 0 false)⟩ ∧ asked.course = .steady (.rig .A) ∧
    (askedState .manual).gang.pending.get 0 = none ∧ usable (askedState .auto).toPart 0 (.rig .B) = true := by
  refine ⟨fun _ => ⟨rfl, rfl⟩, ?_⟩; decide
theorem test_hyp_turn : turn asked.course (.rig .B) 96 .linear = some (.aToB, 0, 96, .linear) := by decide
/-- The failed-over group of the return hold, both rigs usable, bound to a command for rig B. -/
def boundCmd : Held := heldCmd (.move ⟨⟨.rig .B, false, none⟩, some ⟨1#16, .executed 1#16 9#32⟩, none, none⟩)
theorem test_hyp_bound_return : rigUsable (holdState failedOver0 false).toPart 0 .B = true ∧ failedOver0.requests = [] ∧
    ({ failedOver0 with binding := some (.command .A 0 false) } : GroupRec).binding = some (.command .A 0 false) ∧
    (withSlot boundCmd.phase State.reset).port.a.find 0 = some boundCmd ∧ (End.rig .B) ≠ .rig .A ∧
    isLeading (withGang leaderUp).toPart 0 = true := by decide

theorem test_hyp_rx : (withRx (rxIn .hunting)).rx.a.state = .hunting ∧ (withRx (rxIn .verifying)).rx.a.state = .verifying ∧
    State.reset.rx.a.state = .noSignal ∧ (withRx lockedRx).rx.a.state = .locked := by decide
theorem test_hyp_loss : (withRx { lockedRx with missed := true }).rx.a.missed = true ∧
    ({ withRx lockedRx with clock := { State.reset.clock with selected := .rigA } } : State).clock.selected = rigSource .A := by
  decide
theorem test_hyp_hunt : huntSync [0xE7#8, 0xE7#8, 0x1D#8] = some 1 := by decide
theorem test_hyp_locks : ({ rxIn .verifying with verifyCount := 2, lastSeq := some 7#16 } : Receiver).lastSeq.map (fun k => k + 1#16) =
    some frame0.seq := by decide
theorem test_hyp_verify : verifyNext { rxIn .verifying with verifyCount := 2, lastSeq := some 9#16 } frame0 = 1 ∧
    verifyNext (rxIn .verifying) frame0 = 1 := by decide
theorem test_hyp_good : lockedRx.lastSeq.map (fun k => k + 1#16) = some frame0.seq := by decide
theorem test_hyp_bad : prev0.origin = .real ∧ prev0.audio = some silentAudio ∧ lockedRx.prev = some prev0 ∧
    ({ prev0 with origin := .filled, audio := none } : PrevFrame).origin ≠ .real := by decide
theorem test_hyp_gap : (15#16 - 6#16 - 1#16).toNat = 8 ∧ (16#16 - 6#16 - 1#16).toNat = 9 ∧ (6#16 - 6#16 - 1#16).toNat = 65535 := by
  decide
theorem test_hyp_chunks : chunkKind (0x04#8 :: 31#8 :: []) = .malformed ∧ chunkKind (0x06#8 :: []) = .malformed ∧
    chunkKind (0x04#8 :: 30#8 :: []) = .only ∧ chunkKind (0x05#8 :: 200#8 :: []) = .cancel := by decide

theorem test_hyp_canTake : canTake State.reset.toPart .A 1#8 := by
  refine ⟨rfl, by decide, by decide, ?_⟩; intro h hh; cases hh
theorem test_hyp_full : ({ Port.initial with slots := List.replicate 8 (heldCmd .taken) } : Port).free = 0 := by decide
theorem test_hyp_judge : Code.save.lengthOk [1#8] = false ∧ Code.reset.takenAt .frozen = false ∧ 0x00#8 ∉ commandCodes := by decide
theorem test_hyp_row : Code.cancel.byte = 0x43#8 ∧ (rowOf .cancel .A 1#8 [2#8, 2#8, 0#8]).wf = true ∧
    (rowOf .save .A 1#8 [0#8]).wf = true ∧ 0x00#8 ∉ commandCodes := by decide
theorem test_hyp_badCond : readCommand .moveGroup [0#8, 1#8, 1#8, 0#8] (some (0x10#8, 0#16)) = .error 5 := rfl
theorem test_hyp_badParam : readCommand .readWatch [2#8] none = .error 1 := rfl
theorem test_hyp_setup : readCommand .writeSetup [0#8, 240#8, 0#8, 2#8, 0#8, 0#8, 0x07#8, 0xD0#8] none =
    .ok (.write (.setup factorySetup)) := rfl
theorem test_hyp_defaults : readCommand .restoreDefaults [] none = .ok (.write .defaults) := rfl
theorem test_hyp_group : readCommand .writeGroup [0#8, 0#8, 0#8, 0xFF#8, 3#8, 1#8, 0#8, 0x27#8, 0x10#8, 1#8, 0#8, 0#8, 0#8] none =
    .ok (.write (.group 0 factoryGroup)) := rfl
theorem test_hyp_group_fixed : readCommand .writeGroup [0#8, 2#8, 1#8, 0xFF#8, 3#8, 1#8, 0#8, 0x27#8, 0x10#8, 1#8, 0#8, 0#8, 0#8] none =
    .ok (.write (.group 0 { factoryGroup with mode := .fixed, home := .B })) := rfl
theorem test_hyp_route : readCommand .writeRoute [0#8, 1#8, 0x80#8, 0#8, 0#8] none =
    .ok (.write (.route 0 [⟨true, some 0, some 0, 0⟩])) ∧ Code.writeRoute.lengthOk [0#8, 1#8, 0x80#8, 0#8, 0#8] = true :=
  ⟨rfl, by decide⟩
theorem test_hyp_watch : readCommand .writeWatch [0#8, 7#8, 1#8, 0#8, 1#8, 0#8, 1#8, 0#8, 0#8, 0#8, 0#8, 0#8] none =
    .ok (.write (.watchCause .A 7 ⟨true, 1#16, 1#16, 0#24, 0#16⟩)) := rfl
theorem test_hyp_watch_slots : readCommand .writeWatch [0#8, 8#8, 1#8, 5#8, 0#8, 0#8, 0#8, 0#8, 0#8, 0#8, 0#8, 0#8] none =
    .ok (.write (.watchSlots .A [5])) := rfl
theorem test_hyp_fading : ((withGroup { onA with course := .fading fade0 }).groups.get 0).course.isFading = true := by decide
theorem test_hyp_setMode : readMode 2#8 = some .fixed ∧ (groupEntry State.reset.toPart 0).isProtected = false := by decide
theorem test_hyp_move : readCommand .moveGroup [0#8, 1#8, 1#8, 0#8] none =
    .ok (.moveGroup 1#16 ⟨.rig .B, false, none⟩) := rfl
theorem test_hyp_move_taken : checkTaking (withGroup { onA with course := .steady .dark }).toPart 1#16 ⟨.rig .B, false, none⟩ = none ∧
    checkTaking (withGroup onA).toPart 1#16 ⟨.rig .B, false, none⟩ = some (.notAligned, 0) ∧
    isLed (withGroup onA).toPart 0 = false ∧ checkAB (withGroup onA).toPart 1#16 ⟨.rig .B, false, none⟩ = none := by decide
theorem test_hyp_move_led : isLed (withGang followerUp).toPart 0 = true ∧ freeRef (withGang followerUp).toPart = some 0 := by decide
/-- A follower in UP that has only group 0 matched: the mask 3 is split into led 1 and local 2. -/
def splitState : State := { withGang { followerUp with matched := 1#16 } with groups := Tbl.fill { onA with course := .steady .dark } }
theorem test_hyp_move_split : (∀ g, inMask 1#16 g = true ↔ inMask 3#16 g = true ∧ isLed splitState.toPart g = true) ∧
    3#16 &&& ~~~1#16 = 2#16 ∧ checkAll splitState.toPart 2#16 ⟨.rig .B, false, none⟩ = none ∧
    checkAll splitState.toPart 2#16 ⟨.dark, false, none⟩ = some (.badTarget, 1) ∧
    checkAB splitState.toPart 2#16 ⟨.dark, false, none⟩ = some (.badTarget, 1) ∧
    freeRef { splitState.toPart with gang := { splitState.gang with records := Tbl.fill ⟨true, false, none, none, none⟩ } } = none := by
  decide
/-- R149: a masked group that fails check e, and one that fails none; R151: a condition part with a proposed part. -/
theorem test_hyp_fails : failsCheck (withGroup onA).toPart ⟨.rig .B, false, none⟩ .notAligned 0 ∧
    ¬failsCheck (withGroup onA).toPart ⟨.rig .B, false, none⟩ .badTarget 0 ∧ (8#8).toNat < 16 ∧
    checkAB splitState.toPart 2#16 ⟨.rig .B, false, some (readCond 8#8 (0#8 ++ 5#8))⟩ = none ∧
    freeRef splitState.toPart = some 0 := by
  refine ⟨⟨rfl, rfl, rfl, .B, rfl, rfl⟩, fun h => ?_, by decide, by decide, by decide⟩
  rcases h with h | h
  · cases h
  · cases h.1
theorem test_hyp_lock : readLevel 1#8 = some .guarded ∧ readLevel 0#8 = some .opened := by decide
theorem test_hyp_cancel : (((withSlot .pendingWrite State.reset).port.get .A).slots.map fun h => h.id).Nodup ∧
    canTake (withSlot .pendingWrite State.reset).toPart .A 1#8 := by
  refine ⟨by decide, rfl, by decide, by decide, by decide⟩
theorem test_hyp_cancel_scopes : Scope.selects (.tag 5#8) (heldCmd .pendingWrite) = true ∧
    Scope.selects (.tag 6#8) (heldCmd .pendingWrite) = false ∧ Scope.selects .waiting boundCmd = false ∧
    Scope.selects .waiting (heldCmd (.move ⟨⟨.rig .B, false, none⟩, some ⟨1#16, .held⟩, none, none⟩)) = true := by decide
theorem test_hyp_lane : (Lane.initial.cancelFirst = true) ∧ ([1#8, 2#8].drop 1 : List Byte) ≠ [] ∧
    ({ Lane.initial with cancelFirst := false, notices := [⟨0#32, .store 2 false⟩] } : Lane).notices =
      [⟨0#32, .store 2 false⟩] := by decide
/-- R57, R58: the normal advance of a reference that counts one stand-in, and the end of a jump run. -/
theorem test_hyp_arrive : sdiff 48#32 0#32 = 24 * (((1 : Nat) : Int) + 1) ∧
    stallAfter { Health.initial with arrival := some ⟨0#32, 5#12, .play, 1⟩ } ⟨.real, 0#32, 5#12, .play, [], false, none⟩ = true ∧
    jumpAfter { Health.initial with arrival := some ⟨0#32, 5#12, .play, 1⟩, jump := true, jumpRun := 7 }
      ⟨.real, 48#32, 5#12, .play, [], false, none⟩ = (false, 0) ∧
    jumpAfter { Health.initial with arrival := some ⟨0#32, 5#12, .play, 1⟩ } ⟨.real, 49#32, 5#12, .play, [], false, none⟩ = (true, 0) := by
  decide
theorem test_hyp_frameSent : ({ Port.initial with out := some [], lane := { Lane.initial with
    inSend := some ⟨.response 0 true, [0#8], 1⟩ } } : Port).lane.inSend = some ⟨.response 0 true, [0#8], 1⟩ := rfl

theorem test_hyp_timers : ({ Health.initial with beatAge := 199 } : Health).beatAge + 1 =
    (factoryWatch.causes.get Cause.beatLost.idx).p2.toNat ∧
    ({ Health.initial with silenceRun := 3999 } : Health).silenceRun + 1 =
      (factoryWatch.causes.get Cause.silence.idx).p2.toNat := by decide
theorem test_hyp_takeover : triggerReady ({ State.reset with rx := PerRig.both lockedRx } : State).toPart .A = true ∧
    triggerReady ({ State.reset with rx := PerRig.both lockedRx } : State).toPart .B = true ∧
    triggerReady (withRx lockedRx).toPart .B = false ∧ (2000#16).toNat ≤ min (1999 + 1) 20000 ∧
    startReady (withRx lockedRx).toPart 0 .A = true ∧ startReady (withRx lockedRx).toPart 0 .B = false := by decide
/-- R170: ALARM at State.reset, in a held reset, and in PULSE with a count. -/
theorem test_alarm : alarm State.reset.toPart = false ∧ alarm { State.reset.toPart with inReset := true } = false ∧
    alarm (withGroup failedOver0).toPart = true ∧
    alarm { State.reset.toPart with tables := { factoryTables with setup := { factorySetup with alarm := .pulse } },
                                    panel := { State.reset.panel with pulse := 1 } } = true ∧
    tally (withGroup onA).toPart .A = true := by decide
theorem test_hyp_button : ({ State.reset.panel with buttons := PerRig.both ⟨39, false⟩ } : Panel).buttons.a.run = 39 := by decide
theorem test_hyp_follower_press : followerUp.state = .up ∧ followerUp.matched ≠ 0#16 ∧ followerUp.role = .follower := by decide
/-- R89: MOVE to B, MOVE to A and a press of B at one group: the first two are replaced, and a press alone replaces nothing of
the same destination. -/
theorem test_replaced : replacedOwners [⟨.rig .B, .command, some (.command .A 0 false)⟩,
      ⟨.rig .A, .command, some (.command .A 1 false)⟩, ⟨.rig .B, .button, none⟩] =
        [.command .A 0 false, .command .A 1 false] ∧
    replacedOwners [⟨.rig .B, .command, some (.command .A 0 false)⟩, ⟨.rig .B, .button, none⟩] = [] := by decide
theorem test_hyp_execute : (moveIds (withSlot (.move ⟨⟨.rig .A, false, none⟩, some ⟨1#16, .held⟩, none, none⟩) (withGroup onA)).toPart
      .A 5#8).head? = some 0 ∧ checkAll (withGroup onA).toPart 1#16 ⟨.rig .A, false, none⟩ = none := by decide
theorem test_hyp_execute_bound : checkAll (withGroup { onA with course := .steady .dark }).toPart 1#16 ⟨.rig .A, false, none⟩ = none ∧
    condHolds (withGroup onA).toPart 1#16 (.rig .A) ⟨true, false, false, false, 5#16⟩ = true := by decide
theorem test_hyp_timeout : checkAB (withGroup onA).toPart 1#16 ⟨.rig .B, false, some ⟨false, true, false, false, 1#16⟩⟩ = none ∧
    condHolds (withGroup onA).toPart 1#16 (.rig .B) ⟨false, true, false, false, 1#16⟩ = false ∧ (1#16).toNat ≤ 0 + 1 := by decide
theorem test_hyp_writes : (WriteAct.setup factorySetup).isTable = true ∧
    setModeCheck factoryGroup onA .manual = none ∧ setModeCheck factoryGroup { onA with course := .steady .dark } .fixed = some .badTarget := by
  decide
theorem test_hyp_saving : ((withSlot .saving State.reset).port.get .A).slots.find? isSaving = some (heldCmd .saving) := by decide

/-- A gang frame of a leader in UP that carries a MOVE, and one of a follower that carries a PROPOSE. -/
def moveMsg0 : MoveMsg := ⟨0, .dark, .rig .A, .smooth, 24, 24, 12#32, false, false, false⟩
def leaderFrame : List Byte := sealFrame (gangCovered (withGang leaderUp).toPart (.move moveMsg0))
def followerFrame : List Byte :=
  sealFrame (gangCovered (withGang followerUp).toPart (.propose ⟨0, true, 1#16, .rig .A, true, some ⟨true, false, false, false, 0#16⟩⟩))

theorem test_hyp_gangFrame : goodCheck 64 leaderFrame = true := goodCheck_gangFrame _ _
theorem test_hyp_gangMove : (byteAt leaderFrame 2).toNat = Role.follower.partner.code ∧
    readGangMsg leaderFrame = .move moveMsg0 ∧ inMask 0xFFFF#16 (0 : Fin 16) = true := by decide +kernel
theorem test_hyp_gangBad : goodCheck 64 [] = false := by decide
/-- A follower that is not in UP proposes a button press for DARK: the board clears, and the press waits (logs 59 and 60). -/
def strangeFrame : List Byte :=
  sealFrame (gangCovered (withGang (Gang.initial .follower)).toPart (.propose ⟨8, true, 1#16, .dark, false, some ⟨true, false, false, false, 0#16⟩⟩))
def boardHeld : State := withGang { leaderUp with board := leaderUp.board.set 0 ⟨true, .answered .ok⟩ }
theorem test_hyp_propose_not_up : byteAt strangeFrame 3 ≠ 2#8 ∧
    readGangMsg strangeFrame = .propose ⟨8, true, 1#16, .dark, false, some ⟨true, false, false, false, 0#16⟩⟩ ∧
    (acceptFrame strangeFrame boardHeld.toPart).gang.board.get 0 = ⟨true, .idle⟩ ∧
    (acceptFrame strangeFrame boardHeld.toPart).gang.presses = [⟨.dark, 1#16, true⟩] := by decide +kernel
theorem test_hyp_propose : byteAt followerFrame 3 = 2#8 ∧ readGangMsg followerFrame =
    .propose ⟨0, true, 1#16, .rig .A, true, some ⟨true, false, false, false, 0#16⟩⟩ := by decide +kernel
/-- A leader's frame with the answer OK for ref 0, and a follower that awaits it for a command. -/
def answerFrame : List Byte := sealFrame (gangCovered (withGang leaderUp).toPart (.answer ⟨0, true, .ok⟩))
def awaiting0 : Gang :=
  { followerUp with records := followerUp.records.set 0 ⟨true, true, some (.A, 0), some 9#32, none⟩ }
theorem test_hyp_answer : goodCheck 64 answerFrame = true ∧ readGangMsg answerFrame = .answer ⟨0, true, .ok⟩ :=
  ⟨goodCheck_gangFrame _ _, by decide +kernel⟩
theorem test_hyp_answer_board : ((readReport answerFrame).board.get 0).state ≠ 2#2 ∧
    (byteAt answerFrame 2).toNat = Role.leader.code := by decide +kernel
theorem test_hyp_other_answer : (followerUp.records.get 0).awaiting = false ∧ ((readReport leaderFrame).board.get 0).state ≠ 2#2 ∧
    readGangMsg leaderFrame ≠ .answer ⟨0, true, .ok⟩ := by decide +kernel
theorem test_hyp_awaiting : (awaiting0.records.get 0).awaiting = true ∧ (awaiting0.records.get 0).round = true ∧
    (∀ j, j ≠ 0 → (awaiting0.records.get j).serves ≠ some (.A, 0)) ∧
    (heldCmd (.move ⟨⟨.rig .B, false, none⟩, none, some ⟨1#16, .proposed 0⟩, none⟩)).phase =
      .move ⟨⟨.rig .B, false, none⟩, none, some ⟨1#16, .proposed 0⟩, none⟩ := by decide
theorem test_hyp_propose_fails : checkTaking (withGang leaderUp).toPart 1#16 ⟨.dark, false, none⟩ = some (.badTarget, 0) := by
  decide
theorem test_hyp_link : ({ Gang.initial .leader with goodRun := 3 } : Gang).state = .seeking ∧ (Gang.initial .solo).role = .solo := by
  decide
theorem test_hyp_start : isLed (withGang followerUp).toPart 0 = true ∧ 0 ≤ sdiff 12#32 moveMsg0.start ∧
    min moveMsg0.len (moveMsg0.q0 + 24 * (sdiff 12#32 moveMsg0.start).toNat) = moveMsg0.len ∧
    min 48 (0 + 24 * (sdiff 13#32 12#32).toNat) = 24 := by decide
def strayMsg : MoveMsg := { moveMsg0 with src := .rig .A, dst := .dark, q0 := 0 }
/-- R88, R107: an AUTO group off an unusable rig whose pending MOVE starts though it has left the matched set: one BEGUN. -/
def strayState : State :=
  { unusable 1#8 0#8 with
    clock := { State.reset.clock with frame := 12#32 }
    takeover := { done := true, ready := PerRig.both 0 }
    gang := { followerUp with matched := 0#16, pending := followerUp.pending.set 0 (some strayMsg) } }
theorem test_stray_move : strayMove strayState.toPart 0 = true ∧ isLed strayState.toPart 0 = false ∧
    ((switchTurn allLow order0 strayState.toPart).port.a.lane.notices.filter fun n =>
      match n.body with
      | .groupMove 0 false _ _ _ _ _ _ => true
      | _ => false).length = 1 ∧
    ((switchTurn allLow order0 strayState.toPart).groups.get 0).course.dest = .dark := by decide +kernel
theorem test_hyp_resend : (0 : Int) ≤ sdiff (report0 2#8 0#4).frame (8#32 + 2#32) ∧ ((report0 2#8 0#4).board.get 0).state ≠ 1#2 := by
  decide
theorem test_hyp_mismatch : isLeading (withGang leaderUp).toPart 0 = true ∧
    ((report0 2#8 1#4).codes.get 0).toNat ≠ (Course.steady .dark).code := by decide
theorem test_hyp_failover : (unusable 1#8 0#8).health.a.published &&& factoryGroup.mask ≠ 0#8 ∧
    (unusable 1#8 0#8).health.b.published &&& factoryGroup.mask = 0#8 ∧ factoryGroup.mode = .auto ∧
    ((unusable 1#8 0#8).groups.get 0).course = .steady (.rig .A) := by decide
theorem test_hyp_records : factoryWatch.causes.get 1 = ⟨true, 0#16, 2000#16, 40#24, 0#16⟩ ∧ readP1 1 40#24 = some 40#24 ∧
    readP2 1 0#16 = some 0#16 ∧ readP2 4 1#16 = some 1#16 ∧ readP1 1 7#24 = none ∧ readP1 1 255#24 = some 255#24 := by decide

/-- R41 to R45: two offers of one cue, 3 samples apart, and a history that is stable at 3. -/
def offer (stamp : Word) : Yield := ⟨⟨0#32, stamp, 5#12, .play, .real, []⟩, 0⟩
theorem test_hyp_tracker : classify true true (some (offer 7#32)) (some (offer 10#32)) = .valid 3 ∧
    classify true true none (some (offer 10#32)) = .skipped ∧ stableOf [3, 3, 3, 3, 3] = some 3 ∧
    cueChanged (some 5#12) (some (offer 7#32)) = false ∧ cueChanged (some 4#12) (some (offer 7#32)) = true ∧
    ({ Tracker.initial with history := [3, 3, 3, 3, 3] } : Tracker).side .A = some (.B, 3) := by decide
/-- R37, R49: both rigs LOCKED and off air, a history stable at 3; with and without rig B leaving LOCKED between the
classification and the move request. -/
def stable3 : State :=
  { State.reset with rx := PerRig.both lockedRx, tracker := { Tracker.initial with history := [3, 3, 3, 3, 3] },
                     ring := PerRig.both { Ring.initial with W := 240#32 } }
def orderLossB : Order := { order0 with lossB := some .activity }
theorem test_hyp_losesAt : losesAt orderLossB stable3.toPart .B ∧ ¬losesAt orderLossB stable3.toPart .A ∧
    losesAt { order0 with lossA := some .syncWord } (withRx { lockedRx with missed := true }).toPart .A ∧
    (∀ x, ¬losesAt order0 stable3.toPart x) ∧ (24 : Int) ≤ (stable3.ring.get .B).fill := by
  refine ⟨⟨rfl, .inl rfl⟩, fun h => ?_, ⟨rfl, .inr ⟨rfl, rfl⟩⟩, fun x h => ?_, by decide⟩
  · rcases h with ⟨_, h | h⟩
    · cases h
    · cases h.1
  · cases x <;> (rcases h with ⟨_, h | h⟩; cases h; cases h.1)
theorem test_loss_at_request : (trackerTurn orderLossB stable3.toPart).tracker.lastCorr = some ⟨.B, 3, 0⟩ ∧
    (trackerTurn orderLossB stable3.toPart).tracker.state = .outOfReach ∧
    ((trackerTurn orderLossB stable3.toPart).ring.get .B).R = 240#32 ∧
    (trackerTurn order0 stable3.toPart).tracker.lastCorr = some ⟨.B, 3, 3⟩ ∧
    ((trackerTurn order0 stable3.toPart).ring.get .B).R = 0#32 - 3#32 := by decide +kernel
theorem test_hyp_summary : (0#16 : Half).toInt = max (-32767) (min 32767 (State.reset.tracker.stable.getD 0)) ∧
    ∀ g : Fin 16, (0#16 : Half).getLsbD g.val = (State.reset.groups.get g).failedOver := by decide

/-- R29, R94: a ring that meets Ring.wf, its yield at both ends of its one frame, and silence beside them. -/
def frame1 : RingFrame := ⟨0#32, 0#32, 0#12, .play, .real, List.replicate 24 (List.replicate 64 7#24)⟩
def ring1 (R : Word) : Ring := { Ring.initial with H := 24, W := 24#32, R := R, frames := [frame1] }
theorem test_hyp_yield : (ring1 23#32).wf ∧ (ring1 23#32).yield = some ⟨frame1, 23⟩ ∧ (ring1 0#32).yield = some ⟨frame1, 0⟩ ∧
    (ring1 24#32).yield = none ∧ (ring1 (0#32 - 1#32)).yield = none := by
  refine ⟨⟨by decide, by decide, by decide, ?_⟩, by decide, by decide, by decide, by decide⟩
  intro i h
  have : i = 0 := by simpa [ring1] using h
  subst this
  rfl
theorem test_hyp_contribution : contribution ⟨true, some 63, none, 0⟩ (some ⟨frame1, 23⟩) none (.rig .A) = 7#24 ∧
    contribution ⟨true, none, some 0, 0⟩ none (some ⟨frame1, 0⟩) (.rig .B) = 7#24 ∧
    contribution ⟨true, none, some 0, 0⟩ (some ⟨frame1, 0⟩) none (.rig .A) = 0#24 := by decide
/-- R139, R144, R148: the first check that fails, the second one too, and a list of checks that all hold. -/
theorem test_hyp_ranges : firstFails (rangeChecks .readWatch [2#8] none) 1 ∧ firstFails (rangeChecks .readCounts [1#8, 2#8] none) 2 ∧
    (∀ x ∈ rangeChecks .setLock [2#8] none, x.2) ∧ readCommand .readCounts [1#8, 2#8] none = .error 2 ∧
    readCommand .writeWatch [0#8, 8#8, 2#8, 5#8, 5#8] none = .error 5 := by
  refine ⟨⟨[], [], _, rfl, by decide, nofun⟩, ⟨[(1, 1 ≤ 1)], [], _, rfl, by decide, ?_⟩, ?_, rfl, rfl⟩ <;>
    (intro x hx; obtain rfl := List.mem_singleton.1 hx; decide)
theorem test_hyp_setup_ranges : 48 ≤ factorySetup.fill.toNat ∧ factorySetup.fill.toNat ≤ 1536 ∧ factorySetup.tolerance.toNat ≤ 480 ∧
    factorySetup.startHold.toNat ≤ 20000 ∧ ([0, 63] : List (Fin 64)).Nodup := by decide
/-- R162: the KEY filter's turn at the 40th boundary of an assertion in OPEN, and in FROZEN. -/
def keyDue (level : LockLevel) : Machine.Part := { State.reset.toPart with lock := ⟨level, false, 39⟩ }
theorem test_hyp_key_turn : (keyTurn true (keyDue .opened)).port.a.lane.notices = [⟨0#32, .lock .opened .guarded true⟩] ∧
    (keyTurn true (keyDue .frozen)).port.a.lane.notices = [] ∧ (keyTurn true (keyDue .frozen)).lock.key = true := by decide
/-- R155: of two pending writes a CANCEL of one takes that one, and a command that it does not select stays. -/
def twoWrites : State :=
  { withSlot .pendingWrite State.reset with writes := [⟨some (.A, 0), .bypass true⟩, ⟨some (.B, 0), .bypass false⟩] }
theorem test_cancel_writes : (takeCancel .A 9 (.tag 5#8) twoWrites.toPart).writes = [⟨some (.B, 0), .bypass false⟩] ∧
    (takeCancel .A 9 (.tag 6#8) twoWrites.toPart).writes = twoWrites.writes := by decide

/-- R64, R66, R72: a CONFIRMED LINK_DOWN that two writes of one boundary disable and enable again starts from CLEAR there, joins
the sticky set, and one notice is raised also where it is CONFIRMED again at once. -/
def downRig : State :=
  withHealth { Health.initial with causes := Health.initial.causes.set 0 ⟨.confirmed, 0⟩, health := .failed, published := 1#8 }
    (Receiver.initial true)
def toggled (confirm : Half) : State :=
  { downRig with
    writes := [⟨none, .watchCause .A 0 ⟨false, 0#16, 0#16, 0#24, 0#16⟩⟩, ⟨none, .watchCause .A 0 ⟨true, confirm, 9#16, 0#24, 0#16⟩⟩] }
def healthNotices (s : Machine.Part) : Nat := (s.port.a.lane.notices.filter fun n =>
  match n.body with
  | .rigHealth .A _ _ _ _ _ _ => true
  | _ => false).length
def watched (s : State) : Machine.Part := watchTurn order0 s.health (writesTurn s.toPart)
theorem test_toggle : ((watched (toggled 2#16)).health.a.causes.get 0) = ⟨.pending, 0⟩ ∧
    (watched (toggled 2#16)).health.a.sticky = 1#8 ∧ (watched (toggled 2#16)).health.a.published = 0#8 ∧
    ((watched (toggled 0#16)).health.a.causes.get 0) = ⟨.confirmed, 0⟩ ∧ healthNotices (watched (toggled 0#16)) = 1 ∧
    healthNotices (watched downRig) = 0 := by decide +kernel
theorem test_toggle_alone : (settleWrites downRig.health (applyTableWrites (toggled 2#16).writes (toggled 2#16).toPart)).health.a.health =
    .good ∧ healthNotices (settleWrites downRig.health (applyTableWrites (toggled 2#16).writes (toggled 2#16).toPart)) = 1 := by
  decide +kernel
/-- R123, R150: a command whose own part has executed and whose reclaimed part is still held is named and executes. -/
def reclaimedCmd (st : Stage) : Phase := .move ⟨⟨.rig .B, true, none⟩, some ⟨2#16, .executed 2#16 0#32⟩, some ⟨1#16, st⟩, none⟩
theorem test_reclaimed : (moveIds (withSlot (reclaimedCmd .held) (withGroup onA)).toPart .A 5#8).head? = some 0 ∧
    moveIds (withSlot (reclaimedCmd (.executed 1#16 0#32)) (withGroup onA)).toPart .A 5#8 = [] ∧
    checkAll (withSlot (reclaimedCmd .held) (withGroup onA)).toPart 1#16 ⟨.rig .B, true, none⟩ = none ∧
    ((executeIfReady (.command .A 0 true) (withSlot (reclaimedCmd .held) (withGroup onA)).toPart).groups.get 0).binding =
      some (.command .A 0 true) := by decide +kernel
/-- R151: the same command with a reclaimed part that waits, and a condition that does not hold. -/
theorem test_reclaimed_timeout :
    (moveIds (withSlot (reclaimedCmd (.waiting 0)) (withGroup onA)).toPart .A 5#8).head? = some 0 ∧
    checkAB (withGroup onA).toPart 1#16 ⟨.rig .B, true, some ⟨false, true, false, false, 1#16⟩⟩ = none ∧
    condHolds (withGroup onA).toPart 1#16 (.rig .B) ⟨false, true, false, false, 1#16⟩ = false := by decide +kernel

/-- R88, step 3: an AUTO group in DARK, and a failed-over one, that a request asks for another rig: R97 and R100 replace it; with
no such step the request stands, and R96 may set the present destination. -/
def askB (r : GroupRec) (stopped : Bool) : Machine.Part :=
  { (withGroup { r with startPending := false, requests := [⟨.rig .B, .button, none⟩] }).toPart with
    tables := { factoryTables with groups := factoryTables.groups.set 0 { factoryGroup with policy := .returnAtStop } }
    tracker := { Tracker.initial with inForce := { Tracker.initial.inForce with bothStopped := stopped } } }
def destOf (d : Decision) : End × Option Reason := (d.after.course.dest, d.begun.map fun f => f.reason)
theorem test_auto_request :
    destOf (decide88 (askB GroupRec.initial false) 0) = (.rig .A, some .autoReturn) ∧
    destOf (decide88 (askB { GroupRec.initial with darkByRequest := true } false) 0) = (.rig .B, some .button) ∧
    destOf (decide88 (askB onA true) 0) = (.rig .B, some .button) ∧
    destOf (decide88 (askB { onA with course := .steady (.rig .B), failedOver := true } true) 0) = (.rig .A, some .autoReturn) ∧
    destOf (decide88 (askB { onA with course := .steady (.rig .B), failedOver := true } false) 0) = (.rig .B, none) := by
  decide +kernel

/-- R120, R150, R151: a leader's board with a proposal that executes, one that times out, and one for an unmatched group. -/
def boardWith (matched : Half) (req : MoveReq) (st : Stage) : State :=
  { withGroup onA with gang := { leaderUp with matched, board := leaderUp.board.set 0 ⟨true, .held req ⟨1#16, st⟩⟩ } }
def waitAligned : MoveReq := ⟨.rig .B, true, some ⟨false, true, false, false, 1#16⟩⟩
theorem test_hyp_proposal : isLeading (boardWith 1#16 ⟨.rig .A, true, none⟩ .held).toPart 0 = true ∧
    checkAll (boardWith 1#16 ⟨.rig .A, true, none⟩ .held).toPart 1#16 ⟨.rig .A, true, none⟩ = none ∧
    ((executeIfReady (.proposal 0) (boardWith 1#16 ⟨.rig .A, true, none⟩ .held).toPart).gang.board.get 0) = ⟨true, .answered .ok⟩ ∧
    ((executeIfReady (.proposal 0) (boardWith 0#16 ⟨.rig .A, true, none⟩ .held).toPart).gang.board.get 0) =
      ⟨true, .answered .badTarget⟩ ∧
    ((timeoutIfDue (.proposal 0) (boardWith 1#16 waitAligned (.waiting 0)).toPart).gang.answers) = [⟨0, true, .timeout⟩] := by
  decide +kernel
/-- R119, R155: a CANCEL of a split command whose PROPOSE has been sent, and of one whose PROPOSE has not. -/
def proposed0 (sent : Option Word) : State :=
  let p : ProposeMsg := ⟨0, true, 1#16, .rig .A, true, none⟩
  { withSlot (.move ⟨⟨.rig .A, true, none⟩, none, some ⟨1#16, .proposed 0⟩, none⟩) State.reset with
    gang := { followerUp with records := followerUp.records.set 0 ⟨true, true, some (.A, 0), sent, some p⟩, proposes := [p] } }
theorem test_cancel_split :
    (takeCancel .A 9 .all (proposed0 (some 3#32)).toPart).gang.proposes = [⟨0, false, 0#16, .rig .A, true, none⟩] ∧
    ((takeCancel .A 9 .all (proposed0 (some 3#32)).toPart).gang.records.get 0).awaiting = true ∧
    (takeCancel .A 9 .all (proposed0 none).toPart).gang.proposes = [] ∧
    ((takeCancel .A 9 .all (proposed0 none).toPart).gang.records.get 0).awaiting = false := by decide +kernel
/-- R155, log 17: a split command whose local part executed and was superseded counts as executed. -/
theorem test_waiting_split : MoveCmd.executed ⟨⟨.rig .A, true, none⟩, some ⟨2#16, .ended []⟩, some ⟨1#16, .proposed 0⟩, some (.superseded, [])⟩ = true ∧
    MoveCmd.executed ⟨⟨.rig .A, true, none⟩, some ⟨2#16, .ended []⟩, some ⟨1#16, .proposed 0⟩, some (.timeout, [])⟩ = false := by decide
/-- R117: a MOVE goes before an ANSWER, and an ANSWER before a PROPOSE. -/
theorem test_gang_message :
    (takeGangMsg (withGang { leaderUp with moves := [moveMsg0], answers := [⟨0, true, .ok⟩] }).toPart).1 = .move moveMsg0 ∧
    (takeGangMsg (withGang { leaderUp with answers := [⟨0, true, .ok⟩] }).toPart).1 = .answer ⟨0, true, .ok⟩ ∧
    ((takeGangMsg (proposed0 none).toPart).2.gang.records.get 0).sentAt = some 0#32 := by decide

end Sys2Proof.Tests
end

section
/-! SUPPORT. What a command leaves behind as one part, the blocks that each command may change, and how an invariant of the
part is carried over a step. -/

namespace Sys2Proof.Machine

/-! ## A command as a change of the part -/

/-- The part that a command leaves. -/
def partAfter (c : Instr) (s : State) : Part :=
  match exec c s with
  | .next t => t.toPart
  | .fault _ | .refused _ => s.toPart

/-- No command faults or is refused, and none changes the queue. -/
theorem exec_eq_partAfter (c : Instr) (s : State) : exec c s = .next (s.withPart (partAfter c s)) := by
  cases c <;> rfl

theorem toPart_of_exec {c : Instr} {s t : State} (h : exec c s = .next t) : t.toPart = partAfter c s := by
  rw [exec_eq_partAfter] at h
  cases h; rfl

/-- A property of the part that every command keeps is kept by every step. -/
theorem step_keeps {P : Part → Prop} (keeps : ∀ (c : Instr) (s : State), P s.toPart → P (partAfter c s)) (s t : State)
    (h : P s.toPart) (hstep : step s = .next t) : P t.toPart := by
  unfold step at hstep
  split at hstep
  next => cases hstep; exact h
  next c rest _ =>
    rw [toPart_of_exec hstep]
    exact keeps c _ h

@[simp] theorem unlessReset_of_held (f : Part → Part) (s : Part) (h : s.inReset = true) : unlessReset f s = s := by
  simp [unlessReset, h]

@[simp] theorem unlessReset_of_running (f : Part → Part) (s : Part) (h : s.inReset = false) :
    unlessReset f s = f s := by
  simp [unlessReset, h]

/-- The part after a command that the RESET line keeps from acting. -/
theorem partAfter_of_unlessReset {c : Instr} {s : State} {f : Part → Part} (h : exec c s = onPart (unlessReset f) s) :
    partAfter c s = unlessReset f s.toPart := by
  unfold partAfter
  rw [h]
  rfl

/-- R1, R167: the commands that do not act in a held reset leave the part as it is. -/
theorem partAfter_of_held (c : Instr) (s : State) (h : s.inReset = true) (hc : actsInReset c = false) :
    partAfter c s = s.toPart := by
  cases c
  case powerOnReset | lineResetEnd | lineActivityLost | lineActivityPresent | refSignalLost | refSignalPresent |
      saveComplete => simp [actsInReset] at hc
  all_goals exact (partAfter_of_unlessReset rfl).trans (unlessReset_of_held _ _ h)

/-! ## Blocks through conditions -/

theorem Same.ite {F : List Block} {s a b : Part} {p : Prop} [Decidable p] (ha : p → Same F s a) (hb : ¬p → Same F s b) :
    Same F s (if p then a else b) := by
  split
  case isTrue h => exact ha h
  case isFalse h => exact hb h

/-- A step that is taken only under a condition. -/
theorem Same.when {F : List Block} {s a : Part} {p : Prop} [Decidable p] (ha : Same F s a) :
    Same F s (if p then a else s) := Same.ite (fun _ => ha) (fun _ => Same.refl F s)

theorem unlessReset_same {F : List Block} {f : Part → Part} (s : Part) (h : Same F s (f s)) :
    Same F s (unlessReset f s) := Same.ite (fun _ => Same.refl F s) (fun _ => h)

theorem whenRx_same {F : List Block} {f : Part → Part} (r : Rig) (st : RxState) (s : Part) (h : Same F s (f s)) :
    Same F s (whenRx r st f s) := Same.when h

/-! ## Messages -/

/-- The blocks that performing a command may change. -/
def Command.blocks : Command → List Block
  | .identify | .readStatus | .readRoute _ _ | .readGroup _ _ | .readWatch _ | .readAlign | .reset => [.port]
  | .readHealth _ _ | .markRig _ _ => [.port, .health]
  | .readCounts _ _ => [.port, .rx]
  | .write _ | .setMode _ _ | .bypass _ => [.port, .writes]
  | .moveGroup _ _ => [.port, .gang]
  | .cancel _ => [.port, .writes, .gang, .groups]
  | .setLock _ => [.port, .lock, .program]
  | .save => [.port, .store]

/-- The blocks that judging a command of a code may change. -/
def Code.blocks : Code → List Block
  | .identify | .readStatus | .readRoute | .readGroup | .readWatch | .readAlign | .reset => [.port]
  | .readHealth | .markRig => [.port, .health]
  | .readCounts => [.port, .rx]
  | .writeRoute | .writeGroup | .writeWatch | .writeSetup | .restoreDefaults | .setMode | .bypass => [.port, .writes]
  | .moveGroup => [.port, .gang]
  | .cancel => [.port, .writes, .gang, .groups]
  | .setLock => [.port, .lock, .program]
  | .save => [.port, .store]

theorem perform_blocks (r : Rig) (id : Nat) (c : Command) (s : Part) : Same c.blocks s (perform r id c s) := by
  cases c with
  | readHealth x clear => exact (respond_same _ _ _ _ _ _).step (clearSticky_same _ _ _) rfl
  | readCounts x clear =>
    exact ((respond_same _ _ _ _ _ _).mono rfl).trans (Same.when ((clearCounts_same _ _).mono rfl))
  | write act => exact takeWrite_same _ _ _ _
  | moveGroup mask req => exact takeMove_same _ _ _ _ _
  | setMode g mode => exact takeSetMode_same _ _ _ _ _
  | markRig x fault => exact takeMarkRig_same _ _ _ _ _
  | cancel sc => exact takeCancel_same _ _ _ _
  | setLock level => exact takeSetLock_same _ _ _ _
  | save => exact takeSave_same _ _ _
  | bypass engage => exact acceptWrite_same _ _ _ _
  | identify | readStatus | readRoute | readGroup | readWatch | readAlign | reset => exact respond_same _ _ _ _ _ _

/-- A sequence of reads that succeeds: the first has succeeded, and the rest with its value. -/
theorem except_bind_eq_ok {ε α β : Type} {x : Except ε α} {f : α → Except ε β} {b : β} :
    (x >>= f) = .ok b ↔ ∃ a, x = .ok a ∧ f a = .ok b := by
  cases x <;> simp [bind, Except.bind]

theorem except_pure_eq_ok {ε α : Type} {a b : α} : (pure a : Except ε α) = .ok b ↔ a = b := by
  simp [pure, Except.pure]

/-- The four writes read as writes. -/
theorem write_of_readWrite {p : List Byte} {cmd : Command}
    (h : readWriteRoute p = .ok cmd ∨ readWriteGroup p = .ok cmd ∨ readWriteWatch p = .ok cmd ∨ readWriteSetup p = .ok cmd) :
    ∃ act, cmd = .write act := by
  rcases h with h | h | h | h
  · simp only [readWriteRoute, except_bind_eq_ok, except_pure_eq_ok] at h
    obtain ⟨_, _, _, _, _, _, es, _, rfl⟩ := h
    exact ⟨_, rfl⟩
  · simp only [readWriteGroup, except_bind_eq_ok, except_pure_eq_ok] at h
    obtain ⟨_, _, _, _, _, _, _, _, _, _, _, _, _, _, _, _, _, _, _, _, rfl⟩ := h
    exact ⟨_, rfl⟩
  · simp only [readWriteWatch, except_bind_eq_ok] at h
    obtain ⟨x, _, h⟩ := h
    split at h
    · simp only [readWatchCause, except_bind_eq_ok, except_pure_eq_ok] at h
      obtain ⟨_, _, _, _, _, _, rfl⟩ := h
      exact ⟨_, rfl⟩
    · simp only [readWatchSlots, except_bind_eq_ok, except_pure_eq_ok] at h
      obtain ⟨_, _, _, _, _, _, rfl⟩ := h
      exact ⟨_, rfl⟩
  · simp only [readWriteSetup, except_bind_eq_ok, except_pure_eq_ok] at h
    obtain ⟨_, _, _, _, _, _, _, _, _, _, rfl⟩ := h
    exact ⟨_, rfl⟩

/-- A command read under a code changes what the code may change. -/
theorem blocks_of_readCommand {c : Code} {p : List Byte} {cond : Option (Byte × Half)} {cmd : Command}
    (h : readCommand c p cond = .ok cmd) : cmd.blocks = c.blocks := by
  cases c
  case writeRoute => obtain ⟨_, rfl⟩ := write_of_readWrite (.inl h); rfl
  case writeGroup => obtain ⟨_, rfl⟩ := write_of_readWrite (.inr (.inl h)); rfl
  case writeWatch => obtain ⟨_, rfl⟩ := write_of_readWrite (.inr (.inr (.inl h))); rfl
  case writeSetup => obtain ⟨_, rfl⟩ := write_of_readWrite (.inr (.inr (.inr h))); rfl
  case moveGroup =>
    simp only [readCommand, readMoveGroup, except_bind_eq_ok, except_pure_eq_ok] at h
    obtain ⟨_, _, _, _, _, _, _, _, rfl⟩ := h
    rfl
  case cancel =>
    simp only [readCommand, readCancel] at h
    split at h
    · simp only [except_bind_eq_ok, except_pure_eq_ok] at h
      obtain ⟨_, _, rfl⟩ := h
      rfl
    · split at h
      · cases h; rfl
      · split at h
        · cases h; rfl
        · cases h
  case readCounts | setMode | markRig =>
    simp only [readCommand, except_bind_eq_ok, except_pure_eq_ok] at h
    obtain ⟨_, _, _, _, rfl⟩ := h
    rfl
  case readHealth | readRoute | readGroup | readWatch | setLock | bypass =>
    simp only [readCommand, except_bind_eq_ok, except_pure_eq_ok] at h
    obtain ⟨_, _, rfl⟩ := h
    rfl
  case identify | readStatus | readAlign | restoreDefaults | save | reset => cases h; rfl

/-- Every code's judgement may change its port. -/
theorem respond_blocks (c : Code) (r : Rig) (id : Nat) (st : Status) (i : Nat) (res : List Byte) (s : Part) :
    Same c.blocks s (respond r id st i res s) := (respond_same _ _ _ _ _ _).mono (by cases c <;> decide)

theorem judge_blocks (c : Code) (r : Rig) (id : Nat) (msg : List Byte) (s : Part) (h : byteAt msg 1 = c.byte) :
    Same c.blocks s (judge r id msg s) := by
  unfold judge
  rw [h, readCode_byte]
  dsimp only
  split
  next => exact respond_blocks _ _ _ _ _ _ _
  next params cond _ =>
    refine Same.ite (fun _ => respond_blocks _ _ _ _ _ _ _) fun _ => ?_
    refine Same.ite (fun _ => respond_blocks _ _ _ _ _ _ _) fun _ => ?_
    refine Same.ite (fun _ => respond_blocks _ _ _ _ _ _ _) fun _ => ?_
    split
    next => exact respond_blocks _ _ _ _ _ _ _
    next cmd hcmd =>
      rw [← blocks_of_readCommand hcmd]
      exact perform_blocks _ _ _ _

/-- What a message may change beside its port and the count of commands, by what its judgement may. -/
theorem intake_blocks {F : List Block} (r : Rig) (msg : List Byte) (s : Part)
    (hj : ∀ id u, Same F u (judge r id msg u)) (hF : F.contains .port = true) :
    Same (F ++ [.nextId]) s (intake r msg s) := by
  have refused (why : RefuseReason) : Same (F ++ [.nextId]) s (refuseMessage r (refusedTag msg) why s) :=
    (refuseMessage_same _ _ _ _).mono (by simp [show Block.port ∈ F by simpa using hF])
  have taken (v : Bool) : Same (F ++ [.nextId]) s (judge r s.nextId msg (occupy r v msg s)) :=
    ((occupy_same r v msg s).mono (by simp [show Block.port ∈ F by simpa using hF])).trans
      ((hj _ _).mono (by simp +contextual [List.all_eq_true]))
  unfold intake
  exact Same.ite (fun _ => refused _) fun _ => Same.ite (fun _ => taken _) fun _ =>
    Same.ite (fun _ => taken _) fun _ => refused _

theorem takeMessage_blocks (c : Code) (r : Rig) (tag : Byte) (body : List Byte) (s : Part) :
    Same (c.blocks ++ [.nextId]) s (unlessReset (intake r (tag :: c.byte :: body)) s) :=
  unlessReset_same _ (intake_blocks _ _ _ (fun _ _ => judge_blocks c _ _ _ _ rfl) (by cases c <;> decide))

theorem readCode_of_notMem (code : Byte) (h : commandCodes.contains code = false) : readCode code = none := by
  have hc : commandCodes = codes.map Code.byte := rfl
  simp only [readCode, List.find?_eq_none, beq_iff_eq]
  intro c hmem hbyte
  simp only [hc, List.contains_eq_mem, decide_eq_false_iff_not, List.mem_map, not_exists, not_and] at h
  exact h c hmem hbyte

theorem unknownCommand_blocks (r : Rig) (tag code : Byte) (body : List Byte) (s : Part) :
    Same (touched (.unknownCommand r tag code body)) s (unlessReset (intake r (tag :: code :: body)) s) := by
  simp only [touched]
  split
  next => exact unlessReset_same _ (intake_same _ _ _)
  next h =>
    refine unlessReset_same _ (intake_blocks (F := [.port]) _ _ _ (fun id u => ?_) (by decide))
    have hb : byteAt (tag :: code :: body) 1 = code := rfl
    simp only [judge, hb, readCode_of_notMem code (by simpa using h)]
    exact respond_same _ _ _ _ _ _

/-! ## Every command -/

theorem endReset_blocks (l : Lines) (s : Part) : Same resetBlockList s (endReset l s) :=
  (endReset_same l s).mono (by decide)

theorem powerOn_same (l : Lines) (s : Part) : Same resetBlockList s (powerOn l s) := by
  have started (st : Store) (lk : ShowLock) (pn : Panel) :
      Same resetBlockList s { resetBlocks s with store := st, lock := lk, panel := pn } :=
    ((((resetBlocks_same s).mono (by decide)).trans ((withStore_same st _).mono (by decide))).trans
      ((withLock_same lk _).mono (by decide))).trans ((withPanel_same pn _).mono (by decide))
  exact Same.ite (fun _ => started _ _ _) (fun _ => (started _ _ _).trans (endReset_blocks _ _))

theorem lineAssert_same (s : Part) : Same resetBlockList s (lineAssert s) := by
  intro b hb
  cases b
  case nextId => rfl
  all_goals simp [resetBlockList] at hb

theorem commandReset_same (l : Lines) (s : Part) : Same resetBlockList s (commandReset l s) :=
  (((resetBlocks_same s).mono (by decide)).trans ((withStore_same _ _).mono (by decide))).trans (endReset_blocks _ _)

theorem countTurn_same (s : Part) : Same [.clock] s (countTurn s) := withClock_same _ _

theorem owedTurn_same (s : Part) : Same [.store, .port, .program] s (owedTurn s) :=
  Same.when ((withStore_same _ _).step (raise_same _ _) (by decide))

theorem promote_same (s : Part) : Same [.health, .tracker] s (promote s) := by
  intro b hb
  cases b
  case health | tracker => simp at hb
  all_goals rfl

theorem openBoundary_same (l : Lines) (s : Part) : Same resetBlockList s (openBoundary l s) := by
  unfold openBoundary
  dsimp only
  refine Same.trans ?_ ((promote_same _).mono (by decide))
  refine Same.trans ?_ ((owedTurn_same _).mono (by decide))
  refine Same.trans ?_ ((adoptTurn_same _).mono (by decide))
  refine Same.trans ?_ ((countTurn_same _).mono (by decide))
  exact ((endFrames_same s).mono (by decide)).trans (Same.when (commandReset_same _ _))

theorem writesTurn_same (s : Part) : Same (loadBlocks ++ [.writes]) s (writesTurn s) := applyWrites_same _ _

theorem boundary_same (l : Lines) (ord : Order) (s : Part) : Same resetBlockList s (boundary l ord s) := by
  unfold boundary
  dsimp only
  refine Same.trans ?_ ((framesAfter_same _ _).mono (by decide))
  refine Same.trans ?_ ((gangTurn_same _).mono (by decide))
  refine Same.trans ?_ ((switchTurn_same _ _ _).mono (by decide))
  refine Same.trans ?_ ((trackerTurn_same _ _).mono (by decide))
  refine Same.trans ?_ ((watchTurn_same _ _ _).mono (by decide))
  refine Same.trans ?_ ((clockTurn_same _).mono (by decide))
  refine Same.trans ?_ ((matchTurn_same _).mono (by decide))
  refine Same.trans ?_ ((writesTurn_same _).mono (by decide))
  refine Same.trans ?_ ((keyTurn_same _ _).mono (by decide))
  exact (openBoundary_same _ _).trans ((framesBefore_same _ _).mono (by decide))

theorem causeStep_same (x : Rig) (c : Cause) (src dst : CauseState) (s : Part) :
    Same [.health, .port, .program] s (causeStep x c src dst s) :=
  Same.when ((setHealth_same _ _ _).step (raiseHealth_same _ _ _ _ _) (by decide))

theorem returnHold_same (g : Fin 16) (s : Part) : Same [.groups, .port, .program, .gang] s (returnHold g s) := by
  have set (r : GroupRec) : Same [.groups, .port, .program, .gang] s (s.setGroup g r) :=
    (setGroup_same _ _ _).mono (by decide)
  unfold returnHold
  refine Same.when (Same.ite (fun _ => ?_) fun _ => set _)
  dsimp only
  split
  next =>
    exact ((set _).trans ((announce_same _ _ _).mono (by decide))).trans ((supersedeIfElsewhere_same _ _).mono (by decide))
  next => exact set _

theorem completesAlone_same (g : Fin 16) (r : GroupRec) (s : Part) :
    Same [.groups, .port, .program, .gang] s (settleArrivals (completeFade g (s.setGroup g r))) :=
  ((setGroup_same _ _ _).step (completeFade_same _ _) (K := [.groups, .port, .program, .gang]) (by decide)).step
    (settleArrivals_same _) (by decide)

theorem applyHead_same {F : List Block} (kind : WriteAct → Bool) (s : Part)
    (h : ∀ w u, kind w.act = true → Same F u (applyWrite w u)) : Same (F ++ [.writes]) s (applyHead kind s) := by
  unfold applyHead
  split
  next w rest _ =>
    refine Same.ite (fun hk => ?_) fun _ => Same.refl _ _
    exact ((withWrites_same rest s).mono (by simp)).trans
      ((h w _ hk).mono (by simp +contextual [List.all_eq_true]))
  next => exact Same.refl _ _

theorem writeTakesEffect_same (s : Part) :
    Same [.tables, .groups, .tracker, .panel, .port, .program, .writes, .health, .clock] s
      (settleWrites s.health (applyTableWrites s.writes s)) :=
  (applyTableWrites_same _ _).step (settleWrites_same _ _) (by decide)

theorem deferredLoadAlone_same (s : Part) :
    Same [.tables, .groups, .tracker, .panel, .store, .port, .program, .writes, .health, .clock] s
      (settleWrites s.health (applyHead (fun a => a == .load) s)) :=
  (applyHead_same (F := loadBlocks) _ _ fun _ _ _ => applyWrite_same _ _).step (settleWrites_same _ _) (by decide)

theorem setModeHead_same (s : Part) : Same [.tables, .port, .writes] s (applyHead WriteAct.isSetMode s) := by
  refine (applyHead_same (F := [.tables, .port]) _ _ fun w u hw => ?_).mono (by decide)
  obtain ⟨o, act⟩ := w
  cases act
  case setMode => exact applySetMode_same _ _ _ _
  all_goals simp [WriteAct.isSetMode] at hw

theorem bypassHead_same (s : Part) : Same [.panel, .port, .program, .writes] s (applyHead WriteAct.isBypass s) := by
  refine (applyHead_same (F := [.panel, .port, .program]) _ _ fun w u hw => ?_).mono (by decide)
  obtain ⟨o, act⟩ := w
  cases act
  case bypass => exact applyBypass_same _ _ _
  all_goals simp [WriteAct.isBypass] at hw

/-- Each command changes no block that `touched` does not name. -/
theorem partAfter_same (c : Instr) (s : State) : Same (touched c) s.toPart (partAfter c s) := by
  cases c with
  | powerOnReset l => exact powerOn_same _ _
  | lineResetAssert => exact unlessReset_same _ (lineAssert_same _)
  | lineResetEnd l => exact Same.when (endReset_blocks _ _)
  | commandReset l => exact unlessReset_same _ (Same.when (commandReset_same _ _))
  | localFrameBoundary l ord => exact unlessReset_same _ (boundary_same _ _ _)
  | outputSamplePeriod => exact unlessReset_same _ (samplePeriod_same _)
  | fadeComplete g =>
    refine unlessReset_same _ ?_
    split
    · exact Same.when (completesAlone_same _ _ _)
    · exact Same.refl _ _
  | lineActivityLost x => exact Same.ite (fun _ => (setRx_same _ _ _).mono rfl) fun _ => activityLost_same _ _
  | lineActivityPresent x => exact setRx_same _ _ _
  | syncWordFound x => exact unlessReset_same _ (whenRx_same _ _ _ (setRx_same _ _ _))
  | verifyGoodFrame x f => exact unlessReset_same _ (whenRx_same _ _ _ (verifyGood_same _ _ _))
  | verifyFailed x => exact unlessReset_same _ (whenRx_same _ _ _ (verifyBad_same _ _))
  | goodFrame x f => exact unlessReset_same _ (whenRx_same _ _ _ (Same.when (takeGood_same _ _ _ _)))
  | badCheckFrame x => exact unlessReset_same _ (whenRx_same _ _ _ (takeBad_same _ _))
  | missingSyncWord x =>
    refine unlessReset_same _ (whenRx_same _ _ _ (Same.ite (fun _ => leaveLocked_same _ _ _) fun _ => ?_))
    exact (takeBad_same _ _).step (setRx_same _ _ _) rfl
  | sequenceGap x f => exact unlessReset_same _ (whenRx_same _ _ _ (Same.when (takeGap_same _ _ _ _)))
  | resync x f => exact unlessReset_same _ (whenRx_same _ _ _ (Same.when (takeResync_same _ _ _)))
  | refSignalLost =>
    have lost (k : FrameClock) : Same [.clock, .port, .program] s.toPart { s.toPart with clock := k } :=
      (withClock_same _ _).mono rfl
    exact Same.ite (fun _ => lost _) fun _ => (lost _).trans (sourceLost_same _ _)
  | refSignalPresent => exact withClock_same _ _
  | sourceQualified src =>
    exact unlessReset_same _ (Same.when ((withClock_same _ _).step (selectBetter_same _) rfl))
  | causeConfirmed x k | causeCleared x k => exact unlessReset_same _ (causeStep_same _ _ _ _ _)
  | beatTimeout x | silenceTimeReached x | jumpRunEnd x | slipWindowExpiry x =>
    exact unlessReset_same _ (Same.when (setHealth_same _ _ _))
  | returnHoldExpiry g => exact unlessReset_same _ (returnHold_same _ _)
  | takeover => exact unlessReset_same _ (Same.when ((takeOver_same _).mono rfl))
  | keyStateChange => exact unlessReset_same _ (Same.when (keyChange_same _ _))
  | buttonPress x => exact unlessReset_same _ (Same.when (buttonTurn_same _ _ _))
  | alarmPulseEnd => exact unlessReset_same _ (Same.when (withPanel_same _ _))
  | writeTakesEffect => exact unlessReset_same _ (writeTakesEffect_same _)
  | setModeTakesEffect => exact unlessReset_same _ (setModeHead_same _)
  | bypassTakesEffect => exact unlessReset_same _ (bypassHead_same _)
  | moveGroupExecute name =>
    exact unlessReset_same _ (Same.foldl (fun _ _ => (executeIfReady_same _ _).mono rfl) _ _)
  | moveGroupTimeout name =>
    exact unlessReset_same _ (Same.foldl (fun _ _ => (timeoutIfDue_same _ _).mono rfl) _ _)
  | saveComplete v => exact Same.when (saveDone_same _ _)
  | deferredLoad =>
    refine unlessReset_same _ ?_
    split
    · exact Same.when (deferredLoadAlone_same _)
    · exact Same.refl _ _
  | gangFrameReceived b => exact unlessReset_same _ (gangFrame_same _ _)
  | gangLinkUp => exact unlessReset_same _ (Same.when (linkUp_same _))
  | gangLinkLost =>
    exact unlessReset_same _ (Same.when ((withGang_same _ _).step (linkLost_same _) rfl))
  | countAdoption => exact unlessReset_same _ (Same.when (adoptCount_same _))
  | gangMoveStart g =>
    exact unlessReset_same _ ((startPendingMove_same _ _).step (settleArrivals_same _) rfl)
  | proposeResend ref => exact unlessReset_same _ (resendOne_same _ _)
  | mismatchRepair g => exact unlessReset_same _ (Same.when (repairGroup_same _ _))
  | buttonProposalApply => exact unlessReset_same _ ((applyPresses_same _).mono rfl)
  | identify r t b => exact (takeMessage_blocks .identify r t b _).mono rfl
  | readStatus r t b => exact (takeMessage_blocks .readStatus r t b _).mono rfl
  | readHealth r t b => exact (takeMessage_blocks .readHealth r t b _).mono rfl
  | readCounts r t b => exact (takeMessage_blocks .readCounts r t b _).mono rfl
  | readRoute r t b => exact (takeMessage_blocks .readRoute r t b _).mono rfl
  | readGroup r t b => exact (takeMessage_blocks .readGroup r t b _).mono rfl
  | readWatch r t b => exact (takeMessage_blocks .readWatch r t b _).mono rfl
  | readAlign r t b => exact (takeMessage_blocks .readAlign r t b _).mono rfl
  | writeRoute r t b => exact (takeMessage_blocks .writeRoute r t b _).mono rfl
  | writeGroup r t b => exact (takeMessage_blocks .writeGroup r t b _).mono rfl
  | writeWatch r t b => exact (takeMessage_blocks .writeWatch r t b _).mono rfl
  | writeSetup r t b => exact (takeMessage_blocks .writeSetup r t b _).mono rfl
  | restoreDefaults r t b => exact (takeMessage_blocks .restoreDefaults r t b _).mono rfl
  | moveGroup r t b => exact (takeMessage_blocks .moveGroup r t b _).mono rfl
  | setMode r t b => exact (takeMessage_blocks .setMode r t b _).mono rfl
  | markRig r t b => exact (takeMessage_blocks .markRig r t b _).mono rfl
  | cancel r t b => exact (takeMessage_blocks .cancel r t b _).mono rfl
  | setLock r t b => exact (takeMessage_blocks .setLock r t b _).mono rfl
  | save r t b => exact (takeMessage_blocks .save r t b _).mono rfl
  | bypass r t b => exact (takeMessage_blocks .bypass r t b _).mono rfl
  | reset r t b => exact (takeMessage_blocks .reset r t b _).mono rfl
  | unknownCommand r t code b => exact unknownCommand_blocks _ _ _ _ _
  | returnFrameSent r => exact unlessReset_same _ (endReturn_same _ _)

/-- Settles O2: each command answers with the part it leaves, changes the blocks of its list alone, and nothing in a held
reset. -/
theorem everyCommandAnswersWithinItsFrame : Obligations.EveryCommandAnswersWithinItsFrame := by
  intro c s
  refine ⟨s.withPart (partAfter c s), exec_eq_partAfter c s, rfl, partAfter_same c s, fun hs hc => ?_⟩
  rw [partAfter_of_held c s hs hc]
  rfl

end Sys2Proof.Machine
end


section
/-! SUPPORT. What the turns of the blocks leave of the frames on the lines, and what they do to the courses of the groups: most
operations leave every course, the others give only courses within their fade's length (R91). -/

namespace Sys2Proof.Machine

/-! ## The frames on the lines -/

/-- From `s` to `t` no port, program or gang frame has been begun, ended or changed. -/
structure FramesStand (s t : Part) : Prop where
  seq : ∀ r, (t.port.get r).seq = (s.port.get r).seq
  out : ∀ r, (t.port.get r).out = (s.port.get r).out
  program : t.program = { s.program with lane := t.program.lane }
  gang : t.gang.out = s.gang.out

theorem FramesStand.refl (s : Part) : FramesStand s s := ⟨fun _ => rfl, fun _ => rfl, rfl, rfl⟩

theorem FramesStand.trans {s t u : Part} (h : FramesStand s t) (k : FramesStand t u) : FramesStand s u :=
  ⟨fun r => (k.seq r).trans (h.seq r), fun r => (k.out r).trans (h.out r),
    k.program.trans (by rw [h.program]), k.gang.trans h.gang⟩

/-- Frames stand, and so does the course of every group. -/
structure Calm (s t : Part) : Prop where
  frames : FramesStand s t
  course : ∀ g, (t.groups.get g).course = (s.groups.get g).course

/-- Frames stand, and no course is left outside its fade's length (R91). -/
structure Fair (s t : Part) : Prop where
  frames : FramesStand s t
  course : ∀ g, (s.groups.get g).course.wf → (t.groups.get g).course.wf

theorem Calm.refl (s : Part) : Calm s s := ⟨.refl s, fun _ => rfl⟩
theorem Calm.trans {s t u : Part} (h : Calm s t) (k : Calm t u) : Calm s u :=
  ⟨h.frames.trans k.frames, fun g => (k.course g).trans (h.course g)⟩
theorem Calm.fair {s t : Part} (h : Calm s t) : Fair s t := ⟨h.frames, fun g => by rw [h.course g]; exact id⟩
theorem Fair.refl (s : Part) : Fair s s := (Calm.refl s).fair
theorem Fair.trans {s t u : Part} (h : Fair s t) (k : Fair t u) : Fair s u :=
  ⟨h.frames.trans k.frames, fun g => k.course g ∘ h.course g⟩

/-- R91: the progress of every fade lies within 0..L. -/
structure FadesWithin (s : Part) : Prop where
  course : ∀ g, (s.groups.get g).course.wf

theorem Fair.fadesWithin {s t : Part} (h : Fair s t) (hs : FadesWithin s) : FadesWithin t :=
  ⟨fun g => h.course g (hs.course g)⟩

theorem Calm.foldl {α : Type} {f : Part → α → Part} (h : ∀ s a, Calm s (f s a)) (l : List α) (s : Part) :
    Calm s (l.foldl f s) := by
  induction l generalizing s with
  | nil => exact .refl s
  | cons a l ih => exact (h s a).trans (ih _)

theorem Fair.foldl {α : Type} {f : Part → α → Part} (h : ∀ s a, Fair s (f s a)) (l : List α) (s : Part) :
    Fair s (l.foldl f s) := by
  induction l generalizing s with
  | nil => exact .refl s
  | cons a l ih => exact (h s a).trans (ih _)

theorem Calm.ite {s a b : Part} {p : Prop} [Decidable p] (ha : p → Calm s a) (hb : ¬p → Calm s b) :
    Calm s (if p then a else b) := by
  split
  case isTrue h => exact ha h
  case isFalse h => exact hb h

theorem Calm.when {s a : Part} {p : Prop} [Decidable p] (ha : Calm s a) : Calm s (if p then a else s) :=
  .ite (fun _ => ha) (fun _ => .refl s)

theorem Fair.ite {s a b : Part} {p : Prop} [Decidable p] (ha : p → Fair s a) (hb : ¬p → Fair s b) :
    Fair s (if p then a else b) := by
  split
  case isTrue h => exact ha h
  case isFalse h => exact hb h

theorem Fair.when {s a : Part} {p : Prop} [Decidable p] (ha : Fair s a) : Fair s (if p then a else s) :=
  .ite (fun _ => ha) (fun _ => .refl s)

/-- The blocks that hold frames and courses. -/
def loudBlocks : List Block := [.groups, .port, .program, .gang]

/-- A change of other blocks alone. -/
theorem Same.calm {F : List Block} {s t : Part} (h : Same F s t) (hF : loudBlocks.all (fun b => !F.contains b) = true) :
    Calm s t := by
  simp only [loudBlocks, List.all_cons, List.all_nil, Bool.and_eq_true, Bool.not_eq_true', Bool.and_true] at hF
  obtain ⟨hgroups, hport, hprogram, hgang⟩ := hF
  have eg : t.groups = s.groups := h.get .groups hgroups
  have ep : t.port = s.port := h.get .port hport
  have er : t.program = s.program := h.get .program hprogram
  have ek : t.gang = s.gang := h.get .gang hgang
  exact ⟨⟨fun r => by rw [ep], fun r => by rw [ep], by rw [er], by rw [ek]⟩, fun g => by rw [eg]⟩

/-! ## Ports, notices, gang and group records -/

theorem setPort_calm (r : Rig) (x : Port) (s : Part) (hseq : x.seq = (s.port.get r).seq)
    (hout : x.out = (s.port.get r).out) : Calm s (s.setPort r x) := by
  refine ⟨⟨fun q => ?_, fun q => ?_, rfl, rfl⟩, fun _ => rfl⟩ <;>
    · rw [setPort_port, PerRig.get_set]
      split
      next h => rw [h]; assumption
      next => rfl

theorem withGang_calm (x : Gang) (s : Part) (h : x.out = s.gang.out) : Calm s { s with gang := x } :=
  ⟨⟨fun _ => rfl, fun _ => rfl, rfl, h⟩, fun _ => rfl⟩

theorem setGroup_calm (g : Fin 16) (x : GroupRec) (s : Part) (h : x.course = (s.groups.get g).course) :
    Calm s (s.setGroup g x) := by
  refine ⟨⟨fun _ => rfl, fun _ => rfl, rfl, rfl⟩, fun k => ?_⟩
  rw [setGroup_groups, Tbl.get_set]
  split
  next hk => rw [h, hk]
  next => rfl

theorem setGroup_fair (g : Fin 16) (x : GroupRec) (s : Part) (h : (s.groups.get g).course.wf → x.course.wf) :
    Fair s (s.setGroup g x) := by
  refine ⟨⟨fun _ => rfl, fun _ => rfl, rfl, rfl⟩, fun k => ?_⟩
  rw [setGroup_groups, Tbl.get_set]
  split
  next hk => rw [hk]; exact h
  next => exact id

theorem raise_calm (n : NoticeBody) (s : Part) : Calm s (raise n s) :=
  ⟨⟨fun r => by cases r <;> rfl, fun r => by cases r <;> rfl, rfl, rfl⟩, fun _ => rfl⟩

/-- An operation that forms a response or a phase keeps the port's frame. -/
theorem Port.respond_frame (p : Port) (id : Nat) (st : Status) (i : Nat) (res : List Byte) :
    (p.respond id st i res).seq = p.seq ∧ (p.respond id st i res).out = p.out := by
  unfold Port.respond
  split
  · exact ⟨rfl, rfl⟩
  · split <;> exact ⟨rfl, rfl⟩

theorem respond_calm (r : Rig) (id : Nat) (st : Status) (i : Nat) (res : List Byte) (s : Part) :
    Calm s (respond r id st i res s) :=
  setPort_calm _ _ _ (Port.respond_frame _ _ _ _ _).1 (Port.respond_frame _ _ _ _ _).2

theorem setPhase_calm (r : Rig) (id : Nat) (ph : Phase) (s : Part) : Calm s (setPhase r id ph s) :=
  setPort_calm _ _ _ rfl rfl

theorem refuseMessage_calm (r : Rig) (tag : Byte) (why : RefuseReason) (s : Part) : Calm s (refuseMessage r tag why s) :=
  setPort_calm _ _ _ rfl rfl

theorem setStage_calm (o : Owner) (st : Stage) (s : Part) : Calm s (setStage o st s) := by
  unfold setStage
  repeat' split
  all_goals first
    | with_reducible exact .refl _
    | exact setPhase_calm _ _ _ _
    | exact withGang_calm _ _ (by rfl)

theorem unbind_calm (o : Owner) (s : Part) : Calm s (unbind o s) := by
  refine ⟨⟨fun _ => rfl, fun _ => rfl, rfl, rfl⟩, fun g => ?_⟩
  simp only [unbind, Tbl.get_map]
  split <;> rfl

theorem endOwner_calm (o : Owner) (st : Status) (res : List Byte) (s : Part) : Calm s (endOwner o st res s) := by
  unfold endOwner
  repeat' split
  all_goals first
    | with_reducible exact .refl _
    | (dsimp only; split
       · exact ((setPhase_calm _ _ _ _).trans (unbind_calm _ _)).trans (respond_calm _ _ _ _ _ _)
       · exact (setPhase_calm _ _ _ _).trans (unbind_calm _ _))
    | exact (withGang_calm _ _ (by rfl)).trans (unbind_calm _ _)

theorem supersede_calm (o : Owner) (g : Fin 16) (s : Part) : Calm s (supersede o g s) := by
  unfold supersede
  split
  · exact endOwner_calm _ _ _ _
  · exact .refl _

theorem settleArrival_calm (o : Owner) (s : Part) : Calm s (settleArrival o s) := by
  unfold settleArrival
  refine .when ?_
  split
  · exact endOwner_calm _ _ _ _
  · exact .refl _

theorem settleArrivals_calm (s : Part) : Calm s (settleArrivals s) := .foldl (fun s o => settleArrival_calm o s) _ s

theorem selectSource_calm (src : Source) (loss : Bool) (s : Part) : Calm s (selectSource src loss s) :=
  ((withClock_same _ _).calm rfl).trans (raise_calm _ _)

theorem sourceLost_calm (src : Source) (s : Part) : Calm s (sourceLost src s) :=
  Calm.ite (fun _ => ((withClock_same _ _).calm rfl).trans (selectSource_calm _ _ _)) fun _ => (withClock_same _ _).calm rfl

theorem relayChange_calm (c old : Bool) (s : Part) : Calm s (relayChange c old s) := .when (raise_calm _ _)

theorem setLevel_calm (l : LockLevel) (k : Bool) (s : Part) : Calm s (setLevel l k s) :=
  .ite (fun _ => .refl s) fun _ => ((withLock_same _ _).calm rfl).trans (raise_calm _ _)

theorem queueMove_calm (m : MoveMsg) (s : Part) : Calm s (queueMove m s) := withGang_calm _ _ (by rfl)

/-! ## The groups -/

theorem announce_calm (g : Fin 16) (f : Fade) (s : Part) : Calm s (announce g f s) :=
  Calm.ite (fun _ => (raise_calm _ _).trans (queueMove_calm _ _)) fun _ => raise_calm _ _

theorem supersedeIfElsewhere_calm (g : Fin 16) (s : Part) : Calm s (supersedeIfElsewhere g s) := by
  unfold supersedeIfElsewhere
  repeat' split
  all_goals first | with_reducible exact .refl _ | exact supersede_calm _ _ _

theorem settleBinding_calm (g : Fin 16) (q : List Request) (s : Part) : Calm s (settleBinding g q s) :=
  (Calm.foldl (fun _ _ => supersede_calm _ _ _) _ s).trans (supersedeIfElsewhere_calm _ _)

theorem refuseRequests_calm (st : Status) (g : Fin 16) (s : Part) : Calm s (refuseRequests st g s) :=
  (setGroup_calm _ _ _ (by rfl)).trans (Calm.foldl (fun _ _ => endOwner_calm _ _ _ _) _ _)

theorem addRequest_calm (g : Fin 16) (q : Request) (s : Part) : Calm s (addRequest g q s) := setGroup_calm _ _ _ (by rfl)

theorem handPress_calm (t : End) (among : Fin 16 → Bool) (s : Part) : Calm s (handPress t among s) :=
  .foldl (fun _ _ => addRequest_calm _ _ _) _ s

theorem press_calm (b : Rig) (s : Part) : Calm s (press b s) :=
  (handPress_calm _ _ _).trans (.when (withGang_calm _ _ (by rfl)))

theorem applyPresses_calm (s : Part) : Calm s (applyPresses s) :=
  (withGang_calm { s.gang with presses := [] } s (by rfl)).trans (.foldl (fun _ _ => handPress_calm _ _ _) _ _)

theorem bindGroup_calm (o : Owner) (g : Fin 16) (s : Part) : Calm s (bindGroup o g s) := by
  unfold bindGroup
  dsimp only
  refine Calm.trans ?_ (setGroup_calm _ _ _ (by rfl))
  split
  · exact .ite (fun _ => .refl s) fun _ => supersede_calm _ _ _
  · exact .refl s

theorem executeRun_calm (o : Owner) (req : MoveReq) (mask : Half) (s : Part) : Calm s (executeRun o req mask s) := by
  have bound := ((setStage_calm o (.executed (toBind s mask req.target) s.clock.frame) s).trans
    (.foldl (fun t g => bindGroup_calm o g t) (allGroups.filter fun g => inMask (toBind s mask req.target) g) _)).trans
    (.foldl (fun t g => addRequest_calm g ⟨req.target, .command, some o⟩ t) (allGroups.filter fun g => inMask mask g) _)
  exact .ite (fun _ => bound.trans (endOwner_calm _ _ _ _)) fun _ => bound

theorem runOwner_calm (o : Owner) (s : Part) : Calm s (runOwner o s) := by
  unfold runOwner
  repeat' split
  all_goals first
    | with_reducible exact .refl _
    | exact endOwner_calm _ _ _ _
    | exact executeRun_calm _ _ _ _
    | exact setStage_calm _ _ _

theorem runMoves_calm (o : Order) (s : Part) : Calm s (runMoves o s) := .foldl (fun _ _ => runOwner_calm _ _) _ s

/-- R91: a fade counts within its length. -/
theorem Course.tick_wf {c : Course} (h : c.wf) : c.tick.wf := by
  cases c with
  | steady e => trivial
  | fading f => exact ⟨rise_le _ _, h.2⟩

theorem tickFades_fair (s : Part) : Fair s (tickFades s) := by
  refine ⟨⟨fun _ => rfl, fun _ => rfl, rfl, rfl⟩, fun g h => ?_⟩
  simp only [tickFades, Tbl.get_map]
  exact Course.tick_wf h

theorem completeFade_fair (g : Fin 16) (s : Part) : Fair s (completeFade g s) := by
  unfold completeFade
  split
  · exact .refl s
  · exact .when ((setGroup_fair _ _ _ fun _ => by trivial).trans (raise_calm _ _).fair)

theorem completeFades_fair (s : Part) : Fair s (completeFades s) := .foldl (fun s g => completeFade_fair g s) _ s

theorem fadeLength_pos (code : Fin 7) : 0 < fadeLength code := by
  have all : ∀ k : Fin 7, 0 < fadeLength k := by decide
  exact all code

/-- R90: the fade of a transition from a course within bounds is within bounds. -/
theorem turn_bounds {c : Course} (hc : c.wf) {target : End} {len : Nat} (hlen : 0 < len) {law : Law} {k : FadeKind}
    {q l : Nat} {w : Law} (h : turn c target len law = some (k, q, l, w)) : q ≤ l ∧ 0 < l := by
  cases c with
  | steady e =>
    simp only [turn, Option.map_eq_some_iff] at h
    obtain ⟨_, _, h⟩ := h
    cases h
    exact ⟨Nat.zero_le _, hlen⟩
  | fading f =>
    simp only [turn, Option.map_eq_some_iff] at h
    obtain ⟨_, _, h⟩ := h
    cases h
    exact ⟨Nat.sub_le _ _, hc.2⟩

theorem transition_wf (s : Part) (g : Fin 16) (r : GroupRec) (target : End) (reason : Reason) (h : r.course.wf) :
    (transition s g r target reason).after.course.wf := by
  unfold transition
  dsimp only
  split
  · exact h
  next hturn => exact turn_bounds h (fadeLength_pos _) hturn

theorem countHold_course (s : Part) (g : Fin 16) (r : GroupRec) : (countHold s g r).course = r.course := by
  unfold countHold
  split <;> rfl

theorem decideReturns_wf (s : Part) (g : Fin 16) (r : GroupRec) (target : Option (End × Reason)) (h : r.course.wf) :
    (decideReturns s g r target).after.course.wf := by
  have hold : (countHold s g r).course.wf := by rwa [countHold_course]
  unfold decideReturns
  dsimp only
  repeat' split
  all_goals first
    | exact transition_wf _ _ _ _ _ h
    | exact transition_wf _ _ _ _ _ hold
    | exact hold

theorem decide88_wf (s : Part) (g : Fin 16) (h : (s.groups.get g).course.wf) : (decide88 s g).after.course.wf := by
  have auto (asked : Option (End × Reason)) (r : GroupRec) (hr : r.course.wf) :
      (decideAuto s g r asked).after.course.wf := by
    unfold decideAuto
    dsimp only
    repeat' split
    all_goals first
      | exact decideReturns_wf _ _ _ _ hr
      | exact transition_wf _ _ _ _ _ hr
  unfold decide88
  dsimp only
  repeat' split
  all_goals first
    | exact h
    | exact transition_wf _ _ _ _ _ h
    | exact auto _ _ h

theorem decideGroups_fair (w : Fin 16 → Bool) (s : Part) : Fair s (decideGroups w s) := by
  have refused (st : Status) (l : List (Fin 16)) (u : Part) : Calm u (l.foldl (fun s g => refuseRequests st g s) u) :=
    .foldl (fun _ _ => refuseRequests_calm _ _ _) _ _
  have decided (u : Part) : Fair u { u with
      groups := Tbl.ofFn fun g => if decides s w g then (decide88 u g).after else u.groups.get g } := by
    refine ⟨⟨fun _ => rfl, fun _ => rfl, rfl, rfl⟩, fun g h => ?_⟩
    dsimp only
    rw [Tbl.get_ofFn]
    split
    · exact decide88_wf _ _ h
    · exact h
  unfold decideGroups
  dsimp only
  refine Fair.trans ?_ ((withPanel_same _ _).calm rfl).fair
  refine Fair.trans ?_ (Calm.foldl (fun _ _ => settleBinding_calm _ _ _) _ _).fair
  refine Fair.trans ?_ (Calm.foldl (fun _ _ => ?_) _ _).fair
  · exact ((refused _ _ s).trans (refused _ _ _)).fair.trans (decided _)
  · split
    · exact announce_calm _ _ _
    · exact .refl _

theorem takeStart_fair (g : Fin 16) (s : Part) : Fair s (takeStart g s) := by
  have started (r : GroupRec) (hr : r.course.wf) (n : NoticeBody) :
      Fair s (raise n ((refuseRequests .busy g s).setGroup g r)) :=
    ((refuseRequests_calm _ _ _).fair.trans (setGroup_fair _ _ _ fun _ => hr)).trans (raise_calm _ _).fair
  unfold takeStart
  refine .when (Fair.ite (fun _ => ?_) fun _ => ?_)
  · exact (started _ (by trivial) _).trans (queueMove_calm _ _).fair
  · exact started _ (by trivial) _

theorem takeOver_fair (s : Part) : Fair s (takeOver s) :=
  (((withTakeover_same _ _).calm rfl).fair.trans (.foldl (fun _ _ => takeStart_fair _ _) _ _)).trans
    (relayChange_calm _ _ _).fair

theorem takeoverTurn_fair (s : Part) : Fair s (takeoverTurn s) :=
  Fair.ite (fun _ => .refl s) fun _ =>
    Fair.ite (fun _ => takeOver_fair s) fun _ => ((withTakeover_same _ _).calm rfl).fair

/-! ## The gang port -/

theorem takeAnswer_calm (ref : Fin 8) (round : Bool) (st : Status) (s : Part) : Calm s (takeAnswer ref round st s) := by
  unfold takeAnswer
  dsimp only
  refine .when ?_
  split
  · exact (withGang_calm _ _ (by rfl)).trans (endOwner_calm _ _ _ _)
  · exact withGang_calm _ _ (by rfl)

theorem boardAnswers_calm (rep : GangReport) (s : Part) : Calm s (boardAnswers rep s) := by
  refine Calm.foldl (fun t ref => ?_) _ s
  dsimp only
  split
  · exact .when (takeAnswer_calm _ _ _ _)
  · exact .refl _

theorem takeGangMove_calm (m : MoveMsg) (s : Part) : Calm s (takeGangMove m s) := .when (withGang_calm _ _ (by rfl))

theorem startMove_fair (m : MoveMsg) (s : Part) : Fair s (startMove m s) := by
  have moved (k : Gang) (hk : k.out = s.gang.out) (c : Course) (hc : c.wf) (r : GroupRec) :
      Fair s (Part.setGroup { s with gang := k } m.group (movedRecord m c r)) :=
    (withGang_calm k s hk).fair.trans (setGroup_fair _ _ _ fun _ => hc)
  unfold startMove
  dsimp only
  split
  next kind hkind =>
    have hq : moveProgress m s.clock.frame < m.len := by
      by_contra hq
      simp [hq] at hkind
    have hlen : 0 < m.len := Nat.zero_lt_of_lt hq
    exact ((moved _ (by rfl) _ (by exact ⟨hq.le, hlen⟩) _).trans (raise_calm _ _).fair).trans (supersedeIfElsewhere_calm _ _).fair
  next =>
    refine Fair.trans ?_ (supersedeIfElsewhere_calm _ _).fair
    exact Fair.ite (fun _ => moved _ (by rfl) _ (by trivial) _) fun _ => (moved _ (by rfl) _ (by trivial) _).trans (raise_calm _ _).fair

theorem startPendingMove_fair (g : Fin 16) (s : Part) : Fair s (startPendingMove g s) := by
  unfold startPendingMove
  split
  · exact .when (startMove_fair _ _)
  · exact .refl s

theorem startPendingMoves_fair (s : Part) : Fair s (startPendingMoves s) := .foldl (fun _ _ => startPendingMove_fair _ _) _ s

theorem startStrayMoves_fair (s : Part) : Fair s (startStrayMoves s) := .foldl (fun _ _ => startPendingMove_fair _ _) _ s

theorem dropProposal_calm (ref : Fin 8) (s : Part) : Calm s (dropProposal ref s) := by
  unfold dropProposal
  split
  · exact unbind_calm _ _
  all_goals exact .refl s

theorem setBoard_calm (ref : Fin 8) (e : BoardEntry) (s : Part) : Calm s (setBoard ref e s) := withGang_calm _ _ (by rfl)

theorem holdProposal_calm (ref : Fin 8) (p : ProposeMsg) (s : Part) : Calm s (holdProposal ref p s) := by
  unfold holdProposal
  dsimp only
  split
  · exact (setBoard_calm _ _ _).trans (endOwner_calm _ _ _ _)
  · exact setBoard_calm _ _ _

theorem takePropose_calm (p : ProposeMsg) (s : Part) : Calm s (takePropose p s) := by
  unfold takePropose
  dsimp only
  split
  · refine .ite (fun _ => .refl s) fun _ => .ite (fun _ => ?_) fun _ => ?_
    · exact ((dropProposal_calm _ _).trans (setBoard_calm _ _ _)).trans (withGang_calm _ _ (by rfl))
    · exact (dropProposal_calm _ _).trans (holdProposal_calm _ _ _)
  · exact withGang_calm _ _ (by rfl)

theorem clearBoard_calm (s : Part) : Calm s (clearBoard s) :=
  (Calm.foldl (fun _ _ => dropProposal_calm _ _) _ s).trans (withGang_calm _ _ (by rfl))

theorem setGangState_calm (st : GangState) (s : Part) : Calm s (setGangState st s) :=
  (withGang_calm { s.gang with state := st } s (by rfl)).trans (raise_calm _ _)

theorem linkUp_calm (s : Part) : Calm s (linkUp s) := (withGang_calm _ s (by rfl)).trans (setGangState_calm _ _)

theorem reclaim_calm (ref : Fin 8) (s : Part) : Calm s (reclaim ref s) := by
  unfold reclaim
  dsimp only
  repeat' split
  all_goals first
    | exact withGang_calm _ _ (by rfl)
    | exact (withGang_calm _ _ (by rfl)).trans (setStage_calm _ _ _)

theorem linkLost_calm (s : Part) : Calm s (linkLost s) := by
  have emptied (u : Part) : Calm u { u with gang := { u.gang with
      moves := [], answers := [], proposes := [], pending := Tbl.fill none, matched := 0#16, adopt := false, fresh := false,
      mismatch := Tbl.fill 0, presses := u.gang.presses ++ queuedPresses u.gang.proposes } } := withGang_calm _ _ rfl
  have reclaimed (u : Part) : Calm u (allRefs.foldl (fun t ref => reclaim ref t) u) :=
    .foldl (fun _ _ => reclaim_calm _ _) _ _
  have cut := ((clearBoard_calm s).trans (reclaimed _)).trans (emptied _)
  have lost := cut.trans (setGangState_calm .lost _)
  exact lost.trans (sourceLost_calm .gang _)

theorem takeGangMsgIn_calm (m : GangMsg) (s : Part) : Calm s (takeGangMsgIn m s) := by
  unfold takeGangMsgIn
  split
  all_goals first
    | with_reducible exact .refl _
    | exact takeGangMove_calm _ _
    | exact takePropose_calm _ _
    | exact takeAnswer_calm _ _ _ _

theorem acceptFrame_calm (b : List Byte) (s : Part) : Calm s (acceptFrame b s) := by
  have report : Calm s (takeReport (readReport b) s) :=
    Calm.ite (fun _ => (withGang_calm _ s (by rfl)).trans (clearBoard_calm _)) fun _ => withGang_calm _ s (by rfl)
  have answers : Calm s (if s.gang.role = .follower then boardAnswers (readReport b) (takeReport (readReport b) s)
      else takeReport (readReport b) s) := .ite (fun _ => report.trans (boardAnswers_calm _ _)) fun _ => report
  unfold acceptFrame
  dsimp only
  split
  · exact answers.trans (takeGangMsgIn_calm _ _)
  · exact .ite (fun _ => report.trans (linkUp_calm _)) fun _ => report.trans (withGang_calm _ _ (by rfl))
  · exact .ite (fun _ => report.trans (linkUp_calm _)) fun _ => report.trans (withGang_calm _ _ (by rfl))
  · exact report

theorem gangFrame_calm (b : List Byte) (s : Part) : Calm s (gangFrame b s) :=
  .ite (fun _ => .refl s) fun _ => .ite (fun _ => acceptFrame_calm _ _) fun _ => withGang_calm _ _ (by rfl)

theorem matchTurn_calm (s : Part) : Calm s (matchTurn s) := .when (withGang_calm _ _ (by rfl))

theorem repairGroup_calm (g : Fin 16) (s : Part) : Calm s (repairGroup g s) := by
  unfold repairGroup
  split
  · exact queueMove_calm _ _
  · exact .refl s

theorem resendOne_calm (ref : Fin 8) (s : Part) : Calm s (resendOne ref s) := by
  unfold resendOne
  refine .when ?_
  split
  · exact withGang_calm _ _ (by rfl)
  · exact .refl s

theorem gangTurn_calm (s : Part) : Calm s (gangTurn s) := by
  have mismatch : Calm s (mismatchTurn s) :=
    .when ((withGang_calm _ s (by rfl)).trans (.foldl (fun _ _ => repairGroup_calm _ _) _ _))
  have silence (u : Part) : Calm u (silenceTurn u) :=
    .ite (fun _ => .refl u) fun _ => Calm.ite
      (fun _ => Calm.ite (fun _ => (withGang_calm _ u (by rfl)).trans (linkLost_calm _)) fun _ => withGang_calm _ u (by rfl))
      fun _ => withGang_calm _ u (by rfl)
  exact (mismatch.trans (.foldl (fun _ _ => resendOne_calm _ _) _ _)).trans (silence _)

/-! ## Writes, clock, watch, tracker -/

theorem writeGroup_calm (g : Fin 16) (e : GroupEntry) (s : Part) : Calm s (writeGroup g e s) := by
  refine (setGroup_calm g _ s ?_).trans ((setTables_same _ _).calm rfl)
  unfold rehome
  split <;> rfl

theorem writeTables_calm (t : Tables) (s : Part) : Calm s (writeTables t s) :=
  ((((Calm.foldl (fun s g => writeGroup_calm g (t.groups.get g) s) _ s).trans ((setTables_same _ _).calm rfl)).trans
    ((dropCauses_same _ _ _).calm rfl)).trans ((dropCauses_same _ _ _).calm rfl)).trans ((writeSetup_same _ _).calm rfl)

theorem deferredLoad_calm (s : Part) : Calm s (deferredLoad s) :=
  Calm.ite (fun _ => ((withStore_same _ _).calm rfl).trans (writeTables_calm _ _)) fun _ =>
    (((withStore_same _ _).calm rfl).trans (writeTables_calm _ _)).trans (raise_calm _ _)

theorem respondOwner_calm (o : Option (Rig × Nat)) (st : Status) (s : Part) : Calm s (respondOwner o st s) := by
  unfold respondOwner
  split
  · exact respond_calm _ _ _ _ _ _
  · exact .refl s

theorem applyWrite_calm (w : PendingWrite) (s : Part) : Calm s (applyWrite w s) := by
  obtain ⟨o, act⟩ := w
  cases act with
  | load => exact deferredLoad_calm s
  | setMode g mode =>
    unfold applyWrite
    dsimp only
    split
    · exact respondOwner_calm _ _ _
    · exact ((writeMode_same _ _ _).calm rfl).trans (respondOwner_calm _ _ _)
  | route first es => exact ((writeRoutes_same _ _ _).calm rfl).trans (respondOwner_calm _ _ _)
  | group g e => exact (writeGroup_calm _ _ _).trans (respondOwner_calm _ _ _)
  | watchCause x c e => exact ((writeWatchCause_same _ _ _ _).calm rfl).trans (respondOwner_calm _ _ _)
  | watchSlots x l => exact ((writeWatchSlots_same _ _ _).calm rfl).trans (respondOwner_calm _ _ _)
  | setup n => exact ((writeSetup_same _ _).calm rfl).trans (respondOwner_calm _ _ _)
  | defaults => exact (writeTables_calm _ _).trans (respondOwner_calm _ _ _)
  | bypass e =>
    exact (((withPanel_same _ _).calm rfl).trans (relayChange_calm _ _ _)).trans (respondOwner_calm _ _ _)

theorem applyWrites_calm (l : List PendingWrite) (s : Part) : Calm s (applyWrites l s) := by
  induction l generalizing s with
  | nil => exact (withWrites_same _ _).calm rfl
  | cons w l ih => exact .ite (fun _ => (withWrites_same _ _).calm rfl) fun _ => (applyWrite_calm w s).trans (ih _)

theorem applyTableWrites_calm (l : List PendingWrite) (s : Part) : Calm s (applyTableWrites l s) := by
  induction l generalizing s with
  | nil => exact (withWrites_same _ _).calm rfl
  | cons w l ih => exact .ite (fun _ => (applyWrite_calm w s).trans (ih _)) fun _ => (withWrites_same _ _).calm rfl

theorem applyHead_calm (kind : WriteAct → Bool) (s : Part) : Calm s (applyHead kind s) := by
  unfold applyHead
  split
  · exact .when (((withWrites_same _ _).calm rfl).trans (applyWrite_calm _ _))
  · exact .refl s

theorem selectBetter_calm (s : Part) : Calm s (selectBetter s) := .when (selectSource_calm _ _ _)

theorem raiseHealth_calm (x : Rig) (o m n : Health) (s : Part) : Calm s (raiseHealth x o m n s) := by
  unfold raiseHealth
  split
  · exact raise_calm _ _
  · exact .refl s

theorem settleWrites_calm (b : PerRig Health) (s : Part) : Calm s (settleWrites b s) := by
  have settle (x : Rig) (h : Health) (u : Part) : Calm u (settleHealth x h u) :=
    Calm.ite (fun _ => .refl u) fun _ => ((setHealth_same _ _ _).calm rfl).trans (raiseHealth_calm _ _ _ _ _)
  exact ((settle .A _ s).trans (settle .B _ _)).trans (selectBetter_calm _)

theorem keyTurn_calm (l : Bool) (s : Part) : Calm s (keyTurn l s) :=
  .ite (fun _ => (withLock_same _ _).calm rfl) fun _ => .ite
    (fun _ => Calm.ite (fun _ => ((withLock_same _ _).calm rfl).trans (setLevel_calm _ _ _)) fun _ =>
      (withLock_same _ _).calm rfl)
    fun _ => (withLock_same _ _).calm rfl

theorem clockTurn_calm (s : Part) : Calm s (clockTurn s) := ((withClock_same _ _).calm rfl).trans (selectBetter_calm _)

theorem watchTurn_calm (ord : Order) (b : PerRig Health) (s : Part) : Calm s (watchTurn ord b s) := by
  have health (x : Rig) (h : Health) (u : Part) : Calm u (healthTurn x h u) :=
    ((setHealth_same _ _ _).calm rfl).trans (raiseHealth_calm _ _ _ _ _)
  have watch (x : Rig) (h : Health) (first : Bool) (n : Nat) (u : Part) : Calm u (watchRig x h first n u) :=
    .ite (fun _ => ((slipTurn_same _ _ _).calm rfl).trans (health _ _ _)) fun _ =>
      (health _ _ _).trans ((slipTurn_same _ _ _).calm rfl)
  exact (((((underrunTurn_same .A s).calm rfl).trans ((underrunTurn_same .B _).calm rfl)).trans
    (watch .A _ _ _ _)).trans (watch .B _ _ _ _))

theorem refuseGathered_calm (r : Rig) (why : RefuseReason) (s : Part) : Calm s (refuseGathered r why s) := by
  unfold refuseGathered
  split
  · exact refuseMessage_calm _ _ _ _
  all_goals exact .refl s

theorem setAssembly_calm (r : Rig) (a : Assembly) (s : Part) : Calm s (setAssembly r a s) := setPort_calm _ _ _ rfl rfl

theorem handLoss_calm (r : Rig) (s : Part) : Calm s (handLoss r s) := by
  unfold handLoss
  split
  · exact (refuseGathered_calm _ _ _).trans (setAssembly_calm _ _ _)
  all_goals exact .refl s

theorem leaveLocked_calm (r : Rig) (st : RxState) (s : Part) : Calm s (leaveLocked r st s) :=
  (((((setRx_same _ _ _).calm rfl).trans ((flushRing_same _ _).calm rfl)).trans ((setHealth_same _ _ _).calm rfl)).trans
    (handLoss_calm _ _)).trans (sourceLost_calm _ _)

theorem activityLost_calm (r : Rig) (s : Part) : Calm s (activityLost r s) := by
  unfold activityLost
  dsimp only
  split
  · exact ((setRx_same _ _ _).calm rfl).trans (leaveLocked_calm _ _ _)
  · exact (((setRx_same _ _ _).calm rfl).trans (handLoss_calm _ _)).trans ((setRx_same _ _ _).calm rfl)
  all_goals exact ((setRx_same _ _ _).calm rfl).trans ((setRx_same _ _ _).calm rfl)

theorem lossTurn_calm (ord : Order) (s : Part) : Calm s (lossTurn ord s) := by
  have lose (x : Rig) (loss : Option LockLoss) (u : Part) : Calm u (loseLock x loss u) := by
    unfold loseLock
    split
    · exact .when (activityLost_calm _ _)
    · exact .when (leaveLocked_calm _ _ _)
    · exact .refl u
  exact (lose .A _ s).trans (lose .B _ _)

theorem trackerTurn_calm (ord : Order) (s : Part) : Calm s (trackerTurn ord s) := by
  have lost (t : Tracker) : Calm s (lossTurn ord { s with tracker := t }) :=
    ((withTracker_same _ _).calm rfl).trans (lossTurn_calm _ _)
  have align (o n : Tracker) (c : Option Correction) (u : Part) : Calm u (raiseAlign o n c u) := .when (raise_calm _ _)
  unfold trackerTurn
  dsimp only
  split
  · exact (((lost _).trans ((moveRing_same _ _ _).calm rfl)).trans ((withTracker_same _ _).calm rfl)).trans (align _ _ _ _)
  · exact ((lost _).trans ((withTracker_same _ _).calm rfl)).trans (align _ _ _ _)

theorem buttonTurn_calm (x : Rig) (l : Bool) (s : Part) : Calm s (buttonTurn x l s) :=
  Calm.ite (fun _ => ((withPanel_same _ _).calm rfl).trans (press_calm _ _)) fun _ => (withPanel_same _ _).calm rfl

theorem requestTurn_calm (l : Lines) (o : Order) (s : Part) : Calm s (requestTurn l o s) := by
  have buttons (b : Bool) (u : Part) : Calm u (buttonsTurn l b u) :=
    .ite (fun _ => (buttonTurn_calm _ _ _).trans (buttonTurn_calm _ _ _)) fun _ =>
      (buttonTurn_calm _ _ _).trans (buttonTurn_calm _ _ _)
  have presses (u : Part) : Calm u (pressTurn l o u) :=
    .ite (fun _ => (buttons _ _).trans (applyPresses_calm _)) fun _ => (applyPresses_calm _).trans (buttons _ _)
  exact .ite (fun _ => (presses _).trans (runMoves_calm _ _)) fun _ => (runMoves_calm _ _).trans (presses _)

theorem switchTurn_fair (l : Lines) (o : Order) (s : Part) : Fair s (switchTurn l o s) :=
  ((((((requestTurn_calm l o s).fair.trans (startStrayMoves_fair _)).trans (takeoverTurn_fair _)).trans
    (decideGroups_fair _ _)).trans (startPendingMoves_fair _)).trans (settleArrivals_calm _).fair).trans
    ((publishOnAir_same _).calm rfl).fair

/-- The turns of a boundary between its frames. -/
def boundaryTurns (lines : Lines) (ord : Order) (s : Part) : Part :=
  gangTurn (switchTurn lines ord (trackerTurn ord (watchTurn ord s.health (clockTurn (matchTurn (writesTurn
    (keyTurn lines.key s)))))))

/-- R23: a boundary opens, begins frames, takes its turns and begins the other frames. -/
theorem boundary_eq (lines : Lines) (ord : Order) (s : Part) :
    boundary lines ord s = framesAfter ord (boundaryTurns lines ord (framesBefore ord (openBoundary lines s))) := rfl

theorem boundaryTurns_fair (l : Lines) (o : Order) (s : Part) : Fair s (boundaryTurns l o s) :=
  (((((((keyTurn_calm _ s).trans (applyWrites_calm _ _)).trans (matchTurn_calm _)).trans (clockTurn_calm _)).trans
    (watchTurn_calm _ _ _)).trans (trackerTurn_calm _ _)).fair.trans (switchTurn_fair _ _ _)).trans (gangTurn_calm _).fair

/-! ## Messages and chunks -/

theorem acceptWrite_calm (r : Rig) (id : Nat) (a : WriteAct) (s : Part) : Calm s (acceptWrite r id a s) :=
  ((withWrites_same _ _).calm rfl).trans (setPhase_calm _ _ _ _)

theorem takeMove_calm (r : Rig) (id : Nat) (m : Half) (q : MoveReq) (s : Part) : Calm s (takeMove r id m q s) := by
  unfold takeMove
  dsimp only
  split
  · exact respond_calm _ _ _ _ _ _
  · refine .ite (fun _ => setPhase_calm _ _ _ _) fun _ => ?_
    split
    · exact respond_calm _ _ _ _ _ _
    · exact (withGang_calm _ _ (by rfl)).trans (setPhase_calm _ _ _ _)

theorem withdrawPart_calm (p : Option MovePart) (s : Part) : Calm s (withdrawPart p s) := by
  unfold withdrawPart
  split
  · unfold withdraw
    dsimp only
    split <;> exact withGang_calm _ _ (by rfl)
  · exact .refl s

theorem cancelOne_calm (r : Rig) (id : Nat) (s : Part) : Calm s (cancelOne r id s) := by
  unfold cancelOne
  repeat' split
  all_goals first
    | with_reducible exact .refl _
    | exact ((withWrites_same _ _).calm rfl).trans (respond_calm _ _ _ _ _ _)
    | exact (((unbind_calm _ _).trans (unbind_calm _ _)).trans (withdrawPart_calm _ _)).trans (respond_calm _ _ _ _ _ _)

theorem perform_calm (r : Rig) (id : Nat) (c : Command) (s : Part) : Calm s (perform r id c s) := by
  cases c with
  | readHealth x clear => exact (respond_calm _ _ _ _ _ _).trans ((clearSticky_same _ _ _).calm rfl)
  | readCounts x clear => exact (respond_calm _ _ _ _ _ _).trans (.when ((clearCounts_same _ _).calm rfl))
  | write act =>
    unfold perform takeWrite
    dsimp only
    split
    · exact respond_calm _ _ _ _ _ _
    · exact acceptWrite_calm _ _ _ _
  | moveGroup mask req => exact takeMove_calm _ _ _ _ _
  | setMode g mode =>
    unfold perform takeSetMode
    dsimp only
    split
    · exact respond_calm _ _ _ _ _ _
    · exact acceptWrite_calm _ _ _ _
  | markRig x fault => exact ((setHealth_same _ _ _).calm rfl).trans (respond_calm _ _ _ _ _ _)
  | cancel sc => exact (Calm.foldl (fun t i => cancelOne_calm r i t) _ s).trans (respond_calm _ _ _ _ _ _)
  | setLock level =>
    exact Calm.ite (fun _ => (setLevel_calm _ _ _).trans (respond_calm _ _ _ _ _ _)) fun _ => respond_calm _ _ _ _ _ _
  | save => exact ((withStore_same _ _).calm rfl).trans (setPhase_calm _ _ _ _)
  | bypass engage => exact acceptWrite_calm _ _ _ _
  | identify | readStatus | readRoute | readGroup | readWatch | readAlign | reset => exact respond_calm _ _ _ _ _ _

theorem judge_calm (r : Rig) (id : Nat) (msg : List Byte) (s : Part) : Calm s (judge r id msg s) := by
  unfold judge
  repeat' split
  all_goals first
    | exact respond_calm _ _ _ _ _ _
    | exact perform_calm _ _ _ _

theorem occupy_calm (r : Rig) (v : Bool) (msg : List Byte) (s : Part) : Calm s (occupy r v msg s) :=
  (setPort_calm r { s.port.get r with
    slots := (s.port.get r).slots ++ [⟨s.nextId, byteAt msg 0, byteAt msg 1, v, .taken⟩] } s rfl rfl).trans
    (Same.calm (F := [.nextId]) (by intro b hb; cases b <;> first | rfl | simp at hb) rfl)

theorem intake_calm (r : Rig) (msg : List Byte) (s : Part) : Calm s (intake r msg s) :=
  .ite (fun _ => refuseMessage_calm _ _ _ _) fun _ =>
    .ite (fun _ => (occupy_calm _ _ _ _).trans (judge_calm _ _ _ _)) fun _ =>
      .ite (fun _ => (occupy_calm _ _ _ _).trans (judge_calm _ _ _ _)) fun _ => refuseMessage_calm _ _ _ _

theorem handChunk_calm (r : Rig) (c : List Byte) (s : Part) : Calm s (handChunk r c s) := by
  unfold handChunk
  dsimp only
  repeat' split
  all_goals first
    | with_reducible exact .refl _
    | exact refuseMessage_calm _ _ _ _
    | exact setAssembly_calm _ _ _
    | exact (refuseGathered_calm _ _ _).trans (setAssembly_calm _ _ _)
    | exact (setAssembly_calm _ _ _).trans (intake_calm _ _ _)
    | exact ((refuseGathered_calm _ _ _).trans (setAssembly_calm _ _ _)).trans (intake_calm _ _ _)

end Sys2Proof.Machine
end


section
/-! SUPPORT. What the shared operations of the receivers leave in each block: a written frame (R20, R30, R33, R55), a chunk loss
(R125), a lost clock source (R26), a lost lock (R19); and what a message can change of a receiver and of a rig's arrivals. -/

namespace Sys2Proof.Machine

/-! ## Containers -/

@[simp] theorem PerRig.set_get {α : Type} (p : PerRig α) (r : Rig) : p.set r (p.get r) = p := by cases r <;> rfl

@[simp] theorem PerRig.set_set {α : Type} (p : PerRig α) (r : Rig) (x y : α) : (p.set r x).set r y = p.set r y := by
  cases r <;> rfl

/-! ## A chunk loss -/

section
variable (r : Rig) (s : Part)
@[simp] theorem handLoss_rx : (handLoss r s).rx = s.rx := (handLoss_same r s).get .rx rfl
@[simp] theorem handLoss_ring : (handLoss r s).ring = s.ring := (handLoss_same r s).get .ring rfl
@[simp] theorem handLoss_health : (handLoss r s).health = s.health := (handLoss_same r s).get .health rfl
@[simp] theorem handLoss_tracker : (handLoss r s).tracker = s.tracker := (handLoss_same r s).get .tracker rfl
@[simp] theorem handLoss_clock : (handLoss r s).clock = s.clock := (handLoss_same r s).get .clock rfl
@[simp] theorem handLoss_tables : (handLoss r s).tables = s.tables := (handLoss_same r s).get .tables rfl
@[simp] theorem handLoss_program : (handLoss r s).program = s.program := (handLoss_same r s).get .program rfl

/-- R125: a loss while a message is gathered drops it and records it as BROKEN. -/
theorem handLoss_assembling (bytes : List Byte) (h : (s.port.get r).assembly = .assembling bytes) :
    handLoss r s = setAssembly r .idle (refuseMessage r (bytes.headD 0xFF#8) .broken s) := by
  simp [handLoss, refuseGathered, h, refusedTag]

theorem handLoss_of_not_assembling (h : (s.port.get r).assembly = .idle ∨ (s.port.get r).assembly = .skipping) :
    handLoss r s = s := by
  rcases h with h | h <;> simp [handLoss, h]

/-- R125, R126: the port after a loss in the middle of a message. -/
theorem handLoss_port_assembling (bytes : List Byte) (h : (s.port.get r).assembly = .assembling bytes) :
    ((handLoss r s).port.get r).assembly = .idle ∧ ((handLoss r s).port.get r).refReason = .broken ∧
      ((handLoss r s).port.get r).refTag = bytes.headD 0xFF#8 := by
  rw [handLoss_assembling r s bytes h]
  simp [setAssembly, refuseMessage]

/-- A loss leaves the notices of every lane. -/
theorem handLoss_lane (q : Rig) : ((handLoss r s).port.get q).lane = (s.port.get q).lane := by
  unfold handLoss refuseGathered setAssembly refuseMessage
  split
  · by_cases h : q = r <;> simp [PerRig.get_set, h]
  all_goals rfl
end

/-! ## A written frame -/

/-- R30, R33: whether the write of a frame finds the fill above 3048. -/
abbrev skips (s : Part) (r : Rig) : Bool := (s.ring.get r).overrun

theorem writeFrame_rx (r : Rig) (rep : Report) (s : Part) :
    (writeFrame r rep s).rx = if skips s r then
        s.rx.set r { s.rx.get r with counters := (s.rx.get r).counters.addSkip } else s.rx := by
  unfold writeFrame reportSkip Ring.take clearHistory
  by_cases ho : (s.ring.get r).overrun <;> cases rep.relock <;> simp [ho]

theorem writeFrame_ring (r : Rig) (rep : Report) (s : Part) :
    (writeFrame r rep s).ring = s.ring.set r ((s.ring.get r).take rep s.tables.setup.fill).1 := by
  unfold writeFrame reportSkip Ring.take clearHistory
  by_cases ho : (s.ring.get r).overrun <;> cases rep.relock <;> simp [ho]

theorem writeFrame_health (r : Rig) (rep : Report) (s : Part) :
    (writeFrame r rep s).health = s.health.set r
      ((if skips s r then (s.health.get r).slipped else s.health.get r).arrive rep (s.tables.watch.get r)) := by
  unfold writeFrame reportSkip Ring.take clearHistory
  by_cases ho : (s.ring.get r).overrun <;> cases rep.relock <;> simp [ho]

theorem writeFrame_tracker (r : Rig) (rep : Report) (s : Part) :
    (writeFrame r rep s).tracker = if rep.relock then { s.tracker with history := [] } else s.tracker := by
  unfold writeFrame reportSkip Ring.take clearHistory
  by_cases ho : (s.ring.get r).overrun <;> cases rep.relock <;> simp [ho]

section
variable (r : Rig) (rep : Report) (s : Part)
@[simp] theorem writeFrame_port : (writeFrame r rep s).port = s.port := (writeFrame_same r rep s).get .port rfl
@[simp] theorem writeFrame_clock : (writeFrame r rep s).clock = s.clock := (writeFrame_same r rep s).get .clock rfl

/-- R33: a write changes no more of its rig's receiver than the count of skip slips. -/
theorem writeFrame_rx_self : (writeFrame r rep s).rx.get r = { s.rx.get r with
    counters := if skips s r then (s.rx.get r).counters.addSkip else (s.rx.get r).counters } := by
  rw [writeFrame_rx]
  split <;> simp
end

/-! ## A source lost (R25, R26) -/

/-- R25, R26: the clock after a source has ceased to be present. -/
theorem sourceLost_clock (src : Source) (s : Part) (h : src ≠ .free) :
    (sourceLost src s).clock = { s.clock with
      qual := s.clock.qual.set src 0
      selected := if s.clock.selected = src then bestSource s.tables.setup.reference (s.clock.qual.set src 0)
        else s.clock.selected } := by
  unfold sourceLost selectSource raise
  by_cases hs : s.clock.selected = src <;> simp [hs, h]

/-- R27: the loss of a source that is not selected raises nothing. -/
theorem sourceLost_quiet (src : Source) (s : Part) (h : s.clock.selected ≠ src) :
    (sourceLost src s).port = s.port ∧ (sourceLost src s).program = s.program := by
  simp [sourceLost, h]

/-- R27: the loss of the selected source raises the CLOCK notice. -/
theorem sourceLost_selected (src : Source) (s : Part) (h : s.clock.selected = src) (hf : src ≠ .free) :
    sourceLost src s = selectSource (bestSource s.tables.setup.reference (s.clock.qual.set src 0)) true
      { s with clock := { s.clock with qual := s.clock.qual.set src 0 } } := by
  simp [sourceLost, h, hf]

theorem rigSource_ne_free (r : Rig) : rigSource r ≠ .free := by cases r <;> decide

@[simp] theorem Qual.get_set_rigSource (q : Qual) (r : Rig) (n : Nat) :
    (q.set (rigSource r) n).get (rigSource r) = n := by cases r <;> rfl

theorem Lane.push_getLast (l : Lane) (n : Notice) : (l.push n).notices.getLast? = some n := by
  unfold Lane.push
  split <;> simp

/-- R135: a raised notice stands last in every queue. -/
theorem raised_raise (b : NoticeBody) (s : Part) : raised (raise b s) b := by
  simp only [raised, raise, PerRig.map, Port.push, Lane.push_getLast, and_self]

/-! ## A lock lost (R19) -/

section
variable (r : Rig) (st : RxState) (s : Part)

/-- The part that a lost lock leaves, but for the port's message and the clock (R19, R34, R43, R55). -/
def unlockedPart : Part :=
  { s with
    rx := s.rx.set r ((s.rx.get r).unlocked st)
    ring := s.ring.set r (s.ring.get r).flush
    tracker := { s.tracker with history := [] }
    health := s.health.set r (s.health.get r).clearRefs }

theorem leaveLocked_eq : leaveLocked r st s = sourceLost (rigSource r) (handLoss r (unlockedPart r st s)) := rfl

theorem leaveLocked_rx : (leaveLocked r st s).rx = s.rx.set r ((s.rx.get r).unlocked st) := by
  rw [leaveLocked_eq]
  exact ((sourceLost_same _ _).get .rx rfl).trans (handLoss_rx _ _)

theorem leaveLocked_ring : (leaveLocked r st s).ring = s.ring.set r (s.ring.get r).flush := by
  rw [leaveLocked_eq]
  exact ((sourceLost_same _ _).get .ring rfl).trans (handLoss_ring _ _)

theorem leaveLocked_health : (leaveLocked r st s).health = s.health.set r (s.health.get r).clearRefs := by
  rw [leaveLocked_eq]
  exact ((sourceLost_same _ _).get .health rfl).trans (handLoss_health _ _)

theorem leaveLocked_tracker : (leaveLocked r st s).tracker = { s.tracker with history := [] } := by
  rw [leaveLocked_eq]
  exact ((sourceLost_same _ _).get .tracker rfl).trans (handLoss_tracker _ _)
end

/-- R11, R19: the receiver after its line has lost activity. -/
def Receiver.noLine (rx : Receiver) : Receiver :=
  match rx.state with
  | .locked => ({ rx with activity := false } : Receiver).unlocked .noSignal
  | .verifying => { rx with activity := false, state := .noSignal, verifyCount := 0 }
  | .hunting | .noSignal => { rx with activity := false, state := .noSignal }

theorem activityLost_rx (r : Rig) (s : Part) : (activityLost r s).rx = s.rx.set r (s.rx.get r).noLine := by
  unfold activityLost Receiver.noLine
  dsimp only
  split
  next h => simp [leaveLocked_rx, h]
  next h => simp [h]
  all_goals next h => simp [h]

/-! ## The receivers' own steps -/

theorem takeGood_eq (r : Rig) (f : ForwardFrame) (relock : Bool) (s : Part) :
    takeGood r f relock s =
      handChunk r f.lane (writeFrame r (realReport f relock) (s.setRx r ((s.rx.get r).takeGood f))) := rfl

/-- R15: a bad-check frame is a loss, the receiver's own record, and a stand-in after the previous frame. -/
theorem takeBad_eq (r : Rig) (s : Part) (p : PrevFrame) (h : (s.rx.get r).prev = some p) :
    takeBad r s = writeStandIn r p (standInOf p).1 (standInOf p).2 ((handLoss r s).setRx r (s.rx.get r).takeBad) := by
  simp [takeBad, h]

theorem fillFrame_eq (r : Rig) (s : Part) (p : PrevFrame) (h : (s.rx.get r).prev = some p) :
    fillFrame r s = writeStandIn r p .filled silentAudio (s.setRx r (s.rx.get r).fill) := by
  simp [fillFrame, h]

/-! ## Receivers up to their counters (R22) -/

/-- From `s` to `t` nothing of a receiver has changed but its counters. -/
def CountersOnly (s t : Part) : Prop := ∀ x, t.rx.get x = { s.rx.get x with counters := (t.rx.get x).counters }

theorem CountersOnly.refl (s : Part) : CountersOnly s s := fun _ => rfl

theorem CountersOnly.trans {s t u : Part} (h : CountersOnly s t) (k : CountersOnly t u) : CountersOnly s u :=
  fun x => (k x).trans (by rw [h x])

theorem Same.countersOnly {F : List Block} {s t : Part} (h : Same F s t) (hF : F.contains .rx = false) :
    CountersOnly s t := fun x => by
  have e : t.rx = s.rx := h.get .rx hF
  rw [e]

theorem CountersOnly.when {s a : Part} {p : Prop} [Decidable p] (h : CountersOnly s a) :
    CountersOnly s (if p then a else s) := by
  split
  · exact h
  · exact .refl s

theorem setRx_countersOnly (r : Rig) (k : Counters) (s : Part) :
    CountersOnly s (s.setRx r { s.rx.get r with counters := k }) := fun x => by
  rw [setRx_rx, PerRig.get_set]
  split
  next h => rw [h]
  next => rfl

theorem writeFrame_countersOnly (r : Rig) (rep : Report) (s : Part) : CountersOnly s (writeFrame r rep s) := fun x => by
  have h := setRx_countersOnly r (s.rx.get r).counters.addSkip s x
  rw [writeFrame_rx]
  split
  · exact h
  · rfl

theorem perform_countersOnly (r : Rig) (id : Nat) (c : Command) (s : Part) : CountersOnly s (perform r id c s) := by
  cases c
  case readCounts x clear =>
    exact ((respond_same _ _ _ _ _ _).countersOnly rfl).trans (.when (setRx_countersOnly _ _ _))
  all_goals exact (perform_blocks r id _ s).countersOnly rfl

theorem judge_countersOnly (r : Rig) (id : Nat) (msg : List Byte) (s : Part) : CountersOnly s (judge r id msg s) := by
  unfold judge
  repeat' split
  all_goals first
    | exact (respond_same _ _ _ _ _ _).countersOnly rfl
    | exact perform_countersOnly _ _ _ _

theorem intake_countersOnly (r : Rig) (msg : List Byte) (s : Part) : CountersOnly s (intake r msg s) := by
  unfold intake
  repeat' split
  all_goals first
    | exact (refuseMessage_same _ _ _ _).countersOnly rfl
    | exact ((occupy_same _ _ _ _).countersOnly rfl).trans (judge_countersOnly _ _ _ _)

/-! ## Arrivals (R54, R55) -/

/-- From `s` to `t` every rig's arrival reference stands. -/
def ArrivalsStand (s t : Part) : Prop := ∀ x, (t.health.get x).arrival = (s.health.get x).arrival

theorem Same.arrivalsStand {F : List Block} {s t : Part} (h : Same F s t) (hF : F.contains .health = false) :
    ArrivalsStand s t := fun x => by
  have e : t.health = s.health := h.get .health hF
  rw [e]

theorem ArrivalsStand.trans {s t u : Part} (h : ArrivalsStand s t) (k : ArrivalsStand t u) : ArrivalsStand s u :=
  fun x => (k x).trans (h x)

theorem setHealth_arrivalsStand (r : Rig) (h : Health) (s : Part) (ha : h.arrival = (s.health.get r).arrival) :
    ArrivalsStand s (s.setHealth r h) := fun x => by
  rw [setHealth_health, PerRig.get_set]
  split
  next hx => rw [ha, hx]
  next => rfl

theorem perform_arrivalsStand (r : Rig) (id : Nat) (c : Command) (s : Part) : ArrivalsStand s (perform r id c s) := by
  cases c
  case readHealth x clear =>
    exact ((respond_same _ _ _ _ _ _).arrivalsStand rfl).trans (setHealth_arrivalsStand _ _ _ rfl)
  case markRig x fault =>
    exact (setHealth_arrivalsStand x { s.health.get x with mark := fault } s rfl).trans
      ((respond_same _ _ _ _ _ _).arrivalsStand rfl)
  all_goals exact (perform_blocks r id _ s).arrivalsStand rfl

theorem judge_arrivalsStand (r : Rig) (id : Nat) (msg : List Byte) (s : Part) : ArrivalsStand s (judge r id msg s) := by
  unfold judge
  repeat' split
  all_goals first
    | exact (respond_same _ _ _ _ _ _).arrivalsStand rfl
    | exact perform_arrivalsStand _ _ _ _

theorem intake_arrivalsStand (r : Rig) (msg : List Byte) (s : Part) : ArrivalsStand s (intake r msg s) := by
  unfold intake
  repeat' split
  all_goals first
    | exact (refuseMessage_same _ _ _ _).arrivalsStand rfl
    | exact ((occupy_same _ _ _ _).arrivalsStand rfl).trans (judge_arrivalsStand _ _ _ _)

/-! ## A chunk handed on (R125) -/

/-- Whatever a message keeps, a handed chunk keeps: beside the message it completes it changes its port alone. -/
theorem handChunk_keeps {R : Part → Part → Prop} (trans : ∀ {s t u}, R s t → R t u → R s u)
    (port : ∀ {s t}, Same [.port] s t → R s t) (message : ∀ r msg s, R s (intake r msg s)) (r : Rig) (c : List Byte)
    (s : Part) : R s (handChunk r c s) := by
  have gathered (why : RefuseReason) (a : Assembly) : R s (setAssembly r a (refuseGathered r why s)) :=
    port ((refuseGathered_same _ _ _).trans (setAssembly_same _ _ _))
  unfold handChunk
  dsimp only
  repeat' split
  all_goals first
    | with_reducible exact port (Same.refl _ _)
    | exact port (refuseMessage_same _ _ _ _)
    | exact port (setAssembly_same _ _ _)
    | exact gathered _ _
    | exact trans (port (setAssembly_same _ _ _)) (message _ _ _)
    | exact trans (gathered _ _) (message _ _ _)

theorem handChunk_countersOnly (r : Rig) (c : List Byte) (s : Part) : CountersOnly s (handChunk r c s) :=
  handChunk_keeps .trans (fun h => h.countersOnly rfl) intake_countersOnly r c s

theorem handChunk_arrivalsStand (r : Rig) (c : List Byte) (s : Part) : ArrivalsStand s (handChunk r c s) :=
  handChunk_keeps .trans (fun h => h.arrivalsStand rfl) intake_arrivalsStand r c s

end Sys2Proof.Machine
end


section
/-! SUPPORT. The invariants that every step keeps: the progress of the fades (R91), the scores and the history (R21, R42), the
states of the receivers (R10, R11, R13, R19, R167); the state after reset; and the rig that an event does not name. -/

namespace Sys2Proof.Machine

/-! ## Fades (R91) -/

theorem fadesWithin_of_groups {s t : Part} (h : t.groups = s.groups) (hs : FadesWithin s) : FadesWithin t :=
  ⟨fun g => by rw [h]; exact hs.course g⟩

/-- A command that does not touch the groups keeps their fades. -/
theorem Same.fadesWithin {F : List Block} {s t : Part} (h : Same F s t) (hF : F.contains .groups = false)
    (hs : FadesWithin s) : FadesWithin t := fadesWithin_of_groups (h.get .groups hF) hs

theorem fadesWithin_of_initial {t : Part} (h : t.groups = Tbl.fill GroupRec.initial) : FadesWithin t :=
  ⟨fun g => by rw [h, Tbl.get_fill]; trivial⟩

theorem endReset_groups (l : Lines) (s : Part) : (endReset l s).groups = s.groups := (endReset_same l s).get .groups rfl

theorem commandReset_fadesWithin (l : Lines) (s : Part) : FadesWithin (commandReset l s) :=
  fadesWithin_of_initial (endReset_groups _ _)

theorem powerOn_fadesWithin (l : Lines) (s : Part) : FadesWithin (powerOn l s) := by
  unfold powerOn
  dsimp only
  split
  · exact fadesWithin_of_initial rfl
  · exact fadesWithin_of_initial (endReset_groups _ _)

theorem openBoundary_fadesWithin (l : Lines) (s : Part) (hs : FadesWithin s) : FadesWithin (openBoundary l s) := by
  have opened (u : Part) : Same [.clock, .gang, .store, .port, .program, .health, .tracker] u
      (promote (owedTurn (adoptTurn (countTurn u)))) :=
    ((((countTurn_same u).mono rfl).trans ((adoptTurn_same _).mono rfl)).trans ((owedTurn_same _).mono rfl)).trans
      ((promote_same _).mono rfl)
  unfold openBoundary
  dsimp only
  refine (opened _).fadesWithin rfl ?_
  split
  · exact commandReset_fadesWithin _ _
  · exact (endFrames_same s).fadesWithin rfl hs

theorem boundary_fadesWithin (l : Lines) (ord : Order) (s : Part) (hs : FadesWithin s) : FadesWithin (boundary l ord s) := by
  have opened : FadesWithin (framesBefore ord (openBoundary l s)) :=
    (framesBefore_same ord _).fadesWithin rfl (openBoundary_fadesWithin l s hs)
  have turned := (boundaryTurns_fair l ord _).fadesWithin opened
  rw [boundary_eq]
  exact (framesAfter_same ord _).fadesWithin rfl turned

theorem samplePeriod_fadesWithin (s : Part) (hs : FadesWithin s) : FadesWithin (samplePeriod s) := by
  have formed : FadesWithin (formSamples (tickFades s)) := (formSamples_same _).fadesWithin rfl ((tickFades_fair s).fadesWithin hs)
  have settled : FadesWithin (settleArrivals (completeFades (formSamples (tickFades s)))) :=
    (settleArrivals_calm _).fair.fadesWithin ((completeFades_fair _).fadesWithin formed)
  exact (withClock_same _ _).fadesWithin rfl ((advanceRings_same _).fadesWithin rfl settled)

theorem returnHold_fair (g : Fin 16) (s : Part) : Fair s (returnHold g s) := by
  have held : Fair s (s.setGroup g (countHold s g (s.groups.get g))) :=
    setGroup_fair _ _ _ fun h => by rwa [countHold_course]
  have gone (t : End) (reason : Reason) :
      Fair s (s.setGroup g (transition s g (countHold s g (s.groups.get g)) t reason).after) :=
    setGroup_fair _ _ _ fun h => transition_wf _ _ _ _ _ (by rwa [countHold_course])
  unfold returnHold
  refine .when (.ite (fun _ => ?_) fun _ => held)
  dsimp only
  split
  · exact ((gone _ _).trans (announce_calm _ _ _).fair).trans (supersedeIfElsewhere_calm _ _).fair
  · exact gone _ _

theorem fadeComplete_fair (g : Fin 16) (s : Part) : Fair s (settleArrivals (completeFade g
    (s.setGroup g { s.groups.get g with course := (s.groups.get g).course.tick }))) :=
  ((setGroup_fair _ _ _ Course.tick_wf).trans (completeFade_fair _ _)).trans (settleArrivals_calm _).fair

theorem executeIfReady_calm (o : Owner) (s : Part) : Calm s (executeIfReady o s) := by
  unfold executeIfReady
  repeat' split
  all_goals first
    | with_reducible exact .refl _
    | exact endOwner_calm _ _ _ _
    | exact executeRun_calm _ _ _ _

theorem timeoutIfDue_calm (o : Owner) (s : Part) : Calm s (timeoutIfDue o s) := by
  unfold timeoutIfDue
  repeat' split
  all_goals first
    | with_reducible exact .refl _
    | exact endOwner_calm _ _ _ _

/-- A frame that is written and its chunk handed on: the groups' courses stand. -/
theorem takeGood_calm (r : Rig) (f : ForwardFrame) (b : Bool) (s : Part) : Calm s (takeGood r f b s) :=
  (((setRx_same _ _ _).calm rfl).trans ((writeFrame_same _ _ _).calm rfl)).trans (handChunk_calm _ _ _)

theorem takeGap_calm (r : Rig) (k : Nat) (f : ForwardFrame) (s : Part) : Calm s (takeGap r k f s) :=
  ((handLoss_calm _ _).trans ((fillFrames_same _ _ _).calm rfl)).trans (takeGood_calm _ _ _ _)

theorem takeResync_calm (r : Rig) (f : ForwardFrame) (s : Part) : Calm s (takeResync r f s) :=
  (((handLoss_calm _ _).trans ((flushRing_same _ _).calm rfl)).trans ((setRx_same _ _ _).calm rfl)).trans
    (takeGood_calm _ _ _ _)

theorem verifyGood_calm (r : Rig) (f : ForwardFrame) (s : Part) : Calm s (verifyGood r f s) :=
  Calm.ite (fun _ => ((setRx_same _ _ _).calm rfl).trans (takeGood_calm _ _ _ _)) fun _ =>
    ((setRx_same _ _ _).calm rfl).trans (handChunk_calm _ _ _)

theorem unlessReset_fadesWithin {f : Part → Part} (s : Part) (hs : FadesWithin s) (h : FadesWithin s → FadesWithin (f s)) :
    FadesWithin (unlessReset f s) := by
  unfold unlessReset
  split
  · exact hs
  · exact h hs

/-- R91: every command keeps each fade's progress within its length. -/
theorem partAfter_fadesWithin (c : Instr) (s : State) (hs : FadesWithin s.toPart) : FadesWithin (partAfter c s) := by
  have running {f : Part → Part} (e : exec c s = onPart (unlessReset f) s) (h : Fair s.toPart (f s.toPart)) :
      FadesWithin (partAfter c s) := by
    rw [partAfter_of_unlessReset e]
    exact unlessReset_fadesWithin _ hs h.fadesWithin
  have message (r : Rig) (t code : Byte) (b : List Byte) : FadesWithin (unlessReset (intake r (t :: code :: b)) s.toPart) :=
    unlessReset_fadesWithin _ hs (intake_calm _ _ _).fair.fadesWithin
  cases c with
  | powerOnReset l => exact powerOn_fadesWithin _ _
  | lineResetAssert => exact unlessReset_fadesWithin _ hs fun _ => fadesWithin_of_initial rfl
  | lineResetEnd l => exact (Same.when (endReset_same _ _)).fadesWithin rfl hs
  | commandReset l =>
    refine unlessReset_fadesWithin _ hs fun h => ?_
    split
    · exact commandReset_fadesWithin _ _
    · exact h
  | localFrameBoundary l ord => exact unlessReset_fadesWithin (f := boundary l ord) _ hs (boundary_fadesWithin l ord _)
  | outputSamplePeriod => exact unlessReset_fadesWithin (f := samplePeriod) _ hs (samplePeriod_fadesWithin _)
  | fadeComplete g =>
    refine running rfl ?_
    split
    · exact Fair.when (fadeComplete_fair _ _)
    · exact Fair.refl _
  | returnHoldExpiry g => exact running rfl (returnHold_fair _ _)
  | takeover => exact running rfl (Fair.when (takeOver_fair _))
  | buttonPress x => exact running rfl (Calm.when (buttonTurn_calm _ _ _)).fair
  | buttonProposalApply => exact running rfl (applyPresses_calm _).fair
  | writeTakesEffect => exact running rfl ((applyTableWrites_calm _ _).trans (settleWrites_calm _ _)).fair
  | deferredLoad =>
    refine running rfl ?_
    split
    · exact (Calm.when ((applyHead_calm _ _).trans (settleWrites_calm _ _))).fair
    · exact Fair.refl _
  | moveGroupExecute name => exact running rfl (Calm.foldl (fun _ _ => executeIfReady_calm _ _) _ _).fair
  | moveGroupTimeout name => exact running rfl (Calm.foldl (fun _ _ => timeoutIfDue_calm _ _) _ _).fair
  | gangFrameReceived b => exact running rfl (gangFrame_calm _ _).fair
  | gangLinkLost => exact running rfl (Calm.when ((withGang_calm _ _ (by rfl)).trans (linkLost_calm _))).fair
  | gangMoveStart g => exact running rfl ((startPendingMove_fair _ _).trans (settleArrivals_calm _).fair)
  | verifyGoodFrame x f => exact running rfl (Calm.when (verifyGood_calm _ _ _)).fair
  | goodFrame x f => exact running rfl (Calm.when (Calm.when (takeGood_calm _ _ _ _))).fair
  | sequenceGap x f => exact running rfl (Calm.when (Calm.when (takeGap_calm _ _ _ _))).fair
  | resync x f => exact running rfl (Calm.when (Calm.when (takeResync_calm _ _ _))).fair
  | cancel r t b => exact message r t _ b
  | unknownCommand r t code b => exact message r t code b
  | _ => exact (partAfter_same _ s).fadesWithin rfl hs

/-! ## A property of each receiver -/

/-- A property holds of both receivers. -/
def EachRx (P : Receiver → Prop) (s : Part) : Prop := ∀ x, P (s.rx.get x)

/-- What a property of one receiver has to keep, for every command that finds the part out of reset to keep it: the steps of a
receiver by R11 to R19, each in the state in which its rule takes it, and the values after a reset. -/
structure ReceiverLaw (P : Receiver → Prop) : Prop where
  counters : ∀ rx k, P rx → P { rx with counters := k }
  good : ∀ rx f, rx.state = .locked → P rx → P (rx.takeGood f)
  bad : ∀ rx, P rx → P rx.takeBad
  missing : ∀ rx, P rx → P { rx with missed := true }
  fill : ∀ rx, P rx → P rx.fill
  resync : ∀ rx k, P rx → P { rx with score := scoreUp rx.score, counters := k }
  unlock : ∀ rx, rx.state = .locked → P rx → P (rx.unlocked .hunting)
  noLine : ∀ rx, P rx → P rx.noLine
  line : ∀ rx, P rx → P ({ rx with activity := true } : Receiver).seeLine
  sync : ∀ rx, rx.state = .hunting → P rx → P { rx with state := .verifying, verifyCount := 0 }
  fall : ∀ rx, rx.state = .verifying → P rx → P { rx with state := .hunting, verifyCount := 0, lastSeq := none }
  count : ∀ rx n seq, rx.state = .verifying → P rx → P { rx with verifyCount := n, lastSeq := some seq }
  lock : ∀ rx n (f : ForwardFrame), rx.state = .verifying → P rx →
    P (({ rx with verifyCount := n, lastSeq := some f.seq } : Receiver).lock.takeGood f)
  reset : ∀ a, P (Receiver.initial a).seeLine

section
variable {P : Receiver → Prop}

theorem eachRx_of_rx {s t : Part} (h : t.rx = s.rx) (hs : EachRx P s) : EachRx P t := fun x => by rw [h]; exact hs x

theorem eachRx_setRx {r : Rig} {rx : Receiver} {s : Part} (hs : EachRx P s) (h : P rx) : EachRx P (s.setRx r rx) :=
  fun x => by
    rw [setRx_rx, PerRig.get_set]
    split
    · exact h
    · exact hs x

theorem eachRx_when {a s : Part} {p : Prop} [Decidable p] (hs : EachRx P s) (h : p → EachRx P a) :
    EachRx P (if p then a else s) := by
  split
  case isTrue hp => exact h hp
  case isFalse => exact hs

theorem eachRx_ite {a b : Part} {p : Prop} [Decidable p] (ha : p → EachRx P a) (hb : ¬p → EachRx P b) :
    EachRx P (if p then a else b) := by
  split
  case isTrue hp => exact ha hp
  case isFalse hp => exact hb hp

theorem CountersOnly.eachRx (law : ReceiverLaw P) {s t : Part} (h : CountersOnly s t) (hs : EachRx P s) : EachRx P t :=
  fun x => by rw [h x]; exact law.counters _ _ (hs x)

theorem Same.eachRx {F : List Block} {s t : Part} (h : Same F s t) (hF : F.contains .rx = false) (hs : EachRx P s) :
    EachRx P t := eachRx_of_rx (h.get .rx hF) hs

theorem handLoss_eachRx {r : Rig} {s : Part} (hs : EachRx P s) : EachRx P (handLoss r s) :=
  eachRx_of_rx (handLoss_rx r s) hs

/-- A frame that is taken gives its receiver the record `rx`, and every other step of it only counts. -/
theorem takeGood_eachRx (law : ReceiverLaw P) {r : Rig} {f : ForwardFrame} {b : Bool} {s : Part}
    (hs : EachRx P (s.setRx r ((s.rx.get r).takeGood f))) : EachRx P (takeGood r f b s) := by
  rw [takeGood_eq]
  exact ((writeFrame_countersOnly _ _ _).trans (handChunk_countersOnly _ _ _)).eachRx law hs

theorem takeBad_eachRx (law : ReceiverLaw P) {r : Rig} {s : Part} (hs : EachRx P s) : EachRx P (takeBad r s) := by
  have recorded : EachRx P ((handLoss r s).setRx r (s.rx.get r).takeBad) :=
    eachRx_setRx (handLoss_eachRx hs) (law.bad _ (hs r))
  unfold takeBad
  dsimp only
  split
  · exact (writeFrame_countersOnly _ _ _).eachRx law recorded
  · exact recorded

theorem fillFrame_eachRx (law : ReceiverLaw P) {r : Rig} {s : Part} (hs : EachRx P s) : EachRx P (fillFrame r s) := by
  have recorded : EachRx P (s.setRx r (s.rx.get r).fill) := eachRx_setRx hs (law.fill _ (hs r))
  unfold fillFrame
  dsimp only
  split
  · exact (writeFrame_countersOnly _ _ _).eachRx law recorded
  · exact recorded

theorem fillFrames_eachRx (law : ReceiverLaw P) {r : Rig} (k : Nat) {s : Part} (hs : EachRx P s) :
    EachRx P (fillFrames r k s) := by
  induction k generalizing s with
  | zero => exact hs
  | succ k ih => exact ih (fillFrame_eachRx law hs)

/-- A filled frame leaves its receiver in its state. -/
theorem fillFrame_state (r : Rig) (s : Part) : ((fillFrame r s).rx.get r).state = (s.rx.get r).state := by
  unfold fillFrame writeStandIn
  dsimp only
  split
  · rw [writeFrame_rx_self]; simp [Receiver.fill]
  · simp [Receiver.fill]

theorem fillFrames_state (r : Rig) (k : Nat) (s : Part) : ((fillFrames r k s).rx.get r).state = (s.rx.get r).state := by
  induction k generalizing s with
  | zero => rfl
  | succ k ih => exact (ih _).trans (fillFrame_state r s)

theorem takeGap_eachRx (law : ReceiverLaw P) {r : Rig} {k : Nat} {f : ForwardFrame} {s : Part}
    (hl : (s.rx.get r).state = .locked) (hs : EachRx P s) : EachRx P (takeGap r k f s) := by
  have filled : EachRx P (fillFrames r k (handLoss r s)) := fillFrames_eachRx law k (handLoss_eachRx hs)
  refine takeGood_eachRx law (eachRx_setRx filled (law.good _ _ ?_ (filled r)))
  rw [fillFrames_state, handLoss_rx, hl]

theorem takeResync_eachRx (law : ReceiverLaw P) {r : Rig} {f : ForwardFrame} {s : Part}
    (hl : (s.rx.get r).state = .locked) (hs : EachRx P s) : EachRx P (takeResync r f s) := by
  have flushed : (flushRing r (handLoss r s)).rx = s.rx :=
    ((flushRing_same _ _).get .rx rfl).trans (handLoss_rx r s)
  have resynced := law.resync _ ((s.rx.get r).counters.addResync) (hs r)
  unfold takeResync
  dsimp only
  rw [flushed]
  refine takeGood_eachRx law (eachRx_setRx (eachRx_setRx (eachRx_of_rx flushed hs) resynced) ?_)
  rw [setRx_rx, PerRig.get_set_self]
  exact law.good _ _ hl resynced

theorem verifyGood_eachRx (law : ReceiverLaw P) {r : Rig} {f : ForwardFrame} {s : Part}
    (hv : (s.rx.get r).state = .verifying) (hs : EachRx P s) : EachRx P (verifyGood r f s) := by
  unfold verifyGood
  dsimp only
  refine eachRx_ite (fun _ => takeGood_eachRx law ?_) fun _ => ?_
  · rw [setRx_rx, PerRig.get_set_self]
    have locked := eachRx_setRx (r := r) hs (law.lock _ (verifyNext (s.rx.get r) f) f hv (hs r))
    exact eachRx_of_rx (by simp) locked
  · exact (handChunk_countersOnly _ _ _).eachRx law (eachRx_setRx hs (law.count _ _ _ hv (hs r)))

theorem leaveLocked_eachRx (law : ReceiverLaw P) {r : Rig} {s : Part} (hl : (s.rx.get r).state = .locked)
    (hs : EachRx P s) : EachRx P (leaveLocked r .hunting s) :=
  eachRx_of_rx (leaveLocked_rx r .hunting s) (eachRx_setRx (r := r) hs (law.unlock _ hl (hs r)))

theorem activityLost_eachRx (law : ReceiverLaw P) {r : Rig} {s : Part} (hs : EachRx P s) :
    EachRx P (activityLost r s) :=
  eachRx_of_rx (activityLost_rx r s) (eachRx_setRx (r := r) hs (law.noLine _ (hs r)))

theorem loseLock_eachRx (law : ReceiverLaw P) {x : Rig} {loss : Option LockLoss} {s : Part} (hs : EachRx P s) :
    EachRx P (loseLock x loss s) := by
  unfold loseLock
  split
  · exact eachRx_when hs fun _ => activityLost_eachRx law hs
  · refine eachRx_when hs fun h => leaveLocked_eachRx law ?_ hs
    have hl := (Bool.and_eq_true _ _ ▸ h).1
    simpa [isLocked] using hl
  · exact hs

/-! ## Resets and boundaries -/

theorem endReset_rx (l : Lines) (s : Part) : (endReset l s).rx = s.rx.map fun rx => rx.seeLine := by
  unfold endReset
  dsimp only
  split <;> rfl

theorem commandReset_rx (l : Lines) (s : Part) :
    (commandReset l s).rx = s.rx.map fun rx => (Receiver.initial rx.activity).seeLine := endReset_rx _ _

theorem commandReset_eachRx (law : ReceiverLaw P) (l : Lines) (s : Part) : EachRx P (commandReset l s) := fun x => by
  rw [commandReset_rx, PerRig.get_map]
  exact law.reset _

theorem openBoundary_eachRx (law : ReceiverLaw P) (l : Lines) (s : Part) (hs : EachRx P s) :
    EachRx P (openBoundary l s) := by
  have opened (u : Part) : Same [.clock, .gang, .store, .port, .program, .health, .tracker] u
      (promote (owedTurn (adoptTurn (countTurn u)))) :=
    ((((countTurn_same u).mono rfl).trans ((adoptTurn_same _).mono rfl)).trans ((owedTurn_same _).mono rfl)).trans
      ((promote_same _).mono rfl)
  unfold openBoundary
  dsimp only
  refine (opened _).eachRx rfl (eachRx_when ((endFrames_same s).eachRx rfl hs) fun _ => commandReset_eachRx law _ _)

theorem watchTurn_countersOnly (ord : Order) (b : PerRig Health) (s : Part) : CountersOnly s (watchTurn ord b s) := by
  have under (x : Rig) (u : Part) : CountersOnly u (underrunTurn x u) :=
    .when (((setRing_same _ _ _).countersOnly rfl).trans (setRx_countersOnly x _ _))
  exact (((under .A s).trans (under .B _)).trans ((watchRig_same _ _ _ _ _).countersOnly rfl)).trans
    ((watchRig_same _ _ _ _ _).countersOnly rfl)

/-- The receivers in the tracker's turn: those that the world's order takes out of LOCKED (R37). -/
theorem trackerTurn_rx (ord : Order) (s : Part) : ∃ t, (trackerTurn ord s).rx = (lossTurn ord { s with tracker := t }).rx := by
  have align (o n : Tracker) (c : Option Correction) (u : Part) : (raiseAlign o n c u).rx = u.rx :=
    (raiseAlign_same o n c u).get .rx rfl
  unfold trackerTurn
  dsimp only
  split
  · exact ⟨_, (align _ _ _ _).trans ((moveRing_same _ _ _).get .rx rfl)⟩
  · exact ⟨_, align _ _ _ _⟩

theorem trackerTurn_eachRx (law : ReceiverLaw P) (ord : Order) (s : Part) (hs : EachRx P s) :
    EachRx P (trackerTurn ord s) := by
  obtain ⟨t, ht⟩ := trackerTurn_rx ord s
  have lost : EachRx P (lossTurn ord { s with tracker := t }) := loseLock_eachRx law (loseLock_eachRx law hs)
  exact eachRx_of_rx ht lost

theorem boundary_eachRx (law : ReceiverLaw P) (l : Lines) (ord : Order) (s : Part) (hs : EachRx P s) :
    EachRx P (boundary l ord s) := by
  rw [boundary_eq]
  have opened := (framesBefore_same ord _).eachRx rfl (openBoundary_eachRx law l s hs)
  refine (framesAfter_same _ _).eachRx rfl ?_
  unfold boundaryTurns
  refine (gangTurn_same _).eachRx rfl ((switchTurn_same _ _ _).eachRx rfl (trackerTurn_eachRx law _ _ ?_))
  refine (watchTurn_countersOnly _ _ _).eachRx law ((clockTurn_same _).eachRx rfl ((matchTurn_same _).eachRx rfl ?_))
  exact (writesTurn_same _).eachRx rfl ((keyTurn_same _ _).eachRx rfl opened)

/-- Out of a held reset every command but the RESET line keeps a property of each receiver that meets the law. -/
theorem partAfter_eachRx (law : ReceiverLaw P) (c : Instr) (s : State) (hrun : s.inReset = false)
    (hc : c ≠ .lineResetAssert) (hs : EachRx P s.toPart) : EachRx P (partAfter c s) := by
  have running {f : Part → Part} (h : EachRx P (f s.toPart)) : EachRx P (unlessReset f s.toPart) := by
    rwa [unlessReset_of_running _ _ hrun]
  have inState {r : Rig} {st : RxState} {f : Part → Part} (h : (s.rx.get r).state = st → EachRx P (f s.toPart)) :
      EachRx P (unlessReset (whenRx r st f) s.toPart) := running (eachRx_when hs h)
  have message (r : Rig) (t code : Byte) (b : List Byte) : EachRx P (unlessReset (intake r (t :: code :: b)) s.toPart) :=
    running ((intake_countersOnly _ _ _).eachRx law hs)
  cases c with
  | lineResetAssert => exact absurd rfl hc
  | powerOnReset l =>
    intro x
    have e : partAfter (.powerOnReset l) s = endReset l _ := if_neg (by simp [hrun])
    have started : (resetBlocks s.toPart).rx.get x = Receiver.initial (s.rx.get x).activity := PerRig.get_map _ _ x
    rw [e, endReset_rx, PerRig.get_map, started]
    exact law.reset _
  | lineResetEnd l =>
    have e : partAfter (.lineResetEnd l) s = s.toPart := if_neg (by simp [hrun])
    rw [e]; exact hs
  | commandReset l => exact running (eachRx_when hs fun _ => commandReset_eachRx law _ _)
  | localFrameBoundary l ord => exact running (boundary_eachRx law _ _ _ hs)
  | lineActivityLost x =>
    have e : partAfter (.lineActivityLost x) s = activityLost x s.toPart := if_neg (by simp [hrun])
    rw [e]; exact activityLost_eachRx law hs
  | lineActivityPresent x =>
    have e : partAfter (.lineActivityPresent x) s =
        s.toPart.setRx x ({ s.rx.get x with activity := true } : Receiver).seeLine :=
      congrArg (s.toPart.setRx x) (if_neg (by simp [hrun]))
    rw [e]; exact eachRx_setRx hs (law.line _ (hs x))
  | syncWordFound x => exact inState fun h => eachRx_setRx hs (law.sync _ h (hs x))
  | verifyGoodFrame x f => exact inState fun h => verifyGood_eachRx law h hs
  | verifyFailed x => exact inState fun h => eachRx_setRx (handLoss_eachRx hs) (law.fall _ h (hs x))
  | goodFrame x f =>
    exact inState fun h => eachRx_when hs fun _ => takeGood_eachRx law (eachRx_setRx hs (law.good _ _ h (hs x)))
  | badCheckFrame x => exact inState fun _ => takeBad_eachRx law hs
  | missingSyncWord x =>
    refine inState fun h => eachRx_ite (fun _ => leaveLocked_eachRx law h hs) fun _ => ?_
    exact eachRx_setRx (takeBad_eachRx law hs) (law.missing _ (takeBad_eachRx law hs x))
  | sequenceGap x f => exact inState fun h => eachRx_when hs fun _ => takeGap_eachRx law h hs
  | resync x f => exact inState fun h => eachRx_when hs fun _ => takeResync_eachRx law h hs
  | readCounts r t b => exact message r t _ b
  | unknownCommand r t code b => exact message r t code b
  | _ => exact (partAfter_same _ s).eachRx rfl hs

end

end Sys2Proof.Machine
end


section
/-! The invariants of the family: fades, scores and history (R21, R42, R91), the receivers (R10, R11, R13, R19, R167), the
state after reset, and the rig that an event does not name (R11 to R20, R65). -/

namespace Sys2Proof.Machine

/-! ## The tracker's history (R42, R43) -/

/-- From `s` to `t` the history stands or has been emptied. -/
def HistoryCut (s t : Part) : Prop := t.tracker.history = s.tracker.history ∨ t.tracker.history = []

theorem HistoryCut.refl (s : Part) : HistoryCut s s := .inl rfl

theorem HistoryCut.trans {s t u : Part} (h : HistoryCut s t) (k : HistoryCut t u) : HistoryCut s u := by
  rcases k with k | k
  · rw [HistoryCut, k]; exact h
  · exact .inr k

theorem Same.historyCut {F : List Block} {s t : Part} (h : Same F s t) (hF : F.contains .tracker = false) :
    HistoryCut s t := by
  have e : t.tracker = s.tracker := h.get .tracker hF
  exact .inl (by rw [e])

theorem HistoryCut.ite {s a b : Part} {p : Prop} [Decidable p] (ha : p → HistoryCut s a) (hb : ¬p → HistoryCut s b) :
    HistoryCut s (if p then a else b) := by
  split
  case isTrue h => exact ha h
  case isFalse h => exact hb h

theorem HistoryCut.when {s a : Part} {p : Prop} [Decidable p] (h : HistoryCut s a) : HistoryCut s (if p then a else s) :=
  .ite (fun _ => h) (fun _ => .refl s)

theorem clearHistory_cut (s : Part) : HistoryCut s (clearHistory s) := .inr rfl

theorem flushRing_cut (r : Rig) (s : Part) : HistoryCut s (flushRing r s) := .inr rfl

theorem writeFrame_cut (r : Rig) (rep : Report) (s : Part) : HistoryCut s (writeFrame r rep s) := by
  unfold HistoryCut
  rw [writeFrame_tracker]
  split
  · exact .inr rfl
  · exact .inl rfl

theorem takeGood_cut (r : Rig) (f : ForwardFrame) (b : Bool) (s : Part) : HistoryCut s (takeGood r f b s) :=
  (((setRx_same _ _ _).historyCut rfl).trans (writeFrame_cut _ _ _)).trans ((handChunk_same _ _ _).historyCut rfl)

theorem takeBad_cut (r : Rig) (s : Part) : HistoryCut s (takeBad r s) := by
  have recorded : HistoryCut s ((handLoss r s).setRx r (s.rx.get r).takeBad) :=
    ((handLoss_same _ _).historyCut rfl).trans ((setRx_same _ _ _).historyCut rfl)
  unfold takeBad
  dsimp only
  split
  · exact recorded.trans (writeFrame_cut _ _ _)
  · exact recorded

theorem fillFrames_cut (r : Rig) (k : Nat) (s : Part) : HistoryCut s (fillFrames r k s) := by
  have one (u : Part) : HistoryCut u (fillFrame r u) := by
    unfold fillFrame
    dsimp only
    split
    · exact ((setRx_same _ _ _).historyCut rfl).trans (writeFrame_cut _ _ _)
    · exact (setRx_same _ _ _).historyCut rfl
  induction k generalizing s with
  | zero => exact .refl s
  | succ k ih => exact (one s).trans (ih _)

theorem takeGap_cut (r : Rig) (k : Nat) (f : ForwardFrame) (s : Part) : HistoryCut s (takeGap r k f s) :=
  (((handLoss_same _ _).historyCut rfl).trans (fillFrames_cut _ _ _)).trans (takeGood_cut _ _ _ _)

theorem takeResync_cut (r : Rig) (f : ForwardFrame) (s : Part) : HistoryCut s (takeResync r f s) :=
  ((((handLoss_same _ _).historyCut rfl).trans (flushRing_cut _ _)).trans ((setRx_same _ _ _).historyCut rfl)).trans
    (takeGood_cut _ _ _ _)

theorem verifyGood_cut (r : Rig) (f : ForwardFrame) (s : Part) : HistoryCut s (verifyGood r f s) :=
  HistoryCut.ite (fun _ => ((setRx_same _ _ _).historyCut rfl).trans (takeGood_cut _ _ _ _)) fun _ =>
    ((setRx_same _ _ _).historyCut rfl).trans ((handChunk_same _ _ _).historyCut rfl)

theorem leaveLocked_cut (r : Rig) (st : RxState) (s : Part) : HistoryCut s (leaveLocked r st s) := by
  unfold HistoryCut
  rw [leaveLocked_tracker]
  exact .inr rfl

theorem activityLost_cut (r : Rig) (s : Part) : HistoryCut s (activityLost r s) := by
  unfold activityLost
  dsimp only
  split
  · exact ((setRx_same _ _ _).historyCut rfl).trans (leaveLocked_cut _ _ _)
  · exact (((setRx_same _ _ _).historyCut rfl).trans ((handLoss_same _ _).historyCut rfl)).trans
      ((setRx_same _ _ _).historyCut rfl)
  all_goals exact ((setRx_same _ _ _).historyCut rfl).trans ((setRx_same _ _ _).historyCut rfl)

theorem lossTurn_cut (ord : Order) (s : Part) : HistoryCut s (lossTurn ord s) := by
  have lose (x : Rig) (loss : Option LockLoss) (u : Part) : HistoryCut u (loseLock x loss u) := by
    unfold loseLock
    split
    · exact .when (activityLost_cut _ _)
    · exact .when (leaveLocked_cut _ _ _)
    · exact .refl u
  exact (lose .A _ s).trans (lose .B _ _)

theorem writeSetup_cut (n : Setup) (s : Part) : HistoryCut s (writeSetup n s) := by
  have cleared : HistoryCut s (if s.tables.setup.tolerance ≠ n.tolerance ∨ s.tables.setup.reference ≠ n.reference then
      clearHistory (s.setTables { s.tables with setup := n }) else s.setTables { s.tables with setup := n }) :=
    .ite (fun _ => clearHistory_cut _) fun _ => (setTables_same _ _).historyCut rfl
  exact HistoryCut.ite (fun _ => cleared.trans ((withPanel_same _ _).historyCut rfl)) fun _ => cleared

theorem writeTables_cut (t : Tables) (s : Part) : HistoryCut s (writeTables t s) :=
  ((((writeGroups_same t.groups s).historyCut rfl).trans ((setTables_same _ _).historyCut rfl)).trans
    (((dropCauses_same _ _ _).trans (dropCauses_same _ _ _)).historyCut rfl)).trans (writeSetup_cut _ _)

theorem applyWrite_cut (w : PendingWrite) (s : Part) : HistoryCut s (applyWrite w s) := by
  obtain ⟨o, act⟩ := w
  cases act with
  | setup n => exact (writeSetup_cut _ _).trans ((respondOwner_same _ _ _).historyCut rfl)
  | defaults => exact (writeTables_cut _ _).trans ((respondOwner_same _ _ _).historyCut rfl)
  | load =>
    exact HistoryCut.ite (fun _ => ((withStore_same _ _).historyCut rfl).trans (writeTables_cut _ _)) fun _ =>
      (((withStore_same _ _).historyCut rfl).trans (writeTables_cut _ _)).trans ((raise_same _ _).historyCut rfl)
  | route first es => exact ((writeRoutes_same _ _ _).historyCut rfl).trans ((respondOwner_same _ _ _).historyCut rfl)
  | group g e => exact ((writeGroup_same _ _ _).historyCut rfl).trans ((respondOwner_same _ _ _).historyCut rfl)
  | watchCause x c e =>
    exact ((writeWatchCause_same _ _ _ _).historyCut rfl).trans ((respondOwner_same _ _ _).historyCut rfl)
  | watchSlots x l => exact ((writeWatchSlots_same _ _ _).historyCut rfl).trans ((respondOwner_same _ _ _).historyCut rfl)
  | setMode g mode => exact (applySetMode_same _ _ _ _).historyCut rfl
  | bypass e => exact (applyBypass_same _ _ _).historyCut rfl

theorem applyWrites_cut (l : List PendingWrite) (s : Part) : HistoryCut s (applyWrites l s) := by
  induction l generalizing s with
  | nil => exact (withWrites_same _ _).historyCut rfl
  | cons w l ih => exact .ite (fun _ => (withWrites_same _ _).historyCut rfl) fun _ => (applyWrite_cut w s).trans (ih _)

theorem applyTableWrites_cut (l : List PendingWrite) (s : Part) : HistoryCut s (applyTableWrites l s) := by
  induction l generalizing s with
  | nil => exact (withWrites_same _ _).historyCut rfl
  | cons w l ih => exact .ite (fun _ => (applyWrite_cut w s).trans (ih _)) fun _ => (withWrites_same _ _).historyCut rfl

theorem applyHead_cut (kind : WriteAct → Bool) (s : Part) : HistoryCut s (applyHead kind s) := by
  unfold applyHead
  split
  · exact .when (((withWrites_same _ _).historyCut rfl).trans (applyWrite_cut _ _))
  · exact .refl s

/-- R42: a measurement joins a history of at most five without making it longer. -/
theorem pushMeasure_length (h : List Int) (m : Int) (hh : h.length ≤ 5) : (pushMeasure h m).length ≤ 5 := by
  unfold pushMeasure
  split <;> simp <;> omega

theorem note_length (t : Tracker) (cls : OfferClass) (ya yb : Option Yield) (frame : Word) (h : t.history.length ≤ 5) :
    (t.note cls ya yb frame).history.length ≤ 5 := by
  have kept : (if cueChanged t.lastCue.a ya || cueChanged t.lastCue.b yb then [] else t.history).length ≤ 5 := by
    split
    · exact Nat.zero_le _
    · exact h
  cases cls with
  | noMeasure why => exact Nat.zero_le _
  | skipped => exact kept
  | valid m => exact pushMeasure_length _ _ kept

theorem derive_history (t : Tracker) (cls : OfferClass) (tol : Half) : (t.derive cls tol).history = t.history := by
  unfold Tracker.derive
  repeat' split
  all_goals rfl

theorem trackerTurn_length (ord : Order) (s : Part) (h : s.tracker.history.length ≤ 5) :
    (trackerTurn ord s).tracker.history.length ≤ 5 := by
  have align (o n : Tracker) (c : Option Correction) (u : Part) : (raiseAlign o n c u).tracker = u.tracker :=
    (raiseAlign_same o n c u).get .tracker rfl
  have lost (cls : OfferClass) (ya yb : Option Yield) (frame : Word) (tol : Half) :
      (lossTurn ord { s with tracker := (s.tracker.note cls ya yb frame).derive cls tol }).tracker.history.length ≤ 5 := by
    rcases lossTurn_cut ord { s with tracker := (s.tracker.note cls ya yb frame).derive cls tol } with e | e
    · rw [e, derive_history]; exact note_length _ _ _ _ _ h
    · rw [e]; exact Nat.zero_le _
  unfold trackerTurn
  dsimp only
  split
  · rw [align]; exact Nat.zero_le _
  · rw [align]; exact lost _ _ _ _ _

/-- The history of a part holds at most five measurements. -/
structure HistoryShort (s : Part) : Prop where
  short : s.tracker.history.length ≤ 5

theorem HistoryCut.historyShort {s t : Part} (h : HistoryCut s t) (hs : HistoryShort s) : HistoryShort t := by
  rcases h with h | h
  · exact ⟨by rw [h]; exact hs.short⟩
  · exact ⟨by rw [h]; exact Nat.zero_le _⟩

theorem Same.historyShort {F : List Block} {s t : Part} (h : Same F s t) (hF : F.contains .tracker = false)
    (hs : HistoryShort s) : HistoryShort t := (h.historyCut hF).historyShort hs

theorem historyShort_of_initial {t : Part} (h : t.tracker = Tracker.initial) : HistoryShort t :=
  ⟨by rw [h]; exact Nat.zero_le _⟩

theorem endReset_tracker (l : Lines) (s : Part) : (endReset l s).tracker = s.tracker :=
  (endReset_same l s).get .tracker rfl

theorem openBoundary_historyShort (l : Lines) (s : Part) (hs : HistoryShort s) : HistoryShort (openBoundary l s) := by
  have promoted (u : Part) (hu : HistoryShort u) : HistoryShort (promote u) := ⟨hu.short⟩
  have opened (u : Part) (hu : HistoryShort u) : HistoryShort (promote (owedTurn (adoptTurn (countTurn u)))) :=
    promoted _ <| (((((countTurn_same u).mono (G := [.clock, .gang, .store, .port, .program]) rfl).trans
      ((adoptTurn_same _).mono rfl)).trans ((owedTurn_same _).mono rfl))).historyShort rfl hu
  unfold openBoundary
  dsimp only
  refine opened _ ?_
  split
  · exact historyShort_of_initial (endReset_tracker _ _)
  · exact (endFrames_same s).historyShort rfl hs

theorem switchTurn_historyShort (l : Lines) (ord : Order) (s : Part) (hs : HistoryShort s) :
    HistoryShort (switchTurn l ord s) := by
  have published (u : Part) (hu : HistoryShort u) : HistoryShort (publishOnAir u) := ⟨hu.short⟩
  have requested : HistoryShort (requestTurn l ord s) := (requestTurn_same l ord s).historyShort rfl hs
  have strays : HistoryShort (startStrayMoves (requestTurn l ord s)) := (startStrayMoves_same _).historyShort rfl requested
  have taken := (takeoverTurn_same (startStrayMoves (requestTurn l ord s))).historyShort rfl strays
  have decided := (decideGroups_same (takenUpAt s) (takeoverTurn (startStrayMoves (requestTurn l ord s)))).historyShort rfl
    taken
  unfold switchTurn
  exact published _ ((settleArrivals_same _).historyShort rfl ((startPendingMoves_same _).historyShort rfl decided))

theorem boundaryTurns_historyShort (l : Lines) (ord : Order) (s : Part) (hs : HistoryShort s) :
    HistoryShort (boundaryTurns l ord s) := by
  have keyed : HistoryShort (keyTurn l.key s) := (keyTurn_same l.key s).historyShort rfl hs
  have written : HistoryShort (writesTurn (keyTurn l.key s)) := (applyWrites_cut _ _).historyShort keyed
  have matched := (matchTurn_same (writesTurn (keyTurn l.key s))).historyShort rfl written
  have clocked := (clockTurn_same (matchTurn (writesTurn (keyTurn l.key s)))).historyShort rfl matched
  have watched := (watchTurn_same ord s.health (clockTurn (matchTurn (writesTurn (keyTurn l.key s))))).historyShort rfl clocked
  have tracked : HistoryShort (trackerTurn ord _) := ⟨trackerTurn_length ord _ watched.short⟩
  exact (gangTurn_same _).historyShort rfl (switchTurn_historyShort l ord _ tracked)

theorem boundary_historyShort (l : Lines) (ord : Order) (s : Part) (hs : HistoryShort s) :
    HistoryShort (boundary l ord s) := by
  have opened : HistoryShort (openBoundary l s) := openBoundary_historyShort l s hs
  have begun : HistoryShort (framesBefore ord (openBoundary l s)) := (framesBefore_same ord _).historyShort rfl opened
  have turned := boundaryTurns_historyShort l ord _ begun
  rw [boundary_eq]
  exact (framesAfter_same ord _).historyShort rfl turned

/-- R42: every command keeps the history within five measurements. -/
theorem partAfter_historyShort (c : Instr) (s : State) (hs : HistoryShort s.toPart) : HistoryShort (partAfter c s) := by
  have running {f : Part → Part} (e : exec c s = onPart (unlessReset f) s)
      (h : HistoryShort s.toPart → HistoryShort (f s.toPart)) : HistoryShort (partAfter c s) := by
    rw [partAfter_of_unlessReset e, unlessReset]
    split
    · exact hs
    · exact h hs
  cases c with
  | powerOnReset l =>
    refine historyShort_of_initial (t := powerOn l s.toPart) ?_
    unfold powerOn
    dsimp only
    split
    · rfl
    · exact endReset_tracker _ _
  | lineResetAssert => exact running rfl fun _ => historyShort_of_initial rfl
  | commandReset l =>
    refine running rfl fun h => ?_
    split
    · exact historyShort_of_initial (endReset_tracker _ _)
    · exact h
  | localFrameBoundary l ord => exact running rfl (boundary_historyShort l ord _)
  | lineActivityLost x =>
    exact (HistoryCut.ite (fun _ => (setRx_same _ _ _).historyCut rfl) fun _ => activityLost_cut _ _).historyShort hs
  | verifyGoodFrame x f => exact running rfl (HistoryCut.when (verifyGood_cut _ _ _)).historyShort
  | goodFrame x f => exact running rfl (HistoryCut.when (HistoryCut.when (takeGood_cut _ _ _ _))).historyShort
  | badCheckFrame x => exact running rfl (HistoryCut.when (takeBad_cut _ _)).historyShort
  | missingSyncWord x =>
    refine running rfl (HistoryCut.when (HistoryCut.ite (fun _ => leaveLocked_cut _ _ _) fun _ => ?_)).historyShort
    exact (takeBad_cut _ _).trans ((setRx_same _ _ _).historyCut rfl)
  | sequenceGap x f => exact running rfl (HistoryCut.when (HistoryCut.when (takeGap_cut _ _ _ _))).historyShort
  | resync x f => exact running rfl (HistoryCut.when (HistoryCut.when (takeResync_cut _ _ _))).historyShort
  | writeTakesEffect =>
    exact running rfl ((applyTableWrites_cut _ _).trans ((settleWrites_same _ _).historyCut rfl)).historyShort
  | deferredLoad =>
    refine running rfl (HistoryCut.historyShort ?_)
    split
    · exact HistoryCut.when ((applyHead_cut _ _).trans ((settleWrites_same _ _).historyCut rfl))
    · exact HistoryCut.refl _
  | lineResetEnd l => exact (Same.when (endReset_same l s.toPart)).historyShort rfl hs
  | unknownCommand r t code b => exact running rfl ((intake_same _ _ _).historyShort rfl)
  | _ => exact (partAfter_same _ s).historyShort rfl hs

/-! ## Scores (R21) -/

theorem scoreUp_le (n : Nat) : scoreUp n ≤ 255 := Nat.min_le_right _ _

theorem seeLine_score (rx : Receiver) : rx.seeLine.score = rx.score := by
  unfold Receiver.seeLine
  split <;> rfl

theorem noLine_score (rx : Receiver) : rx.noLine.score = rx.score := by
  unfold Receiver.noLine
  split <;> rfl

/-- R21: each step of a receiver holds its score within 0..255. -/
theorem scoreLaw : ReceiverLaw fun rx => rx.score ≤ 255 where
  counters _ _ h := h
  good _ _ _ h := (Nat.sub_le _ _).trans h
  bad _ _ := scoreUp_le _
  missing _ h := h
  fill _ _ := scoreUp_le _
  resync _ _ _ := scoreUp_le _
  unlock _ _ h := h
  noLine _ h := by rwa [noLine_score]
  line _ h := by rwa [seeLine_score]
  sync _ _ h := h
  fall _ _ h := h
  count _ _ _ _ h := h
  lock _ _ _ _ h := (Nat.sub_le _ _).trans h
  reset _ := by rw [seeLine_score]; exact Nat.zero_le _

/-! ## A held reset (R167) -/

theorem powerOn_of_held (l : Lines) (s : Part) (h : s.inReset = true) :
    (powerOn l s).rx = s.rx.map (fun rx => Receiver.initial rx.activity) ∧ (powerOn l s).inReset = true := by
  unfold powerOn
  rw [if_pos h]
  exact ⟨rfl, h⟩

/-- In a held reset the receivers stand but for the conditions of their lines, a power-on reset and the end of the hold. -/
theorem held_rx (c : Instr) (s : State) (h : s.inReset = true) :
    ((∃ l, c = .lineResetEnd l) ∧ (partAfter c s).inReset = false ∧ ∀ x, (partAfter c s).rx.get x = (s.rx.get x).seeLine) ∨
      ((partAfter c s).inReset = true ∧ ∀ x, (∃ a, (partAfter c s).rx.get x = { s.rx.get x with activity := a }) ∨
        (partAfter c s).rx.get x = Receiver.initial (s.rx.get x).activity) := by
  have stands (t : Part) (hrx : t.rx = s.rx) (hr : t.inReset = s.inReset) : t.inReset = true ∧
      ∀ x, (∃ a, t.rx.get x = { s.rx.get x with activity := a }) ∨ t.rx.get x = Receiver.initial (s.rx.get x).activity :=
    ⟨hr.trans h, fun x => .inl ⟨(s.rx.get x).activity, by rw [hrx]⟩⟩
  have line (r : Rig) (a : Bool) (x : Rig) :
      ∃ b, (s.toPart.setRx r { s.rx.get r with activity := a }).rx.get x = { s.rx.get x with activity := b } := by
    rw [setRx_rx, PerRig.get_set]
    split
    next hx => exact ⟨a, by rw [hx]⟩
    next => exact ⟨(s.rx.get x).activity, rfl⟩
  cases c with
  | lineResetEnd l =>
    have e : partAfter (.lineResetEnd l) s = endReset l s.toPart := if_pos h
    refine .inl ⟨⟨l, rfl⟩, ?_, fun x => ?_⟩
    · rw [e]
      unfold endReset
      dsimp only
      split <;> rfl
    · rw [e, endReset_rx, PerRig.get_map]
  | powerOnReset l =>
    refine .inr ⟨(powerOn_of_held l s.toPart h).2, fun x => .inr ?_⟩
    have e : (partAfter (.powerOnReset l) s).rx = _ := (powerOn_of_held l s.toPart h).1
    rw [e, PerRig.get_map]
  | lineActivityLost r =>
    have e : partAfter (.lineActivityLost r) s = s.toPart.setRx r { s.rx.get r with activity := false } := if_pos h
    rw [e]
    exact .inr ⟨h, fun x => .inl (line r false x)⟩
  | lineActivityPresent r =>
    have e : partAfter (.lineActivityPresent r) s = s.toPart.setRx r { s.rx.get r with activity := true } :=
      congrArg (s.toPart.setRx r) (if_pos h)
    rw [e]
    exact .inr ⟨h, fun x => .inl (line r true x)⟩
  | refSignalLost => exact .inr (stands _ ((partAfter_same _ s).get .rx rfl) ((partAfter_same _ s).get .inReset rfl))
  | refSignalPresent => exact .inr (stands _ ((partAfter_same _ s).get .rx rfl) ((partAfter_same _ s).get .inReset rfl))
  | saveComplete v => exact .inr (stands _ ((partAfter_same _ s).get .rx rfl) ((partAfter_same _ s).get .inReset rfl))
  | _ => exact .inr (stands _ (by rw [partAfter_of_held _ s h rfl]) (by rw [partAfter_of_held _ s h rfl]))

/-- R167: the RESET line is asserted. -/
theorem lineResetAssert_rx (s : State) (h : s.inReset = false) (x : Rig) :
    (partAfter .lineResetAssert s).inReset = true ∧
      (partAfter .lineResetAssert s).rx.get x = Receiver.initial (s.rx.get x).activity := by
  have e : partAfter .lineResetAssert s = lineAssert s.toPart := unlessReset_of_running _ _ h
  rw [e]
  exact ⟨rfl, PerRig.get_map _ _ x⟩

/-- R21: every command keeps each score within 0..255. -/
theorem partAfter_scores (c : Instr) (s : State) (hs : EachRx (fun rx => rx.score ≤ 255) s.toPart) :
    EachRx (fun rx => rx.score ≤ 255) (partAfter c s) := by
  cases h : s.inReset
  case false =>
    by_cases hc : c = .lineResetAssert
    · subst hc
      intro x
      rw [(lineResetAssert_rx s h x).2]
      exact Nat.zero_le _
    · exact partAfter_eachRx scoreLaw c s h hc hs
  case true =>
    intro x
    rcases held_rx c s h with ⟨-, -, hx⟩ | ⟨-, hx⟩
    · rw [hx, seeLine_score]; exact hs x
    · rcases hx x with ⟨a, ha⟩ | ha <;> rw [ha]
      · exact hs x
      · exact Nat.zero_le _

/-- Settles O8: the fades by the fair turns of the groups, the scores by the receivers' steps, the history by the
measurements that join it. -/
theorem countsStayInRange : Obligations.CountsStayInRange := by
  refine ⟨fun s t hs hstep => ?_, fun s t hs hstep => ?_⟩
  · have kept := step_keeps (P := FadesWithin) partAfter_fadesWithin s t ⟨hs⟩ hstep
    exact kept.course
  · obtain ⟨hscore, hhistory⟩ := hs
    have short := step_keeps (P := HistoryShort) partAfter_historyShort s t ⟨hhistory⟩ hstep
    exact ⟨step_keeps (P := EachRx fun rx => rx.score ≤ 255) partAfter_scores s t hscore hstep, short.short⟩

/-! ## The states of the receivers (R10, R11, R13, R19, R167) -/

/-- What a receiver holds in each state, out of a held reset. -/
structure Receiver.Consistent (rx : Receiver) : Prop where
  line : rx.state = .noSignal ↔ rx.activity = false
  prev : rx.prev.isSome = true ↔ rx.state = .locked
  last : rx.state = .locked → rx.lastSeq.isSome = true

theorem Receiver.Consistent.seeLine {rx : Receiver} (hp : rx.prev = none) (hs : rx.state = .noSignal) :
    rx.seeLine.Consistent := by
  unfold Receiver.seeLine
  cases ha : rx.activity <;> simp only [hs, beq_self_eq_true, Bool.and_true, Bool.false_eq_true, if_false, if_true]
  · exact ⟨by simp [hs, ha], by simp [hp, hs], by simp [hs]⟩
  · exact ⟨by simp, by simp [hp], by simp⟩

theorem Receiver.Consistent.prev_none {rx : Receiver} (h : rx.Consistent) (hs : rx.state ≠ .locked) : rx.prev = none := by
  have := h.prev
  cases hp : rx.prev with
  | none => rfl
  | some p => simp [hp, hs] at this

theorem Receiver.Consistent.active {rx : Receiver} (h : rx.Consistent) (hs : rx.state ≠ .noSignal) : rx.activity = true := by
  have := h.line
  cases ha : rx.activity <;> simp_all

theorem Receiver.Consistent.noLine {rx : Receiver} (h : rx.Consistent) : rx.noLine.Consistent := by
  unfold Receiver.noLine
  split
  next => exact ⟨by simp [Receiver.unlocked], by simp [Receiver.unlocked], by simp [Receiver.unlocked]⟩
  all_goals next hs => exact ⟨by simp, by simp [h.prev_none (by simp [hs])], by simp⟩

theorem Receiver.Consistent.present {rx : Receiver} (h : rx.Consistent) :
    ({ rx with activity := true } : Receiver).seeLine.Consistent := by
  by_cases hs : rx.state = .noSignal
  · exact .seeLine (h.prev_none (by simp [hs])) hs
  · unfold Receiver.seeLine
    have he : ({ rx with activity := true } : Receiver) = rx := by rw [← h.active hs]
    rw [he]
    simp only [beq_iff_eq, hs, Bool.and_eq_true, and_false, if_false]
    exact h

/-- R11 to R19: each step of a receiver leaves it with what its state asks. -/
theorem consistentLaw : ReceiverLaw Receiver.Consistent where
  counters _ _ h := ⟨h.line, h.prev, h.last⟩
  good rx f hs h := ⟨h.line, by simp [Receiver.takeGood, hs], fun _ => rfl⟩
  bad rx h := ⟨h.line, by simpa [Receiver.takeBad] using h.prev, by simpa [Receiver.takeBad] using h.last⟩
  missing _ h := ⟨h.line, h.prev, h.last⟩
  fill rx h := ⟨h.line, by simpa [Receiver.fill] using h.prev, h.last⟩
  resync _ _ h := ⟨h.line, h.prev, h.last⟩
  unlock rx hs h := ⟨by simp [Receiver.unlocked, h.active (by simp [hs])], by simp [Receiver.unlocked],
    by simp [Receiver.unlocked]⟩
  noLine _ h := h.noLine
  line _ h := h.present
  sync rx hs h := ⟨by simp [h.active (by simp [hs])], by simp [h.prev_none (by simp [hs])], by simp⟩
  fall rx hs h := ⟨by simp [h.active (by simp [hs])], by simp [h.prev_none (by simp [hs])], by simp⟩
  count rx n seq hs h := ⟨h.line, h.prev, fun _ => rfl⟩
  lock rx n f hs h := ⟨by simp [Receiver.takeGood, Receiver.lock, h.active (by simp [hs])],
    by simp [Receiver.takeGood, Receiver.lock], fun _ => rfl⟩
  reset a := .seeLine rfl rfl

/-- The blocks that the turns of a boundary may change. -/
def turnBlocks : List Block := loadBlocks ++ lossBlocks ++ switchBlocks ++ [.lock, .writes]

theorem boundaryTurns_same (l : Lines) (ord : Order) (s : Part) : Same turnBlocks s (boundaryTurns l ord s) := by
  have keyed : Same turnBlocks s (writesTurn (keyTurn l.key s)) :=
    ((keyTurn_same _ s).mono rfl).trans ((writesTurn_same _).mono rfl)
  have clocked := keyed.trans (((matchTurn_same _).mono rfl).trans ((clockTurn_same _).mono rfl))
  have tracked := clocked.trans (((watchTurn_same ord s.health _).mono rfl).trans ((trackerTurn_same ord _).mono rfl))
  exact tracked.trans (((switchTurn_same l ord _).mono rfl).trans ((gangTurn_same _).mono rfl))

theorem endReset_inReset (l : Lines) (s : Part) : (endReset l s).inReset = false := by
  unfold endReset
  dsimp only
  split <;> rfl

theorem openBoundary_inReset (l : Lines) (s : Part) (h : s.inReset = false) : (openBoundary l s).inReset = false := by
  have opened (u : Part) : (promote (owedTurn (adoptTurn (countTurn u)))).inReset = u.inReset :=
    ((((promote_same _).get .inReset rfl).trans ((owedTurn_same _).get .inReset rfl)).trans
      ((adoptTurn_same _).get .inReset rfl)).trans ((countTurn_same u).get .inReset rfl)
  unfold openBoundary
  dsimp only
  rw [opened]
  split
  · exact endReset_inReset _ _
  · exact ((endFrames_same s).get .inReset rfl).trans h

/-- The commands that leave a part out of reset as it is in that: all but the RESET line. -/
theorem partAfter_running (c : Instr) (s : State) (h : s.inReset = false) (hc : c ≠ .lineResetAssert) :
    (partAfter c s).inReset = false := by
  have running {f : Part → Part} (e : exec c s = onPart (unlessReset f) s) (hf : (f s.toPart).inReset = false) :
      (partAfter c s).inReset = false := by
    rw [partAfter_of_unlessReset e, unlessReset_of_running _ _ h]
    exact hf
  cases c with
  | lineResetAssert => exact absurd rfl hc
  | powerOnReset l =>
    have e : partAfter (.powerOnReset l) s = endReset l _ := if_neg (by simp [h])
    rw [e]; exact endReset_inReset _ _
  | lineResetEnd l =>
    have e : partAfter (.lineResetEnd l) s = s.toPart := if_neg (by simp [h])
    rw [e]; exact h
  | commandReset l =>
    refine running rfl ?_
    split
    · exact endReset_inReset _ _
    · exact h
  | localFrameBoundary l ord =>
    refine running rfl ?_
    rw [boundary_eq]
    exact ((((framesAfter_same ord _).get .inReset rfl).trans ((boundaryTurns_same l ord _).get .inReset rfl)).trans
      ((framesBefore_same ord _).get .inReset rfl)).trans (openBoundary_inReset l s.toPart h)
  | unknownCommand r t code b => exact running rfl (((intake_same _ _ _).get .inReset rfl).trans h)
  | _ => exact ((partAfter_same _ s).get .inReset rfl).trans h

end Sys2Proof.Machine
end


section
/-! The receivers stay consistent (R10, R11, R13, R19, R167), and the state after reset meets the invariants. -/

namespace Sys2Proof.Machine

theorem receiversOk_of_running {s : Part} (hr : s.inReset = false) (h : EachRx Receiver.Consistent s) : receiversOk s :=
  ⟨fun held => absurd (hr.symm.trans held) Bool.false_ne_true,
    fun x => ⟨fun _ => (h x).line, (h x).prev, (h x).last⟩⟩

theorem eachRx_of_receiversOk {s : Part} (hr : s.inReset = false) (h : receiversOk s) : EachRx Receiver.Consistent s :=
  fun x => ⟨(h.2 x).1 hr, (h.2 x).2.1, (h.2 x).2.2⟩

/-- A receiver of a held reset: in NO_SIGNAL and with no previous frame. -/
structure Receiver.Held (rx : Receiver) : Prop where
  state : rx.state = .noSignal
  prev : rx.prev = none

theorem Receiver.held_initial (a : Bool) : (Receiver.initial a).Held := ⟨rfl, rfl⟩

theorem receiversOk_of_held {s : Part} (hr : s.inReset = true) (h : EachRx Receiver.Held s) : receiversOk s :=
  ⟨fun _ x => (h x).state,
    fun x => ⟨fun run => absurd (hr.symm.trans run).symm Bool.false_ne_true, by simp [(h x).state, (h x).prev],
      by simp [(h x).state]⟩⟩

theorem held_of_receiversOk {s : Part} (hr : s.inReset = true) (h : receiversOk s) : EachRx Receiver.Held s := by
  intro x
  obtain ⟨hstate, hall⟩ := h
  obtain ⟨-, hprev, -⟩ := hall x
  refine ⟨hstate hr x, Option.isNone_iff_eq_none.mp ?_⟩
  simpa [hstate hr x] using hprev

/-- R167: every command keeps the receivers consistent, in a held reset and out of it. -/
theorem partAfter_receiversOk (c : Instr) (s : State) (hs : receiversOk s.toPart) : receiversOk (partAfter c s) := by
  cases h : s.inReset
  case false =>
    by_cases hc : c = .lineResetAssert
    · subst hc
      have asserted := lineResetAssert_rx s h
      refine receiversOk_of_held (asserted .A).1 fun x => ?_
      rw [(asserted x).2]
      exact Receiver.held_initial _
    · exact receiversOk_of_running (partAfter_running c s h hc)
        (partAfter_eachRx consistentLaw c s h hc (eachRx_of_receiversOk h hs))
  case true =>
    have held := held_of_receiversOk h hs
    rcases held_rx c s h with ⟨-, hrun, hx⟩ | ⟨hreset, hx⟩
    · refine receiversOk_of_running hrun fun x => ?_
      rw [hx]
      exact .seeLine (held x).prev (held x).state
    · refine receiversOk_of_held hreset fun x => ?_
      rcases hx x with ⟨a, ha⟩ | ha <;> rw [ha]
      · exact ⟨(held x).state, (held x).prev⟩
      · exact Receiver.held_initial _

/-- Settles O9: each step of a receiver leaves it consistent, and a held reset leaves every receiver in NO_SIGNAL. -/
theorem receiversStayConsistent : Obligations.ReceiversStayConsistent := fun s t hs hstep =>
  step_keeps (P := receiversOk) partAfter_receiversOk s t hs hstep

/-! ## The state after reset -/

theorem reset_lockOk : lockOk State.reset.toPart := fun h => nomatch h

theorem reset_noticesOk : noticesOk State.reset.toPart := ⟨by intro r; cases r <;> exact Nat.zero_le _, Nat.zero_le _⟩

theorem reset_slotsOk : slotsOk State.reset.toPart := by
  intro r
  cases r <;> exact ⟨Nat.zero_le _, Nat.zero_le _⟩

theorem reset_idsOk : idsOk State.reset.toPart := by
  intro r
  cases r <;> exact ⟨List.nodup_nil, fun _ hh => nomatch hh⟩

theorem reset_ringsOk : ringsOk State.reset.toPart := by
  intro x
  cases x <;> exact ⟨Nat.zero_le _, Nat.zero_le _, Nat.zero_le _, fun _ hi => nomatch hi⟩

theorem reset_fadesOk : fadesOk State.reset.toPart := by
  intro g
  have e : (State.reset.groups.get g).course = .steady .dark := congrArg GroupRec.course (Tbl.get_fill _ g)
  rw [e]
  trivial

theorem reset_scoresOk : scoresOk State.reset.toPart := ⟨by intro x; cases x <;> exact Nat.zero_le _, Nat.zero_le _⟩

theorem reset_receiversOk : receiversOk State.reset.toPart := by
  refine receiversOk_of_running rfl fun x => ?_
  cases x <;> exact ⟨by decide, by decide, by decide⟩

/-- Settles O10. -/
theorem resetMeetsTheInvariants : Obligations.ResetMeetsTheInvariants :=
  ⟨reset_lockOk, reset_noticesOk, reset_slotsOk, reset_idsOk, reset_ringsOk, reset_fadesOk, reset_scoresOk,
    reset_receiversOk⟩

/-! ## The rig that an event does not name (R11 to R20, R65) -/

/-- From `s` to `t` the receiver, the ring and the health of the rig other than `r` stand. -/
structure OtherStands (r : Rig) (s t : Part) : Prop where
  rx : t.rx.get r.other = s.rx.get r.other
  ring : t.ring.get r.other = s.ring.get r.other
  health : t.health.get r.other = s.health.get r.other

theorem OtherStands.refl (r : Rig) (s : Part) : OtherStands r s s := ⟨rfl, rfl, rfl⟩

theorem OtherStands.trans {r : Rig} {s t u : Part} (h : OtherStands r s t) (k : OtherStands r t u) : OtherStands r s u :=
  ⟨k.rx.trans h.rx, k.ring.trans h.ring, k.health.trans h.health⟩

theorem OtherStands.ite {r : Rig} {s a b : Part} {p : Prop} [Decidable p] (ha : OtherStands r s a)
    (hb : OtherStands r s b) : OtherStands r s (if p then a else b) := by
  split
  · exact ha
  · exact hb

theorem OtherStands.when {r : Rig} {s a : Part} {p : Prop} [Decidable p] (h : OtherStands r s a) :
    OtherStands r s (if p then a else s) := .ite h (.refl r s)

theorem Same.otherStands {F : List Block} {s t : Part} (h : Same F s t) (hx : F.contains .rx = false)
    (hr : F.contains .ring = false) (hh : F.contains .health = false) (r : Rig) : OtherStands r s t := by
  have ex : t.rx = s.rx := h.get .rx hx
  have er : t.ring = s.ring := h.get .ring hr
  have eh : t.health = s.health := h.get .health hh
  exact ⟨by rw [ex], by rw [er], by rw [eh]⟩

section
variable (r : Rig) (s : Part)

theorem setRx_otherStands (rx : Receiver) : OtherStands r s (s.setRx r rx) := ⟨by simp [PerRig.get_set], rfl, rfl⟩

theorem setHealth_otherStands (h : Health) : OtherStands r s (s.setHealth r h) := ⟨rfl, rfl, by simp [PerRig.get_set]⟩

theorem handLoss_otherStands : OtherStands r s (handLoss r s) := (handLoss_same r s).otherStands rfl rfl rfl r

theorem flushRing_otherStands : OtherStands r s (flushRing r s) := ⟨rfl, by simp [flushRing, clearHistory, PerRig.get_set], rfl⟩

theorem writeFrame_otherStands (rep : Report) : OtherStands r s (writeFrame r rep s) where
  rx := by rw [writeFrame_rx]; split <;> simp [PerRig.get_set]
  ring := by rw [writeFrame_ring]; simp [PerRig.get_set]
  health := by rw [writeFrame_health]; simp [PerRig.get_set]

theorem leaveLocked_otherStands (st : RxState) : OtherStands r s (leaveLocked r st s) where
  rx := by rw [leaveLocked_rx]; simp [PerRig.get_set]
  ring := by rw [leaveLocked_ring]; simp [PerRig.get_set]
  health := by rw [leaveLocked_health]; simp [PerRig.get_set]

theorem activityLost_otherStands : OtherStands r s (activityLost r s) := by
  have noted := setRx_otherStands r s { s.rx.get r with activity := false }
  unfold activityLost
  dsimp only
  split
  · exact noted.trans (leaveLocked_otherStands _ _ _)
  · exact (noted.trans (handLoss_otherStands _ _)).trans (setRx_otherStands _ _ _)
  all_goals exact noted.trans (setRx_otherStands _ _ _)

theorem takeBad_otherStands : OtherStands r s (takeBad r s) := by
  have recorded := (handLoss_otherStands r s).trans (setRx_otherStands r _ (s.rx.get r).takeBad)
  unfold takeBad
  dsimp only
  split
  · exact recorded.trans (writeFrame_otherStands _ _ _)
  · exact recorded

theorem fillFrames_otherStands (k : Nat) : OtherStands r s (fillFrames r k s) := by
  have one (u : Part) : OtherStands r u (fillFrame r u) := by
    unfold fillFrame
    dsimp only
    split
    · exact (setRx_otherStands _ _ _).trans (writeFrame_otherStands _ _ _)
    · exact setRx_otherStands _ _ _
  induction k generalizing s with
  | zero => exact .refl r s
  | succ k ih => exact (one s).trans (ih _)

theorem verifyBad_otherStands : OtherStands r s (verifyBad r s) :=
  (handLoss_otherStands r s).trans (setRx_otherStands _ _ _)

theorem causeStep_otherStands (c : Cause) (src dst : CauseState) : OtherStands r s (causeStep r c src dst s) :=
  .when ((setHealth_otherStands r s _).trans ((raiseHealth_same _ _ _ _ _).otherStands rfl rfl rfl r))
end

/-- R126: from `s` to `t`, in which a chunk has been handed on, the other rig's ring, arrival reference and receiver state
stand; a message in the chunk can count and mark. -/
structure OtherRuns (r : Rig) (s t : Part) : Prop where
  ring : t.ring.get r.other = s.ring.get r.other
  arrival : (t.health.get r.other).arrival = (s.health.get r.other).arrival
  state : (t.rx.get r.other).state = (s.rx.get r.other).state

theorem OtherRuns.trans {r : Rig} {s t u : Part} (h : OtherRuns r s t) (k : OtherRuns r t u) : OtherRuns r s u :=
  ⟨k.ring.trans h.ring, k.arrival.trans h.arrival, k.state.trans h.state⟩

theorem OtherStands.runs {r : Rig} {s t : Part} (h : OtherStands r s t) : OtherRuns r s t :=
  ⟨h.ring, by rw [h.health], by rw [h.rx]⟩

theorem unlessReset_otherStands {r : Rig} {f : Part → Part} (s : Part) (h : OtherStands r s (f s)) :
    OtherStands r s (unlessReset f s) := .ite (.refl r s) h

theorem OtherRuns.when {r : Rig} {s a : Part} {p : Prop} [Decidable p] (h : OtherRuns r s a) :
    OtherRuns r s (if p then a else s) := by
  split
  · exact h
  · exact (OtherStands.refl r s).runs

theorem unlessReset_otherRuns {r : Rig} {f : Part → Part} (s : Part) (h : OtherRuns r s (f s)) :
    OtherRuns r s (unlessReset f s) := by
  unfold unlessReset
  split
  · exact (OtherStands.refl r s).runs
  · exact h

section
variable (r : Rig) (f : ForwardFrame) (s : Part)

theorem handChunk_otherRuns (c : List Byte) : OtherRuns r s (handChunk r c s) := by
  have ring : (handChunk r c s).ring = s.ring := (handChunk_same r c s).get .ring rfl
  have counted := handChunk_countersOnly r c s r.other
  exact ⟨by rw [ring], handChunk_arrivalsStand r c s r.other, by rw [counted]⟩

theorem takeGood_otherRuns (b : Bool) : OtherRuns r s (takeGood r f b s) :=
  ((setRx_otherStands r s _).trans (writeFrame_otherStands _ _ _)).runs.trans (handChunk_otherRuns _ _ _)

theorem takeGap_otherRuns (k : Nat) : OtherRuns r s (takeGap r k f s) :=
  ((handLoss_otherStands r s).trans (fillFrames_otherStands _ _ _)).runs.trans (takeGood_otherRuns _ _ _ _)

theorem takeResync_otherRuns : OtherRuns r s (takeResync r f s) :=
  (((handLoss_otherStands r s).trans (flushRing_otherStands _ _)).trans (setRx_otherStands _ _ _)).runs.trans
    (takeGood_otherRuns _ _ _ _)

theorem verifyGood_otherRuns : OtherRuns r s (verifyGood r f s) := by
  unfold verifyGood
  dsimp only
  split
  · exact (setRx_otherStands r s _).runs.trans (takeGood_otherRuns _ _ _ _)
  · exact (setRx_otherStands r s _).runs.trans (handChunk_otherRuns _ _ _)

theorem frameEvent_otherRuns (c : Instr)
    (hc : c = .verifyGoodFrame r f ∨ c = .goodFrame r f ∨ c = .sequenceGap r f ∨ c = .resync r f) (s : State) :
    OtherRuns r s.toPart (partAfter c s) := by
  rcases hc with rfl | rfl | rfl | rfl
  · exact unlessReset_otherRuns _ (.when (verifyGood_otherRuns _ _ _))
  · exact unlessReset_otherRuns _ (.when (.when (takeGood_otherRuns _ _ _ _)))
  · exact unlessReset_otherRuns _ (.when (.when (takeGap_otherRuns _ _ _ _)))
  · exact unlessReset_otherRuns _ (.when (.when (takeResync_otherRuns _ _ _)))
end

/-- The commands of receiver `x` and of its rig's health that begin no frame. -/
theorem rigEvent_otherStands (x : Rig) (c : Instr)
    (hc : c = .lineActivityLost x ∨ c = .lineActivityPresent x ∨ c = .syncWordFound x ∨ c = .verifyFailed x ∨
      c = .badCheckFrame x ∨ c = .missingSyncWord x ∨ c = .beatTimeout x ∨ c = .silenceTimeReached x ∨
      c = .jumpRunEnd x ∨ c = .slipWindowExpiry x ∨ (∃ k, c = .causeConfirmed x k ∨ c = .causeCleared x k)) (s : State) :
    OtherStands x s.toPart (partAfter c s) := by
  rcases hc with rfl | rfl | rfl | rfl | rfl | rfl | rfl | rfl | rfl | rfl | ⟨k, rfl | rfl⟩
  · exact .ite (setRx_otherStands _ _ _) (activityLost_otherStands _ _)
  · exact setRx_otherStands _ _ _
  · exact unlessReset_otherStands _ (.when (setRx_otherStands _ _ _))
  · exact unlessReset_otherStands _ (.when (verifyBad_otherStands _ _))
  · exact unlessReset_otherStands _ (.when (takeBad_otherStands _ _))
  · refine unlessReset_otherStands _ (.when (.ite (leaveLocked_otherStands _ _ _) ?_))
    exact (takeBad_otherStands _ _).trans (setRx_otherStands _ _ _)
  iterate 4 exact unlessReset_otherStands _ (.when (setHealth_otherStands _ _ _))
  iterate 2 exact unlessReset_otherStands _ (causeStep_otherStands _ _ _ _ _)

/-- Settles O3: the shared operations of the receivers change their own rig's blocks alone, and a chunk's message counts
and marks at most. -/
theorem theOtherRigStands : Obligations.TheOtherRigStands := by
  intro x s t
  refine ⟨fun c hc hnext => ?_, fun f c hc hnext => ?_⟩
  · have stands := rigEvent_otherStands x c hc s
    rw [← toPart_of_exec hnext] at stands
    exact ⟨stands.rx, stands.ring, stands.health⟩
  · have runs := frameEvent_otherRuns x f c hc s
    rw [← toPart_of_exec hnext] at runs
    exact ⟨runs.ring, runs.arrival, runs.state⟩

end Sys2Proof.Machine
end


section
/-! Power-on reset and line reset (R11, R109, R161, R163 to R168, R171). -/

namespace Sys2Proof.Machine

/-! ## The values of a reset -/

/-- Every block that a reset clears holds its initial value; a receiver can have seen its line. -/
structure BlocksReset (t : Part) : Prop where
  rx : ∀ x, ∃ a st, t.rx.get x = { Receiver.initial a with state := st }
  clock : ∃ b, t.clock = FrameClock.initial b
  ring : t.ring = PerRig.both Ring.initial
  tracker : t.tracker = Tracker.initial
  health : t.health = PerRig.both Health.initial
  writes : t.writes = []
  groups : t.groups = Tbl.fill GroupRec.initial
  takeover : t.takeover = Takeover.initial
  port : t.port = PerRig.both Port.initial
  program : t.program = Program.initial
  gang : ∃ role, t.gang = Gang.initial role
  requested : t.resetRequested = false
  count : t.lock.count = 0
  pulse : t.panel.pulse = 0

/-- R10, R22, R23, R25, R26, R28, R39, R54, R73, R86, R105, R110, R124, R170: the initial values are those of the rules. -/
theorem BlocksReset.values {t : Part} (h : BlocksReset t) : resetValues t := by
  obtain ⟨b, hclock⟩ := h.clock
  obtain ⟨role, hgang⟩ := h.gang
  refine ⟨fun x => ?_, ?_, fun x => ?_, ?_, fun x => ?_, h.writes, fun g => ?_, ?_, fun r => ?_, ?_, ?_, h.requested,
    h.count, h.pulse, ?_⟩
  · obtain ⟨a, st, hx⟩ := h.rx x
    rw [hx]
    exact ⟨rfl, rfl, rfl, rfl, rfl, rfl, rfl, rfl, rfl⟩
  · rw [hclock]
    exact ⟨rfl, rfl, rfl, rfl, rfl⟩
  · rw [h.ring, PerRig.get_both]
    exact ⟨rfl, rfl, rfl, rfl⟩
  · rw [h.tracker]
    exact ⟨rfl, rfl, rfl, rfl, rfl, rfl, rfl, rfl, rfl, rfl, rfl⟩
  · rw [h.health, PerRig.get_both]
    exact ⟨fun c => Tbl.get_fill _ c, rfl, rfl, rfl, rfl, rfl, rfl, rfl, rfl, rfl, rfl, rfl, rfl, rfl⟩
  · rw [h.groups, Tbl.get_fill]
    exact ⟨rfl, rfl, rfl, rfl, rfl, rfl, rfl⟩
  · rw [h.takeover]
    exact ⟨rfl, rfl⟩
  · rw [h.port, PerRig.get_both]
    exact ⟨rfl, rfl, rfl, rfl, rfl, rfl, rfl, rfl, rfl, rfl⟩
  · rw [h.program]
    exact ⟨rfl, rfl, rfl, rfl, rfl, rfl, rfl, rfl⟩
  · rw [hgang]
    refine ⟨rfl, rfl, rfl, rfl, rfl, rfl, fun ref => Tbl.get_fill _ ref, fun g => Tbl.get_fill _ g, fun ref => ?_, rfl,
      fun g => Tbl.get_fill _ g, rfl⟩
    simp only [Gang.initial, Tbl.get_fill, and_self]
  · rw [relay, h.takeover]
    rfl

theorem resetBlocks_blocksReset (s : Part) : BlocksReset (resetBlocks s) where
  rx x := ⟨(s.rx.get x).activity, .noSignal, PerRig.get_map _ _ x⟩
  clock := ⟨s.clock.refSignal, rfl⟩
  ring := rfl
  tracker := rfl
  health := rfl
  writes := rfl
  groups := rfl
  takeover := rfl
  port := rfl
  program := rfl
  gang := ⟨s.gang.role, rfl⟩
  requested := rfl
  count := rfl
  pulse := rfl

theorem resetBlocks_rx (s : Part) (x : Rig) : (resetBlocks s).rx.get x = Receiver.initial (s.rx.get x).activity :=
  PerRig.get_map _ _ x

theorem resetBlocks_activity (s : Part) (x : Rig) : ((resetBlocks s).rx.get x).activity = (s.rx.get x).activity := by
  rw [resetBlocks_rx]; rfl

theorem resetBlocks_state (s : Part) (x : Rig) : ((resetBlocks s).rx.get x).state = .noSignal := by
  rw [resetBlocks_rx]; rfl

/-! ## The end of a reset -/

section
variable (l : Lines) (s : Part)

theorem endReset_gang : (endReset l s).gang = Gang.initial (linesRole l) := by
  unfold endReset; dsimp only; split <;> rfl

theorem endReset_lock :
    (endReset l s).lock = { level := levelAfter s.lock.level l.key, key := l.key, count := 0 } := by
  unfold endReset; dsimp only; split <;> rfl

theorem endReset_panel :
    (endReset l s).panel = { s.panel with buttons := ⟨Button.initial l.btnA, Button.initial l.btnB⟩ } := by
  unfold endReset; dsimp only; split <;> rfl

theorem endReset_blocksReset (h : BlocksReset s) : BlocksReset (endReset l s) where
  rx x := by
    obtain ⟨a, st, hx⟩ := h.rx x
    rw [endReset_rx, PerRig.get_map, hx]
    unfold Receiver.seeLine
    split
    · exact ⟨a, .hunting, rfl⟩
    · exact ⟨a, st, rfl⟩
  clock := ((endReset_same l s).get .clock rfl).symm ▸ h.clock
  ring := ((endReset_same l s).get .ring rfl).trans h.ring
  tracker := ((endReset_same l s).get .tracker rfl).trans h.tracker
  health := ((endReset_same l s).get .health rfl).trans h.health
  writes := ((endReset_same l s).get .writes rfl).trans h.writes
  groups := ((endReset_same l s).get .groups rfl).trans h.groups
  takeover := ((endReset_same l s).get .takeover rfl).trans h.takeover
  port := ((endReset_same l s).get .port rfl).trans h.port
  program := ((endReset_same l s).get .program rfl).trans h.program
  gang := ⟨linesRole l, endReset_gang l s⟩
  requested := ((endReset_same l s).get .resetRequested rfl).trans h.requested
  count := by rw [endReset_lock]
  pulse := by rw [endReset_panel]; exact h.pulse

/-- R165: without a deferred load the tables are loaded as the reset ends. -/
theorem endReset_tablesLoaded (h : s.store.reload = false) : tablesLoaded (endReset l s) := by
  unfold endReset
  dsimp only
  rw [if_neg (by simp [h])]
  exact ⟨rfl, rfl, rfl⟩

theorem endReset_store (h : s.store.reload = false) :
    (endReset l s).store = { s.store with storeValid := s.store.valid, owesDefaults := !s.store.valid } := by
  unfold endReset
  dsimp only
  rw [if_neg (by simp [h])]
  rfl

theorem endReset_deferred (h : s.store.reload = true) :
    (endReset l s).tables = s.tables ∧ (endReset l s).store = s.store := by
  unfold endReset
  dsimp only
  rw [if_pos h]
  exact ⟨rfl, rfl⟩

theorem Receiver.seeLine_of_noSignal {rx : Receiver} (h : rx.state = .noSignal) :
    rx.seeLine.state = if rx.activity then .hunting else .noSignal := by
  unfold Receiver.seeLine
  cases ha : rx.activity <;> simp [h]

/-- R11, R109, R161, R171: what the end of a reset reads, where the receivers stand in NO_SIGNAL. -/
theorem endReset_linesRead (u : Part) (hact : ∀ x, (s.rx.get x).activity = (u.rx.get x).activity)
    (hstate : ∀ x, (s.rx.get x).state = .noSignal) : linesRead u (endReset l s) l := by
  refine ⟨fun x => ?_, ?_, ?_, ?_, ?_, endReset_inReset l s⟩
  · rw [endReset_rx, PerRig.get_map, Receiver.seeLine_of_noSignal (hstate x), hact]
  · rw [endReset_gang]
    rfl
  · rw [endReset_gang]
    cases h1 : l.roleS1 <;> cases h2 : l.roleS2 <;> simp [Gang.initial, linesRole, h1, h2]
  · rw [endReset_lock]
  · rw [endReset_panel]
    rfl
end

/-! ## Power-on and line reset -/

/-- The part of a power-on reset before the lines are read (R161, R163, R168). -/
def powerCleared (s : Part) : Part :=
  { resetBlocks s with
    store := s.store.atPowerOn
    lock := { level := .opened, key := false, count := 0 }
    panel := { (resetBlocks s).panel with bypass := false } }

theorem powerOn_of_running (l : Lines) (s : Part) (h : s.inReset = false) : powerOn l s = endReset l (powerCleared s) :=
  if_neg (by simp [h])

theorem powerOn_of_asserted (l : Lines) (s : Part) (h : s.inReset = true) : powerOn l s = powerCleared s := if_pos h

theorem powerCleared_blocksReset (s : Part) : BlocksReset (powerCleared s) :=
  { resetBlocks_blocksReset s with count := rfl }

/-- Settles O11: the blocks take their reset values, and then the lines are read unless the RESET line holds. -/
theorem powerOnReset : Obligations.PowerOnReset := by
  intro l s
  have cleared := powerCleared_blocksReset s.toPart
  refine ⟨fun h => ⟨s.withPart (powerOn l s.toPart), rfl, ?_⟩, fun h => ⟨s.withPart (powerOn l s.toPart), rfl, ?_⟩⟩
  · have linesAsRead := endReset_linesRead l (powerCleared s.toPart) s.toPart
      (resetBlocks_activity s.toPart) (resetBlocks_state s.toPart)
    have level := congrArg ShowLock.level (endReset_lock l (powerCleared s.toPart))
    have bypass := congrArg Panel.bypass (endReset_panel l (powerCleared s.toPart))
    have stored := endReset_store l (powerCleared s.toPart) rfl
    have e : (s.withPart (powerOn l s.toPart)).toPart = endReset l (powerCleared s.toPart) := powerOn_of_running l _ h
    rw [e, stored]
    exact ⟨(endReset_blocksReset l _ cleared).values, linesAsRead, endReset_tablesLoaded l _ rfl, level, bypass,
      rfl, rfl, rfl, rfl, rfl⟩
  · have e : (s.withPart (powerOn l s.toPart)).toPart = powerCleared s.toPart := powerOn_of_asserted l _ h
    rw [e]
    exact ⟨h, cleared.values, rfl, rfl, rfl, rfl⟩

theorem lineAssert_blocksReset (s : Part) : BlocksReset (lineAssert s) := { resetBlocks_blocksReset s with }

/-- R163, R166: a running save goes on with the load deferred, and any other store waits for nothing. -/
theorem Store.atReset_cases (st : Store) : st.atReset.image = st.image ∧ st.atReset.valid = st.valid ∧
    if st.save = .saving then
      st.atReset.save = .saving ∧ st.atReset.snapshot = st.snapshot ∧ st.atReset.reload = true
    else st.atReset.save = .none ∧ st.atReset.snapshot = none ∧ st.atReset.reload = false := by
  unfold Store.atReset
  split
  next h => exact ⟨rfl, rfl, h, rfl, rfl⟩
  next => exact ⟨rfl, rfl, rfl, rfl, rfl⟩

/-- Settles O12: the assertion clears the blocks and holds the receivers; the release reads the lines. -/
theorem lineReset : Obligations.LineReset := by
  refine ⟨fun s h => ?_, fun l s h hrx => ?_⟩
  · obtain ⟨image, valid, save⟩ := s.store.atReset_cases
    have e : exec .lineResetAssert s = .next (s.withPart (lineAssert s.toPart)) :=
      congrArg (fun p => Host.Outcome.next (s.withPart p)) (unlessReset_of_running lineAssert s.toPart h)
    exact ⟨_, e, rfl, (lineAssert_blocksReset s.toPart).values,
      fun x => ⟨resetBlocks_state s.toPart x, resetBlocks_activity s.toPart x⟩, rfl, rfl, rfl, image, valid, save⟩
  · have e : exec (.lineResetEnd l) s = .next (s.withPart (endReset l s.toPart)) :=
      congrArg (fun p => Host.Outcome.next (s.withPart p)) (if_pos h)
    refine ⟨_, e, endReset_inReset l _, endReset_linesRead l _ _ (fun _ => rfl) hrx,
      congrArg ShowLock.level (endReset_lock l s.toPart), congrArg ShowLock.count (endReset_lock l s.toPart), ?_⟩
    split
    next hr => exact endReset_deferred l _ hr
    next hr => exact endReset_tablesLoaded l _ (Bool.eq_false_iff.mpr hr)

end Sys2Proof.Machine
end


section
/-! The line of a receiver and its states (R11 to R13, R19). -/

namespace Sys2Proof.Machine

/-! ## Commands out of a held reset -/

@[simp] theorem State.toPart_withPart (s : State) (p : Part) : (s.withPart p).toPart = p := rfl

@[simp] theorem setRx_self (r : Rig) (s : Part) : s.setRx r (s.rx.get r) = s := by simp [Part.setRx]

theorem exec_of_running {c : Instr} {f : Part → Part} {s : State} (e : exec c s = onPart (unlessReset f) s)
    (h : s.inReset = false) : exec c s = .next (s.withPart (f s.toPart)) := by
  rw [e]
  exact congrArg (fun p => Host.Outcome.next (s.withPart p)) (unlessReset_of_running f s.toPart h)

/-- An event of a receiver, in the state that its rule names. -/
theorem exec_of_whenRx {c : Instr} {x : Rig} {st : RxState} {f : Part → Part} {s : State}
    (e : exec c s = onPart (unlessReset (whenRx x st f)) s) (h : s.inReset = false) (hst : (s.rx.get x).state = st) :
    exec c s = .next (s.withPart (f s.toPart)) := by
  rw [exec_of_running e h, whenRx, if_pos hst]

/-! ## The line (R11) -/

theorem exec_lineActivityPresent (x : Rig) (s : State) : exec (.lineActivityPresent x) s =
    .next (s.withPart (s.toPart.setRx x (if s.inReset then { s.rx.get x with activity := true }
      else ({ s.rx.get x with activity := true } : Receiver).seeLine))) := rfl

theorem exec_lineActivityLost (x : Rig) (s : State) (h : s.inReset = false) :
    exec (.lineActivityLost x) s = .next (s.withPart (activityLost x s.toPart)) :=
  congrArg (fun p => Host.Outcome.next (s.withPart p)) (if_neg (by simp [h]))

theorem exec_lineActivityLost_held (x : Rig) (s : State) (h : s.inReset = true) : exec (.lineActivityLost x) s =
    .next (s.withPart (s.toPart.setRx x { s.rx.get x with activity := false })) :=
  congrArg (fun p => Host.Outcome.next (s.withPart p)) (if_pos h)

section
variable (x : Rig) (s : Part)

theorem activityLost_of_idle (h : (s.rx.get x).state = .hunting ∨ (s.rx.get x).state = .noSignal) :
    activityLost x s = s.setRx x { s.rx.get x with activity := false, state := .noSignal } := by
  unfold activityLost
  rcases h with h | h <;> simp [h, Part.setRx]

theorem activityLost_of_verifying (h : (s.rx.get x).state = .verifying) :
    activityLost x s = (handLoss x (s.setRx x { s.rx.get x with activity := false })).setRx x
      { s.rx.get x with activity := false, state := .noSignal, verifyCount := 0 } := by
  unfold activityLost
  simp [h]

theorem activityLost_of_locked (h : (s.rx.get x).state = .locked) :
    activityLost x s = leaveLocked x .noSignal (s.setRx x { s.rx.get x with activity := false }) := by
  unfold activityLost
  simp [h]
end

/-- Settles O27: by the state of the receiver as the activity of its line changes. -/
theorem lineActivity : Obligations.LineActivity := by
  intro x s
  refine ⟨fun h hst => ?_, fun h hst => ?_, fun h hst => ?_, fun h => ⟨?_, exec_lineActivityLost_held x s h⟩⟩
  · rw [exec_lineActivityPresent, if_neg (by simp [h])]
    simp [Receiver.seeLine, hst, State.withPart, Part.setRx]
  · rw [exec_lineActivityLost x s h, activityLost_of_idle x _ hst]
    rfl
  · refine ⟨_, exec_lineActivityLost x s h, ?_, fun bytes hb => ?_⟩
    · have rx : (activityLost x s.toPart).rx = s.rx.set x (s.rx.get x).noLine := activityLost_rx x s.toPart
      simpa only [Receiver.noLine, hst, State.toPart_withPart] using rx
    · rw [activityLost_of_verifying x _ hst]
      exact handLoss_port_assembling x _ bytes hb
  · rw [exec_lineActivityPresent, if_pos h]
    rfl

/-! ## A lost lock (R19, R25 to R27, R34, R43, R55) -/

section
variable (x : Rig) (st : RxState) (s : Part)

theorem written_of_empty (r : Ring) (h : r.H = 0) (i : Word) : r.written i = false := by
  simp only [Ring.written, h, Bool.and_eq_false_iff, decide_eq_false_iff_not]
  omega

/-- R27: a raised notice leaves the messages of the ports. -/
theorem sourceLost_assembly (src : Source) (r : Rig) :
    ((sourceLost src s).port.get r).assembly = (s.port.get r).assembly ∧
      ((sourceLost src s).port.get r).refReason = (s.port.get r).refReason := by
  unfold sourceLost selectSource raise
  dsimp only
  split <;> simp [Port.push]

theorem leaveLocked_broken (bytes : List Byte) (h : (s.port.get x).assembly = .assembling bytes) :
    ((leaveLocked x st s).port.get x).assembly = .idle ∧ ((leaveLocked x st s).port.get x).refReason = .broken := by
  obtain ⟨hasm, hreason⟩ := sourceLost_assembly (handLoss x (unlockedPart x st s)) (rigSource x) x
  obtain ⟨idle, broken, -⟩ := handLoss_port_assembling x (unlockedPart x st s) bytes h
  rw [leaveLocked_eq]
  exact ⟨hasm.trans idle, hreason.trans broken⟩

theorem leaveLocked_clock : (leaveLocked x st s).clock = { s.clock with
    qual := s.clock.qual.set (rigSource x) 0
    selected := if s.clock.selected = rigSource x then
        bestSource s.tables.setup.reference (s.clock.qual.set (rigSource x) 0) else s.clock.selected } := by
  rw [leaveLocked_eq, sourceLost_clock _ _ (rigSource_ne_free x), handLoss_clock, handLoss_tables]
  rfl

/-- R27: the loss of a clock source that is not selected is quiet. -/
theorem leaveLocked_quiet (h : s.clock.selected ≠ rigSource x) : noNotice s (leaveLocked x st s) := by
  have hsel : (handLoss x (unlockedPart x st s)).clock.selected ≠ rigSource x := by rwa [handLoss_clock]
  obtain ⟨hport, hprogram⟩ := sourceLost_quiet (rigSource x) _ hsel
  have lane (q : Rig) : ((leaveLocked x st s).port.get q).lane = (s.port.get q).lane := by
    rw [leaveLocked_eq, hport, handLoss_lane]
    rfl
  refine ⟨congrArg Lane.notices (lane .A), congrArg Lane.notices (lane .B), ?_⟩
  rw [leaveLocked_eq, hprogram, handLoss_program]
  rfl

/-- R27: the loss of the selected source raises the CLOCK notice with the source now selected. -/
theorem leaveLocked_raised (h : s.clock.selected = rigSource x) :
    raised (leaveLocked x st s) (.clock (rigSource x) (leaveLocked x st s).clock.selected true) := by
  have hsel : (handLoss x (unlockedPart x st s)).clock.selected = rigSource x := by rwa [handLoss_clock]
  have hnew : (leaveLocked x st s).clock.selected =
      bestSource (handLoss x (unlockedPart x st s)).tables.setup.reference
        ((handLoss x (unlockedPart x st s)).clock.qual.set (rigSource x) 0) := by
    rw [leaveLocked_eq, sourceLost_selected _ _ hsel (rigSource_ne_free x)]
    rfl
  rw [hnew, leaveLocked_eq, sourceLost_selected _ _ hsel (rigSource_ne_free x), selectSource, ← hsel]
  exact raised_raise _ _
end

/-- R11, R16, R19: what ends a lock is a leave of LOCKED, of the receiver with the line as the event shows it. -/
theorem exec_of_lostLock (x : Rig) (s : State) (h : s.inReset = false) (hl : (s.rx.get x).state = .locked) (c : Instr)
    (st : RxState) (act : Bool) (hc : (c = .lineActivityLost x ∧ st = .noSignal ∧ act = false) ∨
      (c = .missingSyncWord x ∧ (s.rx.get x).missed = true ∧ st = .hunting ∧ act = (s.rx.get x).activity)) :
    exec c s = .next (s.withPart (leaveLocked x st (s.toPart.setRx x { s.rx.get x with activity := act }))) := by
  rcases hc with ⟨rfl, rfl, rfl⟩ | ⟨rfl, hm, rfl, rfl⟩
  · rw [exec_lineActivityLost x s h, activityLost_of_locked x _ hl]
  · rw [exec_of_whenRx rfl h hl, if_pos hm]
    exact congrArg (fun p => Host.Outcome.next (s.withPart (leaveLocked x .hunting p))) (setRx_self x s.toPart).symm

/-- Settles O28. -/
theorem lossOfLock : Obligations.LossOfLock := by
  intro x s h hl c st act hc
  have e := exec_of_lostLock x s h hl c st act hc
  have rx := leaveLocked_rx x st (s.toPart.setRx x { s.rx.get x with activity := act })
  have ring := leaveLocked_ring x st (s.toPart.setRx x { s.rx.get x with activity := act })
  have health := leaveLocked_health x st (s.toPart.setRx x { s.rx.get x with activity := act })
  have tracker := leaveLocked_tracker x st (s.toPart.setRx x { s.rx.get x with activity := act })
  have clock := leaveLocked_clock x st (s.toPart.setRx x { s.rx.get x with activity := act })
  have broken := leaveLocked_broken x st (s.toPart.setRx x { s.rx.get x with activity := act })
  refine ⟨_, e, ?_⟩
  rw [State.toPart_withPart, rx, health, tracker, ring, clock, PerRig.get_set_self, PerRig.get_set_self, PerRig.get_set_self,
    setRx_rx, PerRig.get_set_self]
  refine ⟨rfl, rfl, rfl, rfl, rfl, written_of_empty _ rfl, rfl, rfl, broken, Qual.get_set_rigSource _ x 0,
    fun hq => ⟨if_neg hq, leaveLocked_quiet x st _ hq⟩, fun hq => ⟨if_pos hq, ?_⟩⟩
  have notice := leaveLocked_raised x st (s.toPart.setRx x { s.rx.get x with activity := act }) hq
  rwa [clock] at notice

/-! ## HUNTING and VERIFYING (R12, R13) -/

/-- R12: a sync word begins at byte `n`. -/
abbrev SyncAt (l : List Byte) (n : Nat) : Prop := l[n]? = some 0xE7#8 ∧ l[n + 1]? = some 0x1D#8

theorem huntSync_cons (a b : Byte) (l : List Byte) :
    huntSync (a :: b :: l) = if SyncAt (a :: b :: l) 0 then some 0 else (huntSync (b :: l)).map (· + 1) := by
  simp [huntSync, SyncAt]

/-- R12: the search ends at the first place where a sync word begins. -/
theorem huntSync_eq_some_iff (l : List Byte) (n : Nat) :
    huntSync l = some n ↔ SyncAt l n ∧ ∀ m < n, ¬SyncAt l m := by
  induction l generalizing n with
  | nil => simp [huntSync, SyncAt]
  | cons a l ih =>
    cases l with
    | nil => simp [huntSync, SyncAt]
    | cons b l =>
      rw [huntSync_cons]
      split
      next h =>
        refine ⟨fun e => ?_, fun ⟨_, first⟩ => ?_⟩
        · obtain rfl : 0 = n := by simpa using e
          exact ⟨h, fun m hm => absurd hm (Nat.not_lt_zero m)⟩
        · rcases Nat.eq_zero_or_pos n with rfl | hn
          · rfl
          · exact absurd h (first 0 hn)
      next h =>
        cases n with
        | zero => simp [h]
        | succ n =>
          have shift : (huntSync (b :: l)).map (· + 1) = some (n + 1) ↔ huntSync (b :: l) = some n := by simp
          rw [shift, ih]
          refine and_congr Iff.rfl ⟨fun first m hm => ?_, fun first m hm => first (m + 1) (Nat.succ_lt_succ hm)⟩
          cases m with
          | zero => exact h
          | succ m => exact first m (Nat.lt_of_succ_lt_succ hm)

theorem handLoss_broken (x : Rig) (s : Part) (bytes : List Byte) (h : (s.port.get x).assembly = .assembling bytes) :
    ((handLoss x s).port.get x).assembly = .idle ∧ ((handLoss x s).port.get x).refReason = .broken := by
  obtain ⟨idle, broken, -⟩ := handLoss_port_assembling x s bytes h
  exact ⟨idle, broken⟩

/-- R13: a good frame that does not complete the count. -/
theorem verifyGood_of_counting (x : Rig) (f : ForwardFrame) (s : Part) (h : verifyNext (s.rx.get x) f < 3) :
    verifyGood x f s = handChunk x f.lane
      (s.setRx x { s.rx.get x with verifyCount := verifyNext (s.rx.get x) f, lastSeq := some f.seq }) :=
  if_neg (Nat.not_le.mpr h)

/-- Settles O29. -/
theorem verifying : Obligations.Verifying := by
  refine ⟨fun l n => (huntSync_eq_some_iff l n).trans and_assoc, fun x s h => ⟨fun hst => ?_, fun hst => ⟨⟨_, exec_of_whenRx rfl h hst, ?_, ?_, handLoss_broken x s.toPart⟩, ?_⟩⟩⟩
  · rw [exec_of_whenRx rfl h hst]
    rfl
  · rw [State.toPart_withPart, verifyBad, setRx_rx, handLoss_rx]
  · exact handLoss_ring x s.toPart
  · rintro f n hn rfl
    refine ⟨_, ?_, rfl⟩
    rw [exec_of_whenRx rfl h hst, verifyGood_of_counting x f s.toPart hn]
    rfl

end Sys2Proof.Machine
end


section
/-! The frames of a receiver in VERIFYING and LOCKED (R13 to R18, R20 to R22, R30, R33 to R35, R43, R55). -/

namespace Sys2Proof.Machine

/-! ## A ring takes a frame (R30, R35) -/

/-- R28: the record of a frame written at W. -/
def Ring.recordOf (r : Ring) (rep : Report) : RingFrame :=
  { start := r.W, stamp := rep.stamp, cue := rep.cue, transport := rep.transport, origin := rep.origin, audio := rep.audio }

section
variable (r : Ring) (rep : Report) (D : Half)

/-- R30: the ring after a frame that follows on, with a skip slip where the fill stands above 3048. -/
theorem take_plain (h : rep.relock = false) : (r.take rep D).1 = {
    W := r.W + 24#32
    R := if 3048 < r.fill then r.R + 24#32 else r.R
    V := r.V
    H := min (r.H + 24) 3072
    frames := r.recordOf rep :: r.frames.take 127 } := by
  unfold Ring.take Ring.place Ring.overrun
  by_cases ho : 3048 < r.fill <;> simp [ho, h, Ring.store, Ring.skip, Ring.recordOf]

/-- R35: a relock places the cursors by the fill target. -/
theorem take_relock (h : rep.relock = true) : (r.take rep D).1 = {
    W := r.W + 24#32
    R := r.W + 24#32 - D.setWidth 32
    V := r.W
    H := min (r.H + 24) 3072
    frames := r.recordOf rep :: r.frames.take 127 } := by
  unfold Ring.take Ring.place
  cases ho : r.overrun <;> simp [h, Ring.store, Ring.skip, Ring.recordOf]
end

section
variable (r : Rig) (rep : Report) (s : Part)

/-- R30: what a write leaves of the ring, for a frame that follows on. -/
theorem writeFrame_ring_plain (h : rep.relock = false) : (writeFrame r rep s).ring.get r = {
    W := (s.ring.get r).W + 24#32
    R := if 3048 < (s.ring.get r).fill then (s.ring.get r).R + 24#32 else (s.ring.get r).R
    V := (s.ring.get r).V
    H := min ((s.ring.get r).H + 24) 3072
    frames := (s.ring.get r).recordOf rep :: (s.ring.get r).frames.take 127 } := by
  rw [writeFrame_ring, PerRig.get_set_self, take_plain _ _ _ h]

/-- R35: what a write leaves of the ring, for a frame that relocks. -/
theorem writeFrame_ring_relock (h : rep.relock = true) : (writeFrame r rep s).ring.get r = {
    W := (s.ring.get r).W + 24#32
    R := (s.ring.get r).W + 24#32 - s.tables.setup.fill.setWidth 32
    V := (s.ring.get r).W
    H := min ((s.ring.get r).H + 24) 3072
    frames := (s.ring.get r).recordOf rep :: (s.ring.get r).frames.take 127 } := by
  rw [writeFrame_ring, PerRig.get_set_self, take_relock _ _ _ h]

/-- R33, R55: what a write leaves of the rig's health. -/
theorem writeFrame_health_self : (writeFrame r rep s).health.get r =
    (if 3048 < (s.ring.get r).fill then { s.health.get r with slipWindow := 2000 } else s.health.get r).arrive rep
      (s.tables.watch.get r) := by
  rw [writeFrame_health, PerRig.get_set_self]
  by_cases ho : 3048 < (s.ring.get r).fill <;> simp [skips, Ring.overrun, ho, Health.slipped]

theorem writeFrame_rx_plain : (writeFrame r rep s).rx.get r = { s.rx.get r with
    counters := { (s.rx.get r).counters with
      skipSlips := if 3048 < (s.ring.get r).fill then (s.rx.get r).counters.skipSlips + 1#32
        else (s.rx.get r).counters.skipSlips } } := by
  rw [writeFrame_rx_self]
  by_cases ho : 3048 < (s.ring.get r).fill <;> simp [skips, Ring.overrun, ho, Counters.addSkip]
end

/-! ## The Health Watch takes an arrival (R55) -/

section
variable (h : Health) (f : ForwardFrame) (relock : Bool) (w : WatchRig)

theorem arrive_real_arrival : (h.arrive (realReport f relock) w).arrival =
    some ⟨f.stamp, frameCue f, readTransport f.transport, 0⟩ := rfl

theorem arrive_real_slipWindow : (h.arrive (realReport f relock) w).slipWindow = h.slipWindow := by
  cases relock <;> rfl

/-- R59: a REAL arrival brings its beat; a new one begins the age anew. -/
theorem arrive_real_beat : (h.arrive (realReport f false) w).beat = some f.beat ∧
    (h.arrive (realReport f false) w).beatAge = if h.beat = some f.beat then h.beatAge else 0 := by
  by_cases hb : h.beat = some f.beat <;> simp [Health.arrive, realReport, newBeat, hb]

/-- R55: the first frame after a relock finds no reference. -/
theorem arrive_relock : (h.arrive (realReport f true) w).beat = some f.beat ∧
    (h.arrive (realReport f true) w).beatAge = 0 ∧ (h.arrive (realReport f true) w).jump = false ∧
    (h.arrive (realReport f true) w).stall = false := by
  by_cases ht : readTransport f.transport = .play <;>
    simp [Health.arrive, realReport, newBeat, Health.clearRefs, jumpAfter, stallAfter, ht]

/-- R55: a stand-in ages the reference and judges nothing. -/
theorem arrive_standIn (rep : Report) (hr : rep.relock = false) (ho : rep.origin ≠ .real) :
    h.arrive rep w = { h with arrival := h.arrival.map fun a => { a with count := min (a.count + 1) 65535 } } := by
  unfold Health.arrive
  rw [hr]
  cases hrep : rep.origin with
  | real => exact absurd hrep ho
  | concealed => rfl
  | filled => rfl
end

/-! ## A good frame (R14) -/

/-- R14: the part that a good frame leaves, before its chunk is handed on. -/
def goodPart (x : Rig) (f : ForwardFrame) (relock : Bool) (s : Part) : Part :=
  writeFrame x (realReport f relock) (s.setRx x ((s.rx.get x).takeGood f))

theorem takeGood_goodPart (x : Rig) (f : ForwardFrame) (relock : Bool) (s : Part) :
    takeGood x f relock s = handChunk x f.lane (goodPart x f relock s) := rfl

section
variable (x : Rig) (f : ForwardFrame) (relock : Bool) (s : Part)

theorem goodPart_rx : (goodPart x f relock s).rx.get x = { s.rx.get x with
    missed := false
    lastSeq := some f.seq
    prev := some ⟨.real, f.stamp, frameCue f, readTransport f.transport, some f.audio⟩
    selfFault := f.flags.getLsbD 0
    returnPause := f.flags.getLsbD 1
    score := (s.rx.get x).score - 1
    counters := { (s.rx.get x).counters with
      good := (s.rx.get x).counters.good + 1#32
      skipSlips := if 3048 < (s.ring.get x).fill then (s.rx.get x).counters.skipSlips + 1#32
        else (s.rx.get x).counters.skipSlips } } := by
  rw [goodPart, writeFrame_rx_plain, setRx_rx, PerRig.get_set_self]
  rfl

@[simp] theorem goodPart_port : (goodPart x f relock s).port = s.port := writeFrame_port _ _ _
@[simp] theorem goodPart_clock : (goodPart x f relock s).clock = s.clock := writeFrame_clock _ _ _

theorem goodPart_tracker : (goodPart x f relock s).tracker =
    if relock then { s.tracker with history := [] } else s.tracker := writeFrame_tracker _ _ _

theorem goodPart_health : (goodPart x f relock s).health.get x =
    (if 3048 < (s.ring.get x).fill then { s.health.get x with slipWindow := 2000 } else s.health.get x).arrive
      (realReport f relock) (s.tables.watch.get x) := writeFrame_health_self _ _ _

theorem goodPart_ring : (goodPart x f false s).ring.get x = {
    W := (s.ring.get x).W + 24#32
    R := if 3048 < (s.ring.get x).fill then (s.ring.get x).R + 24#32 else (s.ring.get x).R
    V := (s.ring.get x).V
    H := min ((s.ring.get x).H + 24) 3072
    frames := ⟨(s.ring.get x).W, f.stamp, frameCue f, readTransport f.transport, .real, f.audio⟩ ::
      (s.ring.get x).frames.take 127 } := writeFrame_ring_plain _ _ _ rfl

theorem goodPart_ring_relock : (goodPart x f true s).ring.get x = {
    W := (s.ring.get x).W + 24#32
    R := (s.ring.get x).W + 24#32 - s.tables.setup.fill.setWidth 32
    V := (s.ring.get x).W
    H := min ((s.ring.get x).H + 24) 3072
    frames := ⟨(s.ring.get x).W, f.stamp, frameCue f, readTransport f.transport, .real, f.audio⟩ ::
      (s.ring.get x).frames.take 127 } := writeFrame_ring_relock _ _ _ rfl
end

/-- R17: a frame of the next sequence shows no gap. -/
theorem gapOf_next (rx : Receiver) (f : ForwardFrame) (h : rx.lastSeq.map (fun k => k + 1#16) = some f.seq) :
    gapOf rx f = 0 := by
  unfold gapOf
  cases hl : rx.lastSeq with
  | none => rfl
  | some k =>
    rw [hl] at h
    have hk : k + 1#16 = f.seq := Option.some.inj h
    simp [seqGap, ← hk]

/-- Settles O31. -/
theorem goodFrame : Obligations.GoodFrame := by
  intro x f s h hl hseq
  refine ⟨goodPart x f false s.toPart, ?_, goodPart_rx _ _ _ _, goodPart_ring _ _ _, goodPart_health _ _ _ _, ?_, ?_, ?_,
    ?_, goodPart_port _ _ _ _, goodPart_tracker _ _ _ _, goodPart_clock _ _ _ _⟩
  · rw [exec_of_whenRx rfl h hl, if_pos (gapOf_next _ _ hseq), takeGood_goodPart]
  all_goals rw [goodPart_health]
  · rw [arrive_real_slipWindow]
    split <;> rfl
  · exact arrive_real_arrival _ _ _ _
  · exact (arrive_real_beat _ _ _).1
  · rw [(arrive_real_beat _ _ _).2]
    by_cases hf : 3048 < (s.ring.get x).fill <;> simp [hf]

/-! ## The third good frame (R13) -/

/-- R13: the frame that completes the count is the first good frame of LOCKED. -/
theorem verifyGood_of_third (x : Rig) (f : ForwardFrame) (s : Part) (h2 : (s.rx.get x).verifyCount = 2)
    (hseq : (s.rx.get x).lastSeq.map (fun k => k + 1#16) = some f.seq) :
    verifyGood x f s = handChunk x f.lane (goodPart x f true (s.setRx x
      ({ s.rx.get x with verifyCount := 3, lastSeq := some f.seq } : Receiver).lock)) := by
  have hn : verifyNext (s.rx.get x) f = 3 := by simp [verifyNext, hseq, h2]
  unfold verifyGood
  dsimp only
  rw [hn]
  rfl

/-- Settles O30. -/
theorem receiverLocks : Obligations.ReceiverLocks := by
  intro x f s h hst h2 hseq
  refine ⟨_, (exec_of_whenRx rfl h hst).trans (congrArg (fun p => Host.Outcome.next (s.withPart p))
    (verifyGood_of_third x f s.toPart h2 hseq)), ?_⟩
  rw [goodPart_rx, goodPart_ring_relock, goodPart_health, goodPart_tracker, goodPart_port, goodPart_clock, setRx_rx,
    PerRig.get_set_self]
  obtain ⟨beat, age, jump, stall⟩ := arrive_relock (if 3048 < (s.ring.get x).fill then
    { s.health.get x with slipWindow := 2000 } else s.health.get x) f (s.tables.watch.get x)
  refine ⟨rfl, rfl, rfl, rfl, rfl, ?_, ?_, rfl, rfl, rfl, rfl, arrive_real_arrival _ _ _ _, beat, age, jump, stall, rfl, rfl⟩
  · simp only [Receiver.lock]
    split <;> rfl
  · simp only [Receiver.lock]
    split <;> rfl

/-! ## A bad check and a missing sync word (R15, R16, R21) -/

/-- R15: the records of a stand-in after `p`. -/
def standInReport (p : PrevFrame) (origin : Origin) (audio : Audio) : Report :=
  { origin, stamp := p.stamp + 24#32, cue := p.cue, transport := p.transport, audio, relock := false, beat := none }

theorem writeStandIn_eq (r : Rig) (p : PrevFrame) (origin : Origin) (audio : Audio) (s : Part) :
    writeStandIn r p origin audio s = writeFrame r (standInReport p origin audio) s := rfl

/-- R15: after a REAL frame its audio once more, then silence. -/
theorem standInOf_eq (p : PrevFrame) (origin : Origin) (audio : Audio)
    (h : (p.origin = .real ∧ p.audio = some audio ∧ origin = .concealed) ∨
      (p.origin ≠ .real ∧ audio = silentAudio ∧ origin = .filled)) : standInOf p = (origin, audio) := by
  unfold standInOf
  rcases h with ⟨hr, ha, rfl⟩ | ⟨hr, rfl, rfl⟩
  · rw [hr, ha]
    rfl
  · cases hp : p.origin with
    | real => exact absurd hp hr
    | concealed => rfl
    | filled => rfl

/-- R15, R22: only the stand-in after a REAL frame counts as concealed. -/
theorem takeBad_counters (rx : Receiver) (p : PrevFrame) (h : rx.prev = some p) : rx.takeBad.counters = { rx.counters with
    bad := rx.counters.bad + 1#32
    concealed := if p.origin = .real then rx.counters.concealed + 1#32 else rx.counters.concealed } := by
  obtain ⟨origin, stamp, cue, transport, audio⟩ := p
  unfold Receiver.takeBad
  rw [h]
  cases origin <;> rfl

theorem standIn_origin_ne_real (p : PrevFrame) : (standInOf p).1 ≠ .real := by
  unfold standInOf
  cases p.origin <;> simp

/-- R16: the mark that a bad frame leaves, false for a bad check and true for the first missing sync word. -/
theorem exec_of_badFrame (x : Rig) (s : State) (h : s.inReset = false) (hl : (s.rx.get x).state = .locked) (c : Instr)
    (mark : Bool) (p : PrevFrame) (hp : (s.rx.get x).prev = some p)
    (hc : (c = .badCheckFrame x ∧ mark = false) ∨
      (c = .missingSyncWord x ∧ (s.rx.get x).missed = false ∧ mark = true)) :
    exec c s = .next (s.withPart ((takeBad x s.toPart).setRx x { (takeBad x s.toPart).rx.get x with missed := mark })) := by
  rcases hc with ⟨rfl, rfl⟩ | ⟨rfl, hm, rfl⟩
  · have unmarked : ((takeBad x s.toPart).rx.get x).missed = false := by
      rw [takeBad_eq x s.toPart p hp, writeStandIn_eq, writeFrame_rx_plain, setRx_rx, PerRig.get_set_self]
      rfl
    have e : ({ (takeBad x s.toPart).rx.get x with missed := false } : Receiver) = (takeBad x s.toPart).rx.get x := by
      rw [← unmarked]
    rw [exec_of_whenRx rfl h hl, e, setRx_self]
  · rw [exec_of_whenRx rfl h hl, if_neg (by simp [hm])]

/-- Settles O32. -/
theorem badCheckFrame : Obligations.BadCheckFrame := by
  intro x s last p origin audio h hl hlast hp horigin c mark hc
  refine ⟨_, exec_of_badFrame x s h hl c mark p hp hc, ?_⟩
  have hstand := standInOf_eq p origin audio horigin
  have counters := takeBad_counters _ p hp
  have hreal : (standInReport p origin audio).origin ≠ .real := by
    have := standIn_origin_ne_real p
    rwa [hstand] at this
  have e : takeBad x s.toPart = writeFrame x (standInReport p origin audio)
      ((handLoss x s.toPart).setRx x (s.rx.get x).takeBad) := by
    rw [takeBad_eq x s.toPart p hp, hstand, writeStandIn_eq]
  rw [e, State.toPart_withPart, setRx_rx, PerRig.get_set_self, setRx_ring, setRx_health, setRx_port, writeFrame_rx_plain,
    writeFrame_ring_plain _ _ _ rfl, writeFrame_health_self, writeFrame_port, setRx_rx, PerRig.get_set_self,
    arrive_standIn _ _ _ rfl hreal, counters, setRx_ring, setRx_health, handLoss_ring, handLoss_health]
  refine ⟨hl, rfl, ?_, ?_, rfl, rfl, rfl, rfl, rfl, rfl, rfl, rfl, ?_, ?_, ?_, ?_, handLoss_broken x s.toPart⟩
  · simp [Receiver.takeBad, hlast]
  · simp [Receiver.takeBad, hp, hstand, PrevFrame.next]
  all_goals split <;> rfl

end Sys2Proof.Machine
end


section
/-! Frames that show a gap (R17, R18, R21, R22, R34, R35). -/

namespace Sys2Proof.Machine

/-! ## Filled frames (R17) -/

/-- R17: the record of the `i`-th filled frame after the previous frame `p`, of a ring that stood at `w`. -/
def filledRecord (w : Word) (p : PrevFrame) (i : Nat) : RingFrame :=
  ⟨w + BitVec.ofNat 32 (24 * i), p.stamp + BitVec.ofNat 32 (24 * (i + 1)), p.cue, p.transport, .filled, silentAudio⟩

/-- R17: the record after one filled frame is that of the next. -/
theorem filledRecord_next (w : Word) (p : PrevFrame) (i : Nat) :
    filledRecord (w + 24#32) (p.next .filled) i = filledRecord w p (i + 1) := by
  unfold filledRecord PrevFrame.next
  have start : w + 24#32 + BitVec.ofNat 32 (24 * i) = w + BitVec.ofNat 32 (24 * (i + 1)) := by
    rw [BitVec.add_assoc, ← BitVec.ofNat_add]
    congr 2; omega
  have stamp : p.stamp + 24#32 + BitVec.ofNat 32 (24 * (i + 1)) = p.stamp + BitVec.ofNat 32 (24 * (i + 1 + 1)) := by
    rw [BitVec.add_assoc, ← BitVec.ofNat_add]
    congr 2; omega
  rw [start, stamp]

/-- What `k` filled frames make of rig `x`, whose previous frame was `p` (R17, R21, R22, R28). -/
structure Filled (x : Rig) (k : Nat) (p : PrevFrame) (s t : Part) : Prop where
  state : (t.rx.get x).state = (s.rx.get x).state
  score : (t.rx.get x).score = scoreUp^[k] (s.rx.get x).score
  lost : (t.rx.get x).counters.lost = (s.rx.get x).counters.lost + BitVec.ofNat 32 k
  good : (t.rx.get x).counters.good = (s.rx.get x).counters.good
  concealed : (t.rx.get x).counters.concealed = (s.rx.get x).counters.concealed
  W : (t.ring.get x).W = (s.ring.get x).W + BitVec.ofNat 32 (24 * k)
  filled : k ≤ 127 → ∀ i < k, (t.ring.get x).frames[k - 1 - i]? = some (filledRecord (s.ring.get x).W p i)
  older : ∀ j, j + k ≤ 127 → (t.ring.get x).frames[j + k]? = (s.ring.get x).frames[j]?

theorem Filled.none (x : Rig) (p : PrevFrame) (s : Part) : Filled x 0 p s s where
  state := rfl
  score := rfl
  lost := by simp
  good := rfl
  concealed := rfl
  W := by simp
  filled _ _ hi := absurd hi (Nat.not_lt_zero _)
  older _ _ := rfl

/-- R17: one filled frame, then `k` more. -/
theorem Filled.succ {x : Rig} {k : Nat} {p : PrevFrame} {s u t : Part} (one : Filled x 1 p s u)
    (rest : Filled x k (p.next .filled) u t) : Filled x (k + 1) p s t where
  state := rest.state.trans one.state
  score := by rw [rest.score, one.score]; rfl
  lost := by rw [rest.lost, one.lost, BitVec.add_assoc, ← BitVec.ofNat_add, Nat.add_comm 1 k]
  good := rest.good.trans one.good
  concealed := rest.concealed.trans one.concealed
  W := by
    rw [rest.W, one.W, BitVec.add_assoc, ← BitVec.ofNat_add]
    congr 2; omega
  filled hk i hi := by
    cases i with
    | zero =>
      have h := rest.older 0 (by omega)
      rw [Nat.zero_add] at h
      simpa [h] using one.filled (by omega) 0 (by omega)
    | succ i =>
      have h := rest.filled (by omega) i (by omega)
      rw [one.W, filledRecord_next] at h
      rw [← h]
      congr 1; omega
  older j hj := by
    have h := rest.older (j + 1) (by omega)
    rw [one.older j (by omega)] at h
    rw [← h]
    congr 1; omega

/-- R17, R30: one filled frame. -/
theorem fillFrame_filled (x : Rig) (p : PrevFrame) (s : Part) (hp : (s.rx.get x).prev = some p) :
    Filled x 1 p s (fillFrame x s) ∧ ((fillFrame x s).rx.get x).prev = some (p.next .filled) := by
  have ring : (fillFrame x s).ring.get x = _ :=
    (congrArg (fun u : Part => u.ring.get x) ((fillFrame_eq x s p hp).trans (writeStandIn_eq _ _ _ _ _))).trans
      (writeFrame_ring_plain _ _ _ rfl)
  have rx : (fillFrame x s).rx.get x = _ :=
    (congrArg (fun u : Part => u.rx.get x) ((fillFrame_eq x s p hp).trans (writeStandIn_eq _ _ _ _ _))).trans
      (writeFrame_rx_plain _ _ _)
  rw [setRx_rx, PerRig.get_set_self] at rx
  refine ⟨⟨by rw [rx]; rfl, by rw [rx]; rfl, by rw [rx]; rfl, by rw [rx]; rfl, by rw [rx]; rfl, by rw [ring]; rfl,
    fun _ i hi => ?_, fun j hj => ?_⟩, by rw [rx, Receiver.fill, hp]; rfl⟩
  · obtain rfl : i = 0 := by omega
    rw [ring]
    simp [filledRecord, Ring.recordOf, standInReport]
  · rw [ring, List.getElem?_cons_succ, List.getElem?_take_of_lt (by omega)]
    rfl

theorem fillFrames_filled (x : Rig) (k : Nat) (p : PrevFrame) (s : Part) (hp : (s.rx.get x).prev = some p) :
    Filled x k p s (fillFrames x k s) := by
  induction k generalizing p s with
  | zero => exact .none x p s
  | succ k ih =>
    obtain ⟨one, hprev⟩ := fillFrame_filled x p s hp
    exact one.succ (ih _ _ hprev)

/-- R21: eight for each of `k` lost frames, within the bound. -/
theorem scoreUp_iterate (n k : Nat) (hk : 1 ≤ k) : scoreUp^[k] n = min (n + 8 * k) 255 := by
  induction k, hk using Nat.le_induction generalizing n with
  | base => rfl
  | succ k _ ih => rw [Function.iterate_succ_apply, ih, scoreUp]; omega

/-! ## The frame that shows the gap (R17, R18) -/

theorem gapOf_eq (rx : Receiver) (f : ForwardFrame) (last : Half) (h : rx.lastSeq = some last) :
    gapOf rx f = (f.seq - last - 1#16).toNat := by
  unfold gapOf
  rw [h]
  rfl

/-- R18: what a resync leaves before the frame is taken. -/
def resyncPart (x : Rig) (s : Part) : Part :=
  (flushRing x (handLoss x s)).setRx x
    { s.rx.get x with score := scoreUp (s.rx.get x).score, counters := (s.rx.get x).counters.addResync }

theorem takeResync_eq (x : Rig) (f : ForwardFrame) (s : Part) :
    takeResync x f s = handChunk x f.lane (goodPart x f true (resyncPart x s)) := by
  have rx : (flushRing x (handLoss x s)).rx = s.rx := ((flushRing_same _ _).get .rx rfl).trans (handLoss_rx x s)
  unfold takeResync resyncPart
  dsimp only
  rw [rx, takeGood_goodPart]

theorem resyncPart_ring (x : Rig) (s : Part) : (resyncPart x s).ring.get x = (s.ring.get x).flush := by
  have e : (resyncPart x s).ring = (handLoss x s).ring.set x ((handLoss x s).ring.get x).flush := rfl
  rw [e, PerRig.get_set_self, handLoss_ring]

/-- Settles O33: a gap of 1 to 8 by the filled frames one after another, a greater one by the flush. -/
theorem sequenceGapAndResync : Obligations.SequenceGapAndResync := by
  intro x f s last p k h hl hlast hp hk
  have gap : gapOf (s.rx.get x) f = k := (gapOf_eq _ f last hlast).trans hk.symm
  refine ⟨fun hk1 hk8 => ⟨goodPart x f false (fillFrames x k (handLoss x s.toPart)), ?_, ?_⟩,
    fun hk9 => ⟨goodPart x f true (resyncPart x s.toPart), ?_, ?_⟩⟩
  · rw [exec_of_whenRx rfl h hl]
    dsimp only
    rw [gap, if_pos ⟨hk1, hk8⟩]
    rfl
  · have filled := fillFrames_filled x k p (handLoss x s.toPart) (by rwa [handLoss_rx])
    have score := scoreUp_iterate (s.rx.get x).score k hk1
    have records := filled.filled (by omega)
    have port : (fillFrames x k (handLoss x s.toPart)).port = (handLoss x s.toPart).port :=
      (fillFrames_same x k _).get .port rfl
    rw [goodPart_rx, goodPart_ring, goodPart_port, port, filled.state, filled.score, filled.lost, filled.good,
      filled.concealed, filled.W, handLoss_rx, handLoss_ring, score]
    rw [handLoss_ring] at records
    refine ⟨hl, rfl, rfl, rfl, rfl, rfl, ?_, fun i hi => ?_, rfl, handLoss_broken x s.toPart⟩
    · rw [BitVec.add_assoc, ← BitVec.ofNat_add]
      congr 2
    · obtain ⟨j, hj⟩ : ∃ j, k - i = j + 1 := ⟨k - 1 - i, by omega⟩
      rw [hj, List.getElem?_cons_succ, List.getElem?_take_of_lt (by omega), (by omega : j = k - 1 - i), records i hi]
      rfl
  · rw [exec_of_whenRx rfl h hl]
    rw [gap, if_pos hk9, takeResync_eq]
  · have tables : (resyncPart x s.toPart).tables = s.tables := handLoss_tables x s.toPart
    have port : (resyncPart x s.toPart).port = (handLoss x s.toPart).port := rfl
    have rx : (resyncPart x s.toPart).rx.get x = { s.rx.get x with
        score := scoreUp (s.rx.get x).score, counters := (s.rx.get x).counters.addResync } := PerRig.get_set_self _ _ _
    rw [goodPart_rx, goodPart_ring_relock, goodPart_port, goodPart_tracker, resyncPart_ring, tables, port, rx]
    exact ⟨hl, rfl, rfl, rfl, rfl, rfl, rfl, rfl, rfl, rfl, rfl, handLoss_broken x s.toPart⟩

end Sys2Proof.Machine
end


section
/-! The assembly of messages from chunks (R5, R125, R126). -/

namespace Sys2Proof.Machine

theorem byte_eq_iff (b : Byte) (n : Nat) (h : n < 256) : b = BitVec.ofNat 8 n ↔ b.toNat = n := by
  rw [← BitVec.toNat_inj, BitVec.toNat_ofNat, Nat.mod_eq_of_lt h]

/-- R125: the kind of an item, by its type and its payload length as numbers. -/
theorem chunkKind_eq (c : List Byte) (k : Nat) (hk : (byteAt c 0).toNat = k) : chunkKind c =
    if k = 0 then .empty else if k = 5 then .cancel else if 5 < k ∨ 30 < (byteAt c 1).toNat then .malformed
    else if k = 1 then .first else if k = 2 then .middle else if k = 3 then .last else .only := by
  subst hk
  unfold chunkKind
  simp only [byte_eq_iff _ 0 (by decide), byte_eq_iff _ 5 (by decide), byte_eq_iff _ 1 (by decide),
    byte_eq_iff _ 2 (by decide), byte_eq_iff _ 3 (by decide)]

section
variable (x : Rig) (c : List Byte) (s : Part)

theorem refuseGathered_of_assembling (why : RefuseReason) (bytes : List Byte)
    (h : (s.port.get x).assembly = .assembling bytes) :
    refuseGathered x why s = refuseMessage x (bytes.headD 0xFF#8) why s := by
  simp [refuseGathered, h, refusedTag]

theorem refuseGathered_of_not_assembling (why : RefuseReason)
    (h : (s.port.get x).assembly = .idle ∨ (s.port.get x).assembly = .skipping) : refuseGathered x why s = s := by
  rcases h with h | h <;> simp [refuseGathered, h]

theorem handChunk_empty (h : chunkKind c = .empty) : handChunk x c s = s := by simp [handChunk, h]

theorem handChunk_cancel (h : chunkKind c = .cancel) : handChunk x c s = setAssembly x .idle s := by
  simp [handChunk, h]

theorem handChunk_first (h : chunkKind c = .first) :
    handChunk x c s = setAssembly x (.assembling (chunkPayload c)) (refuseGathered x .broken s) := by
  simp [handChunk, h]

theorem handChunk_only (h : chunkKind c = .only) :
    handChunk x c s = intake x (chunkPayload c) (setAssembly x .idle (refuseGathered x .broken s)) := by
  simp [handChunk, h]

/-- R125: a malformed item is a loss, and an orphan message where none is gathered. -/
theorem handChunk_malformed (h : chunkKind c = .malformed) :
    ((s.port.get x).assembly = .idle → handChunk x c s = refuseMessage x 0xFF#8 .broken s) ∧
      (∀ bytes, (s.port.get x).assembly = .assembling bytes →
        handChunk x c s = setAssembly x .idle (refuseMessage x (bytes.headD 0xFF#8) .broken s)) ∧
      ((s.port.get x).assembly = .skipping → handChunk x c s = setAssembly x .idle s) := by
  refine ⟨fun ha => ?_, fun bytes ha => ?_, fun ha => ?_⟩
  · simp [handChunk, h, ha]
  · rw [← refuseGathered_of_assembling x s .broken bytes ha]
    simp [handChunk, h, ha]
  · simp [handChunk, h, ha]

/-- R125: a MIDDLE or a LAST is an orphan where no message is gathered. -/
theorem handChunk_orphan (h : chunkKind c = .middle ∨ chunkKind c = .last) (ha : (s.port.get x).assembly = .idle) :
    handChunk x c s = refuseMessage x 0xFF#8 .orphan s := by
  rcases h with h | h <;> simp [handChunk, h, ha]

/-- R125: a MIDDLE joins the message, which is refused beyond 240 bytes. -/
theorem handChunk_middle (h : chunkKind c = .middle) (bytes : List Byte)
    (ha : (s.port.get x).assembly = .assembling bytes) : handChunk x c s =
      if 240 < (bytes ++ chunkPayload c).length then
        setAssembly x .skipping (refuseMessage x (bytes.headD 0xFF#8) .tooLong s)
      else setAssembly x (.assembling (bytes ++ chunkPayload c)) s := by
  rw [← refuseGathered_of_assembling x s .tooLong bytes ha]
  simp only [handChunk, h, ha]

/-- R125: a LAST completes the message, which is refused beyond 240 bytes. -/
theorem handChunk_last (h : chunkKind c = .last) (bytes : List Byte)
    (ha : (s.port.get x).assembly = .assembling bytes) : handChunk x c s =
      if 240 < (bytes ++ chunkPayload c).length then
        setAssembly x .idle (refuseMessage x (bytes.headD 0xFF#8) .tooLong s)
      else intake x (bytes ++ chunkPayload c) (setAssembly x .idle s) := by
  rw [← refuseGathered_of_assembling x s .tooLong bytes ha]
  simp only [handChunk, h, ha]

/-- R125: while the rest of a refused message is skipped, a MIDDLE is passed over and a LAST ends it. -/
theorem handChunk_skipping (ha : (s.port.get x).assembly = .skipping) :
    (chunkKind c = .middle → handChunk x c s = s) ∧ (chunkKind c = .last → handChunk x c s = setAssembly x .idle s) :=
  ⟨fun h => by simp [handChunk, h, ha], fun h => by simp [handChunk, h, ha]⟩
end

/-- Settles O35, by the kind of the item and the assembly it meets. -/
theorem assembly : Obligations.Assembly := by
  intro x c s bytes pay k hk hpay
  have kind := chunkKind_eq c k hk
  have payload : chunkPayload c = pay := hpay.symm
  refine ⟨?_, ?_, fun hbad => ?_, fun h1 h4 h30 => ?_, handLoss_assembling x s bytes, handLoss_of_not_assembling x s⟩
  · rintro rfl
    exact handChunk_empty x c s kind
  · rintro rfl
    exact handChunk_cancel x c s kind
  · have malformed : chunkKind c = .malformed := by
      rw [kind, if_neg (by omega), if_neg (by omega), if_pos (by omega)]
    obtain ⟨idle, assembling, skipping⟩ := handChunk_malformed x c s malformed
    exact ⟨idle, assembling bytes, skipping⟩
  · rw [if_neg (by omega), if_neg (by omega), if_neg (by omega)] at kind
    have first (h : k = 1) := handChunk_first x c s (by subst h; simpa using kind)
    have middle (h : k = 2) : chunkKind c = .middle := by subst h; simpa using kind
    have last (h : k = 3) : chunkKind c = .last := by subst h; simpa using kind
    have only (h : k = 4) := handChunk_only x c s (by subst h; simpa using kind)
    rw [payload] at first only
    refine ⟨fun ha => ⟨fun h => ?_, fun h => ?_, fun h => ?_⟩,
      fun ha => ⟨fun h => ?_, fun h hn => ?_, fun h hn => ?_, fun h hn => ?_, fun h hn => ?_, fun h => ?_⟩,
      fun ha => ⟨fun h => ?_, fun h => ?_, fun h => ?_, fun h => ?_⟩⟩
    · rw [first h, refuseGathered_of_not_assembling x s _ (.inl ha)]
    · exact handChunk_orphan x c s (h.imp middle last) ha
    · rw [only h, refuseGathered_of_not_assembling x s _ (.inl ha)]
    · rw [first h, refuseGathered_of_assembling x s _ bytes ha]
    · rw [handChunk_middle x c s (middle h) bytes ha, payload, if_neg (Nat.not_lt.mpr hn)]
    · rw [handChunk_middle x c s (middle h) bytes ha, payload, if_pos hn]
    · rw [handChunk_last x c s (last h) bytes ha, payload, if_neg (Nat.not_lt.mpr hn)]
    · rw [handChunk_last x c s (last h) bytes ha, payload, if_pos hn]
    · rw [only h, refuseGathered_of_assembling x s _ bytes ha]
    · rw [first h, refuseGathered_of_not_assembling x s _ (.inr ha)]
    · exact (handChunk_skipping x c s ha).1 (middle h)
    · exact (handChunk_skipping x c s ha).2 (last h)
    · rw [only h, refuseGathered_of_not_assembling x s _ (.inr ha)]

end Sys2Proof.Machine
end


section
/-! The eight reads (R22, R71, R131, R139 to R145). -/

namespace Sys2Proof.Machine

/-- R127, R139: a command that no check refuses is performed on the part in which it holds its slot. -/
theorem exec_performed (c : Code) (cmd : Command) (r : Rig) (tag n : Byte) (params : List Byte) (s : State)
    (h : canTake s.toPart r tag) (hn : n.toNat = params.length) (hl : c.lengthOk params = true)
    (ht : c.takenAt s.lock.level = true) (hw : c.waitsForStore = false) (hc : readCommand c params none = .ok cmd) :
    exec (rowOf c r tag (n :: params)) s = .next (s.withPart
      (perform r s.nextId cmd (occupy r false (tag :: c.byte :: n :: params) s.toPart))) := by
  rw [exec_rowOf, takeMessage_eq s r tag c.byte (n :: params) h (List.cons_ne_nil _ _),
    judge_passes (occupy r false (tag :: c.byte :: n :: params) s.toPart) r s.nextId tag n c params cmd hn hl ht (by rw [hw]; rfl) hc]

/-- R131: a command whose whole effect is its response. -/
theorem exec_answered (c : Code) (cmd : Command) (r : Rig) (tag n : Byte) (params results : List Byte) (s : State)
    (h : canTake s.toPart r tag) (hn : n.toNat = params.length) (hl : c.lengthOk params = true)
    (ht : c.takenAt s.lock.level = true) (hw : c.waitsForStore = false) (hc : readCommand c params none = .ok cmd)
    (hp : perform r s.nextId cmd (occupy r false (tag :: c.byte :: n :: params) s.toPart) =
      respond r s.nextId .ok 0 results (occupy r false (tag :: c.byte :: n :: params) s.toPart)) :
    exec (rowOf c r tag (n :: params)) s = .next (s.withPart (answeredAs s.toPart r tag c.byte .ok 0 results)) := by
  obtain ⟨-, -, -, hid⟩ := id h
  rw [exec_performed c cmd r tag n params s h hn hl ht hw hc, hp, respond_taken s.toPart r tag c.byte _ _ _ _ hid rfl rfl]

@[simp] theorem readRig_rigCode (x : Rig) : readRig (BitVec.ofNat 8 (rigCode x)) = some x := by cases x <;> rfl

/-- R144: a span within a table of `limit` entries. -/
theorem readSpan_inside (first count : Byte) (limit : Nat) (hf : first.toNat < limit) (hc : 1 ≤ count.toNat)
    (h : first.toNat + count.toNat ≤ limit) : readSpan [first, count] limit = .ok (first.toNat, count.toNat) := by
  have in1 : decide (first.toNat < limit) = true := decide_eq_true hf
  have in2 : (decide (1 ≤ count.toNat) && decide (count.toNat ≤ limit)) = true := by
    rw [Bool.and_eq_true, decide_eq_true_eq, decide_eq_true_eq]; omega
  have in3 : decide (first.toNat + count.toNat ≤ limit) = true := decide_eq_true h
  have e0 : byteAt [first, count] 0 = first := rfl
  have e1 : byteAt [first, count] 1 = count := rfl
  unfold readSpan
  dsimp only
  rw [e0, e1, in1, in2, in3]
  rfl

section
variable (r x : Rig) (tag : Byte) (s : State) (h : canTake s.toPart r tag)
include h

theorem exec_readHealth (mask : Byte) : exec (.readHealth r tag [2#8, BitVec.ofNat 8 (rigCode x), mask]) s =
    .next (s.withPart (clearSticky x mask (answeredAs s.toPart r tag 0x03#8 .ok 0 (healthBytes s.toPart x)))) := by
  obtain ⟨-, -, -, hid⟩ := id h
  have e := exec_performed .readHealth (.readHealth x mask) r tag 2#8 [BitVec.ofNat 8 (rigCode x), mask] s h rfl rfl rfl rfl
    (by simp [readCommand, byteAt, field])
  have answered := respond_taken s.toPart r tag 0x03#8 (tag :: 0x03#8 :: 2#8 :: [BitVec.ofNat 8 (rigCode x), mask]) .ok 0
    (healthBytes s.toPart x) hid rfl rfl
  exact e.trans (congrArg (fun p => Host.Outcome.next (s.withPart (clearSticky x mask p))) answered)

theorem exec_readCounts (clear : Bool) :
    exec (.readCounts r tag [2#8, BitVec.ofNat 8 (rigCode x), if clear then 1#8 else 0#8]) s =
      .next (s.withPart (if clear then clearCounts x (answeredAs s.toPart r tag 0x04#8 .ok 0 (countBytes s.toPart x))
        else answeredAs s.toPart r tag 0x04#8 .ok 0 (countBytes s.toPart x))) := by
  obtain ⟨-, -, -, hid⟩ := id h
  have e := exec_performed .readCounts (.readCounts x clear) r tag 2#8
    [BitVec.ofNat 8 (rigCode x), if clear then 1#8 else 0#8] s h rfl rfl rfl rfl
    (by cases clear <;> simp [readCommand, byteAt, field, readBit] <;> rfl)
  have answered := respond_taken s.toPart r tag 0x04#8
    (tag :: 0x04#8 :: 2#8 :: [BitVec.ofNat 8 (rigCode x), if clear then 1#8 else 0#8]) .ok 0 (countBytes s.toPart x) hid rfl rfl
  exact e.trans (congrArg (fun p => Host.Outcome.next (s.withPart (if clear then clearCounts x p else p))) answered)
end

/-- R71: an empty clear mask clears nothing. -/
theorem clearSticky_zero (x : Rig) (s : Part) : clearSticky x 0#8 s = s := by
  have e : ({ s.health.get x with sticky := (s.health.get x).sticky &&& ~~~0#8 } : Health) = s.health.get x := by
    rw [BitVec.not_zero, BitVec.and_allOnes]
  rw [clearSticky, e, Part.setHealth, PerRig.set_get]

theorem answeredAs_last (s : Part) (r : Rig) (tag code : Byte) (st : Status) (i : Nat) (results : List Byte) :
    ((answeredAs s r tag code st i results).port.get r).responses.getLast? =
      some ⟨s.nextId, tag, code, st, i, results⟩ := by
  simp [answeredAs, Part.setPort]

/-- R141: the revision letter is an ASCII capital. -/
theorem revision_capital : 0x41 ≤ Config.revision.toNat ∧ Config.revision.toNat ≤ 0x5A := by
  have := Config.revisionIndex.isLt
  rw [Config.revision, BitVec.toNat_ofNat]
  omega

/-- Settles O38. -/
theorem reads : Obligations.Reads := by
  intro r x tag first count mask s h
  have counts := exec_readCounts r x tag s h
  have health := exec_readHealth r x tag s h
  refine ⟨exec_answered .identify .identify r tag 0#8 [] _ s h rfl rfl rfl rfl rfl rfl, rfl, revision_capital.1,
    revision_capital.2,
    exec_answered .readStatus .readStatus r tag 0#8 [] _ s h rfl rfl rfl rfl rfl rfl, ?_, counts false,
    fun hf h1 hc => ?_, fun hf h1 hc => ?_, ?_,
    exec_answered .readAlign .readAlign r tag 0#8 [] _ s h rfl rfl rfl rfl rfl rfl,
    ⟨_, counts true, ?_, rfl⟩, ⟨_, health mask, ?_, rfl⟩⟩
  · rw [health, clearSticky_zero]
  · exact exec_answered .readRoute (.readRoute first.toNat count.toNat) r tag 2#8 [first, count] _ s h rfl rfl rfl rfl
      (by rw [readCommand, readSpan_inside first count 64 hf h1 hc]; rfl) rfl
  · exact exec_answered .readGroup (.readGroup first.toNat count.toNat) r tag 2#8 [first, count] _ s h rfl rfl rfl rfl
      (by rw [readCommand, readSpan_inside first count 16 hf h1 hc]; rfl) rfl
  · exact exec_answered .readWatch (.readWatch x) r tag 1#8 [BitVec.ofNat 8 (rigCode x)] _ s h rfl rfl rfl rfl
      (by simp [readCommand, byteAt, field]) rfl
  · exact answeredAs_last _ _ _ _ _ _ _
  · exact answeredAs_last _ _ _ _ _ _ _

end Sys2Proof.Machine
end


section
/-! The output sample period: yields, contributions, samples and the end of fades (R8, R23, R29, R31, R91, R94). -/

namespace Sys2Proof.Machine

/-! ## Yields (R28, R29) -/

theorem yield_of_unwritten (r : Ring) (h : (r.W - r.R).toNat = 0 ∨ r.H < (r.W - r.R).toNat) : r.yield = none := by
  unfold Ring.yield Ring.at
  rw [if_neg]
  simp only [Ring.written, Bool.and_eq_true, decide_eq_true_eq]
  omega

/-- R28: a position `d` back from W, against the start of the `i`-th frame back. -/
theorem offset_from_start (W R : Word) (i : Nat) (hi : i < 128) (hd : (W - R).toNat ≤ 3072) :
    (R - (W - BitVec.ofNat 32 (24 * (i + 1)))).toNat =
      if (W - R).toNat ≤ 24 * (i + 1) then 24 * (i + 1) - (W - R).toNat
      else 2 ^ 32 - ((W - R).toNat - 24 * (i + 1)) := by
  have back : R - (W - BitVec.ofNat 32 (24 * (i + 1))) = BitVec.ofNat 32 (24 * (i + 1)) - (W - R) := by ring
  have D := (W - R).isLt
  rw [back, BitVec.toNat_sub, BitVec.toNat_ofNat]
  split <;> omega

/-- R29: a readable position yields the sample of the frame that holds it. -/
theorem yield_of_readable (r : Ring) (d : Nat) (hd : d = (r.W - r.R).toNat) (hwf : r.wf) (h1 : 1 ≤ d) (hH : d ≤ r.H) :
    ∃ y, r.yield = some y ∧ r.frames[(d - 1) / 24]? = some y.frame ∧ y.offset = 23 - (d - 1) % 24 := by
  obtain ⟨hlen, hframes, h3072, hstart⟩ := hwf
  have hi : (d - 1) / 24 < r.frames.length := by omega
  have start (j : Nat) (hj : j < r.frames.length) : (r.R - r.frames[j].start).toNat =
      if d ≤ 24 * (j + 1) then 24 * (j + 1) - d else 2 ^ 32 - (d - 24 * (j + 1)) := by
    rw [hstart j hj, offset_from_start _ _ j (by omega) (by omega), ← hd]
  have found : r.frames.find? (fun f => decide ((r.R - f.start).toNat < 24)) = some r.frames[(d - 1) / 24] := by
    rw [List.find?_eq_some_iff_getElem]
    refine ⟨?_, (d - 1) / 24, hi, rfl, fun j hj => ?_⟩
    · rw [decide_eq_true_eq, start _ hi]
      split <;> omega
    · rw [Bool.not_eq_true', decide_eq_false_iff_not, start j (by omega)]
      split <;> omega
  have written : r.written r.R = true := by
    simp only [Ring.written, Bool.and_eq_true, decide_eq_true_eq]
    omega
  refine ⟨⟨r.frames[(d - 1) / 24], (r.R - r.frames[(d - 1) / 24].start).toNat⟩, ?_, List.getElem?_eq_getElem hi, ?_⟩
  · rw [Ring.yield, Ring.at, if_pos written, found]
    rfl
  · dsimp only
    rw [start _ hi]
    split <;> omega

/-! ## Contributions (R94) -/

theorem slotSample_none (y : Option Yield) (slot : Option (Fin 64)) (h : slot = none ∨ y = none) :
    slotSample y slot = 0#24 := by
  unfold slotSample
  rcases h with rfl | rfl
  · cases y <;> rfl
  · rfl

theorem slotSample_some (y : Yield) (n : Fin 64) (period : List Sample) (x : Sample)
    (hp : y.frame.audio[y.offset]? = some period) (hx : period[n.val]? = some x) : slotSample (some y) (some n) = x := by
  simp [slotSample, List.getD_eq_getElem?_getD, hp, hx]

/-! ## Courses over a period (R91) -/

/-- R91: a fade that has reached L is steady on its "to" source. -/
def Course.completed : Course → Course
  | .steady e => .steady e
  | .fading f => if f.len ≤ f.q then .steady f.kind.dst else .fading f

theorem Course.completed_completed (c : Course) : c.completed.completed = c.completed := by
  cases c with
  | steady e => rfl
  | fading f => unfold Course.completed; by_cases h : f.len ≤ f.q <;> simp [h]

theorem Course.completed_tick (f : Fade) (h : f.q ≤ f.len) : (Course.fading f).tick.completed =
    if f.q + 1 < f.len then .fading { f with q := f.q + 1 } else .steady f.kind.dst := by
  by_cases hlt : f.q + 1 < f.len
  · have hq : rise f.q f.len = f.q + 1 := Nat.min_eq_left hlt.le
    simp [Course.tick, Course.completed, hlt, hq]
  · have hq : f.len ≤ rise f.q f.len := by unfold rise; omega
    simp [Course.tick, Course.completed, hlt, hq]

theorem completeFade_course (g k : Fin 16) (s : Part) : ((completeFade g s).groups.get k).course =
    if k = g then (s.groups.get k).course.completed else (s.groups.get k).course := by
  have raisedCourse (b : NoticeBody) (u : Part) : ((raise b u).groups.get k).course = (u.groups.get k).course := rfl
  unfold completeFade
  by_cases hk : k = g
  · subst hk
    cases hc : (s.groups.get k).course with
    | steady e => simp [hc, Course.completed]
    | fading f => by_cases hl : f.len ≤ f.q <;> simp [hc, Course.completed, hl, raisedCourse]
  · cases hc : (s.groups.get g).course with
    | steady e => simp [hk]
    | fading f => by_cases hl : f.len ≤ f.q <;> simp [hk, hl, raisedCourse, Tbl.get_set_other _ _ hk]

theorem foldl_completeFade_course (l : List (Fin 16)) (k : Fin 16) (s : Part) :
    ((l.foldl (fun s g => completeFade g s) s).groups.get k).course =
      if k ∈ l then (s.groups.get k).course.completed else (s.groups.get k).course := by
  induction l generalizing s with
  | nil => rfl
  | cons g l ih =>
    rw [List.foldl_cons, ih, completeFade_course]
    by_cases hg : k = g <;> by_cases hl : k ∈ l <;> simp [hg, hl, Course.completed_completed]

theorem completeFades_course (k : Fin 16) (s : Part) :
    ((completeFades s).groups.get k).course = (s.groups.get k).course.completed := by
  rw [completeFades, foldl_completeFade_course, if_pos (show k ∈ allGroups from List.mem_finRange k)]

theorem tickFades_course (k : Fin 16) (s : Part) : ((tickFades s).groups.get k).course = (s.groups.get k).course.tick := by
  simp [tickFades]

/-! ## The period (R8, R23, R31, R94) -/

section
variable (s : Part)

/-- R94, R102: the part of a period in which fades have ended and the cursors stand. -/
def fadedPart : Part := settleArrivals (completeFades (formSamples (tickFades s)))

theorem samplePeriod_eq : samplePeriod s = advancePhase (advanceRings (fadedPart s)) := rfl

/-- What follows the samples of a period leaves clock, receivers, rings and samples until the cursors advance. -/
theorem fadedPart_same : Same [.groups, .port, .program, .gang] (formSamples (tickFades s)) (fadedPart s) :=
  ((completeFades_same (formSamples (tickFades s))).mono rfl).trans ((settleArrivals_same _).mono rfl)

theorem fadedPart_course (k : Fin 16) : ((fadedPart s).groups.get k).course = (s.groups.get k).course.tick.completed := by
  have formed (u : Part) : ((formSamples u).groups.get k).course = (u.groups.get k).course := rfl
  rw [fadedPart, (settleArrivals_calm _).course, completeFades_course, formed, tickFades_course]

theorem fadedPart_out (f : ProgramFrame) (hf : s.program.out = some f) (hl : f.audio.length < 24) :
    (fadedPart s).program.out = some { f with audio := f.audio ++ [periodSamples (tickFades s)] } := by
  have frames := ((completeFades_fair (formSamples (tickFades s))).trans (settleArrivals_calm _).fair).frames
  have formed (u : Part) : (formSamples u).program.out =
      u.program.out.map fun f => if f.audio.length < 24 then { f with audio := f.audio ++ [periodSamples u] } else f := rfl
  have ticked : (tickFades s).program.out = s.program.out := rfl
  rw [fadedPart, frames.program, formed, ticked, hf, Option.map_some, if_pos hl]

theorem advance_ring (x : Rig) : (advancePhase (advanceRings s)).ring.get x = (s.ring.get x).advance (isLocked s x) := by
  cases x <;> rfl

theorem ring_advance_isLocked (x : Rig) : (s.ring.get x).advance (isLocked s x) =
    { s.ring.get x with R := if (s.rx.get x).state = .locked then (s.ring.get x).R + 1#32 else (s.ring.get x).R } := by
  by_cases h : (s.rx.get x).state = .locked <;> simp [Ring.advance, isLocked, h]

theorem samplePeriod_ring (x : Rig) : (samplePeriod s).ring.get x =
    { s.ring.get x with R := if (s.rx.get x).state = .locked then (s.ring.get x).R + 1#32 else (s.ring.get x).R } := by
  have ring : (fadedPart s).ring = s.ring := (fadedPart_same s).get .ring rfl
  have rx : (fadedPart s).rx = s.rx := (fadedPart_same s).get .rx rfl
  rw [samplePeriod_eq, advance_ring, ring_advance_isLocked, ring, rx]

theorem samplePeriod_clock : (samplePeriod s).clock =
    { s.clock with phase := if s.clock.phase < 23 then s.clock.phase + 1 else 0 } := by
  have clock : (fadedPart s).clock = s.clock := (fadedPart_same s).get .clock rfl
  have advanced (u : Part) : (advancePhase (advanceRings u)).clock =
      { u.clock with phase := if 23 ≤ u.clock.phase then 0 else u.clock.phase + 1 } := rfl
  rw [samplePeriod_eq, advanced, clock]
  by_cases h : s.clock.phase < 23
  · rw [if_neg (by omega), if_pos h]
  · rw [if_pos (by omega), if_neg h]

theorem samplePeriod_samples : (samplePeriod s).samples = periodSamples (tickFades s) := by
  have samples : (fadedPart s).samples = periodSamples (tickFades s) := (fadedPart_same s).get .samples rfl
  have advanced (u : Part) : (advancePhase (advanceRings u)).samples = u.samples := rfl
  rw [samplePeriod_eq, advanced, samples]

theorem samplePeriod_course (k : Fin 16) :
    ((samplePeriod s).groups.get k).course = (s.groups.get k).course.tick.completed := by
  have advanced (u : Part) : (advancePhase (advanceRings u)).groups = u.groups := rfl
  rw [samplePeriod_eq, advanced, fadedPart_course]

theorem samplePeriod_out (f : ProgramFrame) (hf : s.program.out = some f) (hl : f.audio.length < 24) :
    (samplePeriod s).program.out = some { f with audio := f.audio ++ [(samplePeriod s).samples] } := by
  have advanced (u : Part) : (advancePhase (advanceRings u)).program = u.program := rfl
  rw [samplePeriod_samples, samplePeriod_eq, advanced, fadedPart_out s f hf hl]

/-- R94: the sample of a channel, with the gains of the risen progress. -/
theorem periodSamples_ticked (c : Fin 64) : (periodSamples (tickFades s))[c.val]? = some
    (if (s.tables.routes.get c).used then
      match (s.groups.get (s.tables.routes.get c).group).course with
      | .steady e => contribution (s.tables.routes.get c) (s.ring.get .A).yield (s.ring.get .B).yield e
      | .fading f =>
        mix (contribution (s.tables.routes.get c) (s.ring.get .A).yield (s.ring.get .B).yield f.kind.src)
          (contribution (s.tables.routes.get c) (s.ring.get .A).yield (s.ring.get .B).yield f.kind.dst)
          (gainFrom f.law (min (f.q + 1) f.len) f.len) (gainTo f.law (min (f.q + 1) f.len) f.len)
    else 0#24) := by
  have cell : s.tables.routes.cells[c.val]? = some (s.tables.routes.get c) :=
    List.getElem?_eq_getElem (by rw [s.tables.routes.len]; exact c.isLt)
  have tables : (tickFades s).tables = s.tables := rfl
  have ring : (tickFades s).ring = s.ring := rfl
  rw [periodSamples, List.getElem?_map, tables, ring, cell, Option.map_some, tickFades_course]
  cases hc : (s.groups.get (s.tables.routes.get c).group).course with
  | steady e => cases hu : (s.tables.routes.get c).used <;> simp [channelSample, Course.tick, hu]
  | fading f => cases hu : (s.tables.routes.get c).used <;> simp [channelSample, Course.tick, rise, hu]
end

/-- Settles O23. -/
theorem outputSamplePeriod : Obligations.OutputSamplePeriod := by
  refine ⟨fun r d hd => ⟨fun h => yield_of_unwritten r (by rwa [← hd]), fun hwf h1 hH => yield_of_readable r d hd hwf h1 hH⟩,
    fun e ya yb => ⟨rfl, slotSample_none ya e.slotA, slotSample_none yb e.slotB, fun y n period x hp hx => ⟨?_, ?_⟩⟩,
    fun s h hfades => ⟨_, exec_of_running rfl h, ?_⟩⟩
  · rintro ha rfl
    rw [contribution, ha, slotSample_some y n period x hp hx]
  · rintro hb rfl
    rw [contribution, hb, slotSample_some y n period x hp hx]
  rw [State.toPart_withPart, samplePeriod_clock]
  refine ⟨rfl, rfl, fun x => ?_, fun g e hg => ?_, fun g f hg => ?_, fun c => ?_, samplePeriod_out s.toPart⟩
  · rw [samplePeriod_ring]
    exact ⟨rfl, rfl, rfl, rfl, rfl⟩
  · rw [samplePeriod_course, hg]
    rfl
  · have wf := hfades g
    rw [hg] at wf
    rw [samplePeriod_course, hg, Course.completed_tick f wf.1]
  · have sample := periodSamples_ticked s.toPart c
    rw [← samplePeriod_samples] at sample
    exact sample

end Sys2Proof.Machine
end


section
/-! The frames that a boundary begins (R1, R6 to R9, R111, R117, R124). -/

namespace Sys2Proof.Machine

/-! ## The message of the gang frame (R117, R122) -/

section
variable (p : Part)

theorem takeGangMsg_move (m : MoveMsg) (rest : List MoveMsg) (h : p.gang.moves = m :: rest) :
    takeGangMsg p = (.move m, { p with gang := { p.gang with moves := rest } }) := by
  simp [takeGangMsg, h]

theorem takeGangMsg_answer (hm : p.gang.moves = []) (a : AnswerMsg) (rest : List AnswerMsg)
    (h : p.gang.answers = a :: rest) :
    takeGangMsg p = (.answer a, { p with gang := { p.gang with answers := rest } }) := by
  simp [takeGangMsg, hm, h]

theorem takeGangMsg_propose (hm : p.gang.moves = []) (ha : p.gang.answers = []) (m : ProposeMsg) (rest : List ProposeMsg)
    (h : p.gang.proposes = m :: rest) :
    takeGangMsg p = (.propose m, noteSent m { p with gang := { p.gang with proposes := rest } }) := by
  simp [takeGangMsg, hm, ha, h]

theorem takeGangMsg_none (hm : p.gang.moves = []) (ha : p.gang.answers = []) (h : p.gang.proposes = []) :
    takeGangMsg p = (.none, p) := by
  simp [takeGangMsg, hm, ha, h]

theorem noteSent_proposes (m : ProposeMsg) : (noteSent m p).gang.proposes = p.gang.proposes := by
  unfold noteSent
  split <;> rfl

/-- R122: the send count of the ref of a sent PROPOSE is renewed. -/
theorem noteSent_records (m : ProposeMsg) (k : Fin 8) : (noteSent m p).gang.records.get k =
    if m.ref.val = k.val then { p.gang.records.get k with sentAt := some p.clock.frame } else p.gang.records.get k := by
  unfold noteSent
  by_cases h : m.ref.val < 8
  · by_cases hk : k = ⟨m.ref.val, h⟩
    · simp [h, hk]
    · have hne : m.ref.val ≠ k.val := fun e => hk (Fin.ext e.symm)
      simp [h, hne, Tbl.get_set_other _ _ hk]
  · have hne : m.ref.val ≠ k.val := by omega
    simp [h, hne]

/-- R111: what a gang frame reports of the link stands while its message is chosen. -/
theorem takeGangMsg_link : (takeGangMsg p).2.gang.role = p.gang.role ∧ (takeGangMsg p).2.gang.state = p.gang.state ∧
    (takeGangMsg p).2.gang.board = p.gang.board := by
  unfold takeGangMsg noteSent
  repeat' split
  all_goals exact ⟨rfl, rfl, rfl⟩
end

/-! ## What a frame reports (R6, R111) -/

/-- R111: the covered bytes of a gang frame follow the link, the clock, the health, the tables and the groups. -/
theorem gangCovered_congr {s t : Part} (h : Same [.port, .program, .gang] s t) (hrole : t.gang.role = s.gang.role)
    (hstate : t.gang.state = s.gang.state) (hboard : t.gang.board = s.gang.board) (m : GangMsg) :
    gangCovered t m = gangCovered s m := by
  have clock : t.clock = s.clock := h.get .clock rfl
  have health : t.health = s.health := h.get .health rfl
  have tables : t.tables = s.tables := h.get .tables rfl
  have groups : t.groups = s.groups := h.get .groups rfl
  unfold gangCovered groupEntry
  rw [hrole, hstate, hboard, clock, health, tables, groups]

/-- R6: the summary follows the blocks of the part and the port that sends it, but not the port's frame. -/
theorem summaryBytes_congr {s t : Part} {r : Rig} (h : Same [.port, .program, .gang] s t)
    (hrole : t.gang.role = s.gang.role) (hstate : t.gang.state = s.gang.state)
    (hslots : (t.port.get r).slots = (s.port.get r).slots) (htag : (t.port.get r).refTag = (s.port.get r).refTag)
    (hreason : (t.port.get r).refReason = (s.port.get r).refReason) (hlane : (t.port.get r).lane = (s.port.get r).lane) :
    summaryBytes t r = summaryBytes s r := by
  have clock : t.clock = s.clock := h.get .clock rfl
  have health : t.health = s.health := h.get .health rfl
  have rx : t.rx = s.rx := h.get .rx rfl
  have groups : t.groups = s.groups := h.get .groups rfl
  have lock : t.lock = s.lock := h.get .lock rfl
  have takeover : t.takeover = s.takeover := h.get .takeover rfl
  have panel : t.panel = s.panel := h.get .panel rfl
  have tracker : t.tracker = s.tracker := h.get .tracker rfl
  have store : t.store = s.store := h.get .store rfl
  unfold summaryBytes rigSummary relay Port.free
  dsimp only
  rw [hrole, hstate, hslots, htag, hreason, hlane, clock, health, rx, groups, lock, takeover, panel, tracker, store]

theorem summaryBytes_length (s : Part) (r : Rig) : (summaryBytes s r).length = 24 := by
  simp [summaryBytes, rigSummary, packCodes_length, be8, be16]

/-! ## Sequences, beat and position (R1, R8, R9) -/

/-- From `s` to `t` the begun frames of the ports and of the Program Port stand, whatever the gang sends. -/
structure SentStand (s t : Part) : Prop where
  seq : ∀ r, (t.port.get r).seq = (s.port.get r).seq
  out : ∀ r, (t.port.get r).out = (s.port.get r).out
  program : t.program = { s.program with lane := t.program.lane }

theorem FramesStand.sent {s t : Part} (h : FramesStand s t) : SentStand s t := ⟨h.seq, h.out, h.program⟩

theorem Same.sent {F : List Block} {s t : Part} (h : Same F s t) (hp : F.contains .port = false)
    (hg : F.contains .program = false) : SentStand s t := by
  have port : t.port = s.port := h.get .port hp
  have program : t.program = s.program := h.get .program hg
  exact ⟨fun r => by rw [port], fun r => by rw [port], by rw [program]⟩

theorem SentStand.trans {s t u : Part} (h : SentStand s t) (k : SentStand t u) : SentStand s u :=
  ⟨fun r => (k.seq r).trans (h.seq r), fun r => (k.out r).trans (h.out r), k.program.trans (by rw [h.program])⟩

/-- From `s` to `t` the sequences, the beat and the last position of the program frame stand. -/
structure CountsStand (s t : Part) : Prop where
  seq : ∀ r, (t.port.get r).seq = (s.port.get r).seq
  program : t.program = { s.program with lane := t.program.lane, out := t.program.out }

theorem CountsStand.refl (s : Part) : CountsStand s s := ⟨fun _ => rfl, rfl⟩

theorem SentStand.counts {s t : Part} (h : SentStand s t) : CountsStand s t := ⟨h.seq, by rw [h.program]⟩

theorem CountsStand.trans {s t u : Part} (h : CountsStand s t) (k : CountsStand t u) : CountsStand s u :=
  ⟨fun r => (k.seq r).trans (h.seq r), k.program.trans (by rw [h.program])⟩

theorem endReturn_counts (r : Rig) (s : Part) : CountsStand s (endReturn r s) := by
  have program : (endReturn r s).program = s.program := (endReturn_same r s).get .program rfl
  refine ⟨fun q => ?_, by rw [program]⟩
  unfold endReturn Port.freeSlot
  dsimp only
  repeat' split
  all_goals first
    | rfl
    | (simp only [setPort_port, PerRig.get_set]; split <;> simp [*])

theorem endProgram_counts (s : Part) : CountsStand s (endProgram s) := by
  unfold endProgram
  split
  · exact .refl s
  · exact ⟨fun _ => rfl, rfl⟩

theorem endFrames_counts (s : Part) : CountsStand s (endFrames s) :=
  ((endReturn_counts .A s).trans (endReturn_counts .B _)).trans (endProgram_counts _)

theorem openBoundary_of_noReset (l : Lines) (s : Part) (h : noResetDue s) :
    openBoundary l s = promote (owedTurn (adoptTurn (countTurn (endFrames s)))) := by
  unfold openBoundary
  dsimp only
  rw [if_neg (by simp [h.2])]

theorem openBoundary_counts (l : Lines) (s : Part) (h : noResetDue s) : CountsStand s (openBoundary l s) := by
  have owed (u : Part) : Calm u (owedTurn u) :=
    .when ((withStore_same _ u).calm rfl |>.trans (raise_calm _ _))
  have opened (u : Part) : SentStand u (promote (owedTurn (adoptTurn (countTurn u)))) :=
    ((((countTurn_same u).sent rfl rfl).trans ((adoptTurn_same _).sent rfl rfl)).trans (owed _).frames.sent).trans
      ((promote_same _).sent rfl rfl)
  rw [openBoundary_of_noReset l s h]
  exact (endFrames_counts s).trans (opened _).counts

/-! ## Begun return frames (R1, R6, R132) -/

/-- A return frame of port `r` stands begun with sequence `seq` (R1, R6). -/
structure ReturnSent (r : Rig) (seq : Half) (summary : List Byte) (s : Part) : Prop where
  counted : (s.port.get r).seq = seq + 1#16
  out : ∃ chunk, chunk.length = 32 ∧
    (s.port.get r).out = some (sealFrame (be16 seq ++ summary ++ [0#8, 0#8, 0#8, 0#8] ++ chunk))

theorem ReturnSent.stands {r : Rig} {seq : Half} {summary : List Byte} {s t : Part} (h : ReturnSent r seq summary s)
    (k : SentStand s t) : ReturnSent r seq summary t := by
  obtain ⟨chunk, hlen, hout⟩ := h.out
  exact ⟨(k.seq r).trans h.counted, chunk, hlen, (k.out r).trans hout⟩

theorem beginReturn_port (r : Rig) (s : Part) : (beginReturn r s).port.get r = { (sendChunk r s).2.port.get r with
    seq := (s.port.get r).seq + 1#16
    out := some (sealFrame (be16 (s.port.get r).seq ++ summaryBytes (sendChunk r s).2 r ++ List.replicate 4 0#8 ++
      (sendChunk r s).1)) } := by
  have seq : ((sendChunk r s).2.port.get r).seq = (s.port.get r).seq := by simp [sendChunk]
  unfold beginReturn
  dsimp only
  rw [setPort_port, PerRig.get_set_self, seq]

theorem beginReturn_port_other {r q : Rig} (s : Part) (h : q ≠ r) : (beginReturn r s).port.get q = s.port.get q := by
  simp [beginReturn, sendChunk, PerRig.get_set, h]

/-- R6: the summary of a begun return frame is that of the part as the frame leaves it. -/
theorem beginReturn_sent (r : Rig) (s : Part) :
    ReturnSent r (s.port.get r).seq (summaryBytes (beginReturn r s) r) (beginReturn r s) := by
  have port := beginReturn_port r s
  have same : Same [.port] (sendChunk r s).2 (beginReturn r s) := setPort_same _ _ _
  have gang : (beginReturn r s).gang = (sendChunk r s).2.gang := same.get .gang rfl
  have summary : summaryBytes (beginReturn r s) r = summaryBytes (sendChunk r s).2 r :=
    summaryBytes_congr (same.mono rfl) (by rw [gang]) (by rw [gang]) (by rw [port]) (by rw [port]) (by rw [port])
      (by rw [port])
  rw [summary]
  exact ⟨by rw [port], (sendChunk r s).1, Lane.send_length _ _ _, by rw [port]; rfl⟩

/-- The ports and the link that the summaries of both ports follow stand from `s` to `t`. -/
theorem summary_of_stands {s t : Part} (h : Same [.program, .gang] s t) (hrole : t.gang.role = s.gang.role)
    (hstate : t.gang.state = s.gang.state) (r : Rig) : summaryBytes t r = summaryBytes s r := by
  have port : t.port = s.port := h.get .port rfl
  exact summaryBytes_congr (h.mono rfl) hrole hstate (by rw [port]) (by rw [port]) (by rw [port]) (by rw [port])

theorem beginReturns_sent (r : Rig) (s : Part) : ReturnSent r (s.port.get r).seq
    (summaryBytes (beginReturn .B (beginReturn .A s)) r) (beginReturn .B (beginReturn .A s)) := by
  cases r with
  | B =>
    have h := beginReturn_sent .B (beginReturn .A s)
    rwa [beginReturn_port_other s (by decide)] at h
  | A =>
    have h := beginReturn_sent .A s
    have port := beginReturn_port_other (r := .B) (q := .A) (beginReturn .A s) (by decide)
    have gang : (beginReturn .B (beginReturn .A s)).gang = (beginReturn .A s).gang := (beginReturn_same _ _).get .gang rfl
    have summary : summaryBytes (beginReturn .B (beginReturn .A s)) .A = summaryBytes (beginReturn .A s) .A :=
      summaryBytes_congr ((beginReturn_same _ _).mono rfl) (by rw [gang]) (by rw [gang]) (by rw [port]) (by rw [port])
        (by rw [port]) (by rw [port])
    obtain ⟨chunk, hlen, hout⟩ := h.out
    rw [summary]
    exact ⟨by rw [port]; exact h.counted, chunk, hlen, by rw [port]; exact hout⟩

theorem beginFrames_returns (r : Rig) (s : Part) :
    ReturnSent r (s.port.get r).seq (summaryBytes (beginFrames s) r) (beginFrames s) := by
  have same : Same [.program] (beginReturn .B (beginReturn .A s)) (beginFrames s) := programLane_same _
  have gang : (beginFrames s).gang = (beginReturn .B (beginReturn .A s)).gang := same.get .gang rfl
  have port : (beginFrames s).port = (beginReturn .B (beginReturn .A s)).port := same.get .port rfl
  obtain ⟨hseq, chunk, hlen, hout⟩ := beginReturns_sent r s
  rw [summary_of_stands (same.mono rfl) (by rw [gang]) (by rw [gang]) r]
  exact ⟨by rw [port, hseq], chunk, hlen, by rw [port, hout]⟩

/-! ## The begun program frame (R8, R9) -/

/-- The program frame stands begun on the counts of `p`. -/
structure ProgramSent (p : Program) (s : Part) : Prop where
  seq : s.program.seq = p.seq + 1#16
  beat : s.program.beat = p.beat + 1#8
  stamp : s.program.stamp = p.stamp
  cue : s.program.cue = p.cue
  out : ∃ f, s.program.out = some f ∧ f.seq = p.seq ∧ f.beat = p.beat ∧ f.audio = [] ∧ f.lane.length = 32

theorem ProgramSent.stands {p : Program} {s t : Part} (h : ProgramSent p s) (k : SentStand s t) : ProgramSent p t := by
  have e := k.program
  exact ⟨by rw [e]; exact h.seq, by rw [e]; exact h.beat, by rw [e]; exact h.stamp, by rw [e]; exact h.cue,
    by rw [e]; exact h.out⟩

theorem beginFrames_program (s : Part) : ProgramSent s.program (beginFrames s) := by
  have program : (beginReturn .B (beginReturn .A s)).program = s.program :=
    ((beginReturn_same _ _).get .program rfl).trans ((beginReturn_same _ _).get .program rfl)
  have lane (u : Part) : ProgramSent u.program (programLane u) :=
    ⟨rfl, rfl, rfl, rfl, _, rfl, rfl, rfl, rfl, Lane.send_length _ _ _⟩
  have h := lane (beginReturn .B (beginReturn .A s))
  rwa [program] at h

/-! ## Both (R1) -/

/-- The frames of a boundary stand begun in `t`, on the counts of `s`. -/
structure Begun (s t : Part) : Prop where
  returns : ∀ r, ∃ summary : List Byte, summary.length = 24 ∧ ReturnSent r (s.port.get r).seq summary t
  program : ProgramSent s.program t

theorem Begun.stands {s t u : Part} (h : Begun s t) (k : SentStand t u) : Begun s u :=
  ⟨fun r => by
    obtain ⟨summary, hlen, sent⟩ := h.returns r
    exact ⟨summary, hlen, sent.stands k⟩, h.program.stands k⟩

theorem beginFrames_begun (s : Part) : Begun s (beginFrames s) :=
  ⟨fun r => ⟨_, summaryBytes_length _ _, beginFrames_returns r s⟩, beginFrames_program s⟩

/-- Frames begun on counts that stand since `s`. -/
theorem Begun.of_counts {s t u : Part} (k : CountsStand s t) (h : Begun t u) : Begun s u := by
  have e := k.program
  refine ⟨fun r => ?_, ?_⟩
  · rw [← k.seq r]
    exact h.returns r
  · obtain ⟨seq, beat, stamp, cue, out⟩ := h.program
    rw [e] at seq beat stamp cue out
    exact ⟨seq, beat, stamp, cue, out⟩

end Sys2Proof.Machine
end


section
/-! The program header, the gang frame, and the boundary that begins the frames (R1, R6 to R9, R111, R117). -/

namespace Sys2Proof.Machine

/-! ## The header (R9) -/

theorem headerYield_of_yielding (s : Part) (x : Rig) (y : Yield) (hl : (s.rx.get x).state = .locked)
    (hy : (s.ring.get x).yield = some y) : headerYield s x = some y := by
  simp [headerYield, isLocked, hl, hy]

theorem headerYield_of_silent (s : Part) (x : Rig) (h : (s.rx.get x).state ≠ .locked ∨ (s.ring.get x).yield = none) :
    headerYield s x = none := by
  unfold headerYield isLocked
  rcases h with h | h <;> simp [h]

/-- R9: the header follows the reference rig, and the other rig where the reference rig yields nothing. -/
theorem headerFields_of_yielding (s : Part) (x : Rig) (y : Yield) (hl : (s.rx.get x).state = .locked)
    (hy : (s.ring.get x).yield = some y)
    (hx : x = s.tables.setup.reference ∨ (s.rx.get x.other).state ≠ .locked ∨ (s.ring.get x.other).yield = none) :
    headerFields s = (y.position, y.frame.cue, y.frame.transport) := by
  have own := headerYield_of_yielding s x y hl hy
  unfold headerFields
  by_cases href : x = s.tables.setup.reference
  · rw [← href, own]
  · have other : s.tables.setup.reference = x.other := by
      revert href
      cases x <;> cases s.tables.setup.reference <;> simp [Rig.other]
    have silent := headerYield_of_silent s x.other (hx.resolve_left href)
    have back : x.other.other = x := by cases x <;> rfl
    rw [other, silent, back, own]

/-- R9: with no position to follow the header counts on. -/
theorem headerFields_of_silent (s : Part)
    (h : ∀ x, (s.rx.get x).state ≠ .locked ∨ (s.ring.get x).yield = none) :
    headerFields s = (s.program.stamp + 24#32, s.program.cue, .stop) := by
  unfold headerFields
  rw [headerYield_of_silent s _ (h _), headerYield_of_silent s _ (h _)]

/-- R9: the header of a begun program frame is filled in. -/
theorem programHeader_begun (p : Program) (s : Part) (h : ProgramSent p s) :
    ∃ f, (programHeader s).program.out = some f ∧ f.seq = p.seq ∧ f.beat = p.beat ∧ f.audio = [] ∧
      f.stamp = (programHeader s).program.stamp ∧ f.cue = (programHeader s).program.cue ∧ f.lane.length = 32 ∧
      (f.stamp, f.cue, f.transport) = headerFields s := by
  obtain ⟨f, hf, hseq, hbeat, haudio, hlane⟩ := h.out
  refine ⟨{ f with stamp := (headerFields s).1, cue := (headerFields s).2.1, transport := (headerFields s).2.2 }, ?_, hseq,
    hbeat, haudio, rfl, rfl, hlane, rfl⟩
  simp [programHeader, hf]

/-! ## The gang frame (R111, R117) -/

theorem beginGang_gang (s : Part) : (beginGang s).gang =
    { (takeGangMsg s).2.gang with out := some (sealFrame (gangCovered s (takeGangMsg s).1)) } := by
  obtain ⟨role, state, board⟩ := takeGangMsg_link s
  have covered := gangCovered_congr ((takeGangMsg_same s).mono rfl) role state board (takeGangMsg s).1
  rw [← covered]
  rfl

theorem beginGang_link (s : Part) : (beginGang s).gang.role = s.gang.role ∧ (beginGang s).gang.state = s.gang.state ∧
    (beginGang s).gang.board = s.gang.board := takeGangMsg_link s

theorem beginGang_sent (s : Part) : SentStand s (beginGang s) := (beginGang_same s).sent rfl rfl

/-! ## The boundary -/

/-- The part of a boundary whose program header alone is missing. -/
def headless (ord : Order) (s : Part) : Part :=
  if ord.gangFirst then (if ord.framesFirst then s else beginFrames s)
  else beginGang (if ord.framesFirst then s else beginFrames s)

theorem framesAfter_eq (ord : Order) (s : Part) : framesAfter ord s = programHeader (headless ord s) := rfl

section
variable (l : Lines) (ord : Order) (s : Part)

/-- The part of a boundary after its turns. -/
def turnedPart : Part := boundaryTurns l ord (framesBefore ord (openBoundary l s))

theorem boundary_headless : boundary l ord s = programHeader (headless ord (turnedPart l ord s)) := by
  rw [boundary_eq, framesAfter_eq]
  rfl

theorem boundaryTurns_sent (u : Part) : SentStand u (boundaryTurns l ord u) := (boundaryTurns_fair l ord u).frames.sent

/-- R1: the frames begun before the turns stand through them. -/
theorem headless_begun_before (hf : ord.framesFirst = true) :
    Begun (openBoundary l s) (headless ord (turnedPart l ord s)) := by
  have before : Begun (openBoundary l s) (framesBefore ord (openBoundary l s)) := by
    unfold framesBefore
    simp only [hf, if_true]
    split
    · exact (beginFrames_begun _).stands (beginGang_sent _)
    · exact beginFrames_begun _
  have turned : Begun (openBoundary l s) (turnedPart l ord s) := before.stands (boundaryTurns_sent l ord _)
  unfold headless
  simp only [hf, if_true]
  split
  · exact turned
  · exact turned.stands (beginGang_sent _)

/-- R1: the counts stand until the frames are begun after the turns. -/
theorem turned_counts (hf : ord.framesFirst = false) : CountsStand (openBoundary l s) (turnedPart l ord s) := by
  have before : SentStand (openBoundary l s) (framesBefore ord (openBoundary l s)) := by
    unfold framesBefore
    simp only [hf, Bool.false_eq_true, if_false]
    split
    · exact beginGang_sent _
    · exact (Same.refl [] _).sent rfl rfl
  exact (before.trans (boundaryTurns_sent l ord _)).counts

/-- R6: the return frames begun after the turns carry the summary of the part as the frames leave it. -/
theorem headless_returns_after (hf : ord.framesFirst = false) (u : Part) (r : Rig) :
    ReturnSent r (u.port.get r).seq (summaryBytes (programHeader (headless ord u)) r) (programHeader (headless ord u)) := by
  have header (v : Part) (seq : Half) (h : ReturnSent r seq (summaryBytes v r) v) :
      ReturnSent r seq (summaryBytes (programHeader v) r) (programHeader v) := by
    have summary : summaryBytes (programHeader v) r = summaryBytes v r :=
      summary_of_stands ((programHeader_same v).mono rfl) rfl rfl r
    rw [summary]
    exact ⟨h.counted, h.out⟩
  have gang (v : Part) (seq : Half) (h : ReturnSent r seq (summaryBytes v r) v) :
      ReturnSent r seq (summaryBytes (beginGang v) r) (beginGang v) := by
    obtain ⟨role, state, -⟩ := beginGang_link v
    rw [summary_of_stands ((beginGang_same v).mono rfl) role state r]
    exact h.stands (beginGang_sent v)
  refine header _ _ ?_
  unfold headless
  simp only [hf, Bool.false_eq_true, if_false]
  split
  · exact beginFrames_returns r u
  · exact gang _ _ (beginFrames_returns r u)

theorem boundary_begun (h : noResetDue s) : Begun s (headless ord (turnedPart l ord s)) := by
  refine .of_counts (openBoundary_counts l s h) ?_
  cases hf : ord.framesFirst
  case true => exact headless_begun_before l ord s hf
  case false =>
    have begun (u : Part) : Begun u (headless ord u) := by
      unfold headless
      simp only [hf, Bool.false_eq_true, if_false]
      split
      · exact beginFrames_begun u
      · exact (beginFrames_begun u).stands (beginGang_sent _)
    exact .of_counts (turned_counts l ord s hf) (begun _)
end

/-- The part before the turns, but for a gang frame begun first. -/
def firstPart (l : Lines) (ord : Order) (s : Part) : Part :=
  if ord.framesFirst then beginFrames (openBoundary l s) else openBoundary l s

section
variable (l : Lines) (ord : Order) (s : Part)

theorem framesBefore_eq : framesBefore ord (openBoundary l s) =
    if ord.gangFirst then beginGang (firstPart l ord s) else firstPart l ord s := rfl

theorem boundaryTurns_eq (u : Part) (h : PerRig Health) (hh : u.health = h) : boundaryTurns l ord u =
    gangTurn (switchTurn l ord (trackerTurn ord (watchTurn ord h (clockTurn (matchTurn (writesTurn (keyTurn l.key u))))))) := by
  subst hh
  rfl

/-- R23: the turns, in the order of the model. -/
theorem turnedPart_eq : turnedPart l ord s = gangTurn (switchTurn l ord (trackerTurn ord
    (watchTurn ord (firstPart l ord s).health (clockTurn (matchTurn (writesTurn (keyTurn l.key
      (if ord.gangFirst then beginGang (firstPart l ord s) else firstPart l ord s)))))))) := by
  refine boundaryTurns_eq l ord _ _ ?_
  rw [framesBefore_eq]
  split
  · exact (beginGang_same _).get .health rfl
  · rfl

/-- The part in which the gang frame is begun. -/
def gangPart : Part :=
  if ord.gangFirst then firstPart l ord s
  else if ord.framesFirst then turnedPart l ord s else beginFrames (turnedPart l ord s)

theorem headless_of_gangLast (hg : ord.gangFirst = false) :
    headless ord (turnedPart l ord s) = beginGang (gangPart l ord s) := by
  unfold headless gangPart
  simp only [hg, Bool.false_eq_true, if_false]

/-- R111: the gang frame of a boundary reports the part in which it is begun. -/
theorem headless_gang_out : (headless ord (turnedPart l ord s)).gang.out =
    some (sealFrame (gangCovered (gangPart l ord s) (takeGangMsg (gangPart l ord s)).1)) := by
  cases hg : ord.gangFirst
  case false => rw [headless_of_gangLast l ord s hg, beginGang_gang]
  case true =>
    have begun : (headless ord (turnedPart l ord s)).gang = (turnedPart l ord s).gang := by
      unfold headless
      simp only [hg, if_true]
      split
      · rfl
      · exact (beginFrames_same _).get .gang rfl
    have turned : (turnedPart l ord s).gang.out = (framesBefore ord (openBoundary l s)).gang.out := by
      rw [turnedPart]
      exact (boundaryTurns_fair l ord (framesBefore ord (openBoundary l s))).frames.gang
    have first : gangPart l ord s = firstPart l ord s := if_pos hg
    rw [begun, turned, framesBefore_eq, if_pos hg, first, beginGang_gang]

/-- R117: a gang frame begun last leaves the link as the choice of its message does. -/
theorem headless_gang_last (hg : ord.gangFirst = false) :
    (programHeader (headless ord (turnedPart l ord s))).gang =
        { (takeGangMsg (gangPart l ord s)).2.gang with out := (headless ord (turnedPart l ord s)).gang.out } ∧
      ∀ m, gangCovered (programHeader (headless ord (turnedPart l ord s))) m = gangCovered (gangPart l ord s) m := by
  rw [headless_of_gangLast l ord s hg]
  have gang : (programHeader (beginGang (gangPart l ord s))).gang = (beginGang (gangPart l ord s)).gang := rfl
  obtain ⟨role, state, board⟩ := beginGang_link (gangPart l ord s)
  have same : Same [.port, .program, .gang] (gangPart l ord s) (programHeader (beginGang (gangPart l ord s))) :=
    ((beginGang_same _).mono rfl).trans ((programHeader_same _).mono rfl)
  refine ⟨?_, fun m => gangCovered_congr same role state board m⟩
  rw [gang, beginGang_gang]
end

/-- Settles O14: the frames stand from the place in the boundary at which they are begun, before the turns or after them. -/
theorem boundaryBeginsItsFrames : Obligations.BoundaryBeginsItsFrames := by
  refine ⟨fun p => ⟨takeGangMsg_move p, fun hm => ⟨takeGangMsg_answer p hm, fun ha => ⟨fun m rest h => ?_,
    takeGangMsg_none p hm ha⟩⟩⟩, fun l ord s h => ?_⟩
  · rw [takeGangMsg_propose p hm ha m rest h]
    exact ⟨rfl, noteSent_proposes _ m, noteSent_records _ m⟩
  have begun := boundary_begun l ord s.toPart h
  have gang := headless_gang_out l ord s.toPart
  refine ⟨s.withPart (boundary l ord s.toPart), exec_of_running rfl h.1, ?_⟩
  rw [State.toPart_withPart, boundary_headless]
  generalize hv : headless ord (turnedPart l ord s.toPart) = v at begun gang
  have header := programHeader_begun s.program v begun.program
  refine ⟨fun r => ⟨?_, ?_⟩, begun.program.seq, begun.program.beat, ?_, ⟨_, gangCovered_length _ _, gang⟩, ?_⟩
  · obtain ⟨_, _, sent⟩ := begun.returns r
    exact sent.counted
  · cases hf : ord.framesFirst
    case true =>
      obtain ⟨summary, hlen, sent⟩ := begun.returns r
      obtain ⟨chunk, hchunk, hout⟩ := sent.out
      exact ⟨summary, chunk, hlen, hchunk, hout, fun hn => absurd hn (by simp)⟩
    case false =>
      have counts := (openBoundary_counts l s.toPart h).trans (turned_counts l ord s.toPart hf)
      have sent := headless_returns_after ord hf (turnedPart l ord s.toPart) r
      rw [hv, counts.seq r] at sent
      obtain ⟨chunk, hchunk, hout⟩ := sent.out
      exact ⟨_, chunk, summaryBytes_length _ _, hchunk, hout, fun _ => rfl⟩
  · obtain ⟨f, hf, hseq, hbeat, haudio, hstamp, hcue, hlane, hfields⟩ := header
    refine ⟨f, hf, hseq, hbeat, haudio, hstamp, hcue, hlane, fun x y hl hy hx => ?_, fun hsilent => ?_⟩
    · rw [headerFields_of_yielding v x y hl hy hx] at hfields
      simpa [Yield.position] using hfields
    · rw [headerFields_of_silent v hsilent, begun.program.stamp, begun.program.cue] at hfields
      simpa using hfields
  · intro first turned part hfirst hturned hpart
    have efirst : first = firstPart l ord s.toPart := hfirst
    have eturned : turned = turnedPart l ord s.toPart := by rw [hturned, efirst, turnedPart_eq]
    have epart : part = gangPart l ord s.toPart := by rw [hpart, efirst, eturned, gangPart]
    rw [epart]
    refine ⟨gang, fun hg => ?_⟩
    obtain ⟨last, covered⟩ := headless_gang_last l ord s.toPart hg
    rw [hv] at last covered
    exact ⟨last, covered _⟩

end Sys2Proof.Machine
end


section
/-! What is written on the lines and read back: bytes, codes and masks (R3, R7, R131, R144). -/

namespace Sys2Proof.Machine

/-! ## Bytes of a list -/

theorem byteAt_append_right (l m : List Byte) (i : Nat) : byteAt (l ++ m) (l.length + i) = byteAt m i := by
  simp [byteAt, List.getD_eq_getElem?_getD, List.getElem?_append_right]

theorem byteAt_append_left (l m : List Byte) (i : Nat) (h : i < l.length) : byteAt (l ++ m) i = byteAt l i := by
  simp [byteAt, List.getD_eq_getElem?_getD, List.getElem?_append_left h]

/-! ## Big-endian fields -/

theorem bytes_of_half (h : Half) : h.extractLsb' 8 8 ++ h.extractLsb' 0 8 = h := by
  rw [BitVec.extractLsb'_append_extractLsb'_eq_extractLsb' (by decide)]
  exact BitVec.extractLsb'_eq_self

theorem bytes_of_word24 (x : BitVec 24) : x.extractLsb' 16 8 ++ x.extractLsb' 8 8 ++ x.extractLsb' 0 8 = x := by
  rw [BitVec.extractLsb'_append_extractLsb'_eq_extractLsb' (by decide),
    BitVec.extractLsb'_append_extractLsb'_eq_extractLsb' (by decide)]
  exact BitVec.extractLsb'_eq_self

theorem bytes_of_word (w : Word) :
    w.extractLsb' 24 8 ++ w.extractLsb' 16 8 ++ w.extractLsb' 8 8 ++ w.extractLsb' 0 8 = w := word_be32 w

theorem byte_toNat (n : Nat) (h : n < 256) : (BitVec.ofNat 8 n).toNat = n := by
  rw [BitVec.toNat_ofNat, Nat.mod_eq_of_lt h]

theorem half_toNat (n : Nat) (h : n < 65536) : (BitVec.ofNat 16 n).toNat = n := by
  rw [BitVec.toNat_ofNat, Nat.mod_eq_of_lt h]

/-! ## Masks -/

/-- A mask is that of its members. -/
theorem eq_maskOf {w : Nat} (m : BitVec w) (p : Fin w → Bool) (h : ∀ i : Fin w, m.getLsbD i.val = p i) :
    m = maskOf w p := by
  refine BitVec.eq_of_getLsbD_eq fun i hi => ?_
  rw [h ⟨i, hi⟩, maskOf_getLsbD p ⟨i, hi⟩]

/-! ## Codes -/

theorem readTransport_code (t : Transport) : readTransport (BitVec.ofNat 8 t.code) = t := by cases t <;> rfl
@[simp] theorem readBit_bit (b : Bool) : readBit (BitVec.ofNat 8 (bit b)) = some b := by cases b <;> rfl
@[simp] theorem readEnd_code (e : End) : readEnd (BitVec.ofNat 8 (endCode e)) = some e := by
  cases e with
  | rig r => cases r <;> rfl
  | dark => rfl
@[simp] theorem readLaw_code (l : Law) : readLaw (BitVec.ofNat 8 l.code) = some l := by cases l <;> rfl
@[simp] theorem readMode_code (m : Mode) : readMode (BitVec.ofNat 8 m.code) = some m := by cases m <;> rfl
@[simp] theorem readPolicy_code (p : ReturnPolicy) : readPolicy (BitVec.ofNat 8 p.code) = some p := by cases p <;> rfl
@[simp] theorem readLastResort_code (x : LastResort) : readLastResort (BitVec.ofNat 8 x.code) = some x := by
  cases x <;> rfl
@[simp] theorem readAlarm_code (a : AlarmMode) : readAlarm (BitVec.ofNat 8 a.code) = some a := by cases a <;> rfl
@[simp] theorem readStatusCode_code (st : Status) : readStatusCode (BitVec.ofNat 8 st.code) = some st := by
  cases st <;> rfl

@[simp] theorem readGroup16_val (g : Fin 16) : readGroup16 (BitVec.ofNat 8 g.val) = some g := by
  have h := byte_toNat g.val (by omega)
  simp only [readGroup16, h, g.isLt, dif_pos, Fin.eta]

@[simp] theorem readFade_val (i : Fin 7) : readFade (BitVec.ofNat 8 i.val) = some i := by
  have h := byte_toNat i.val (by omega)
  simp only [readFade, h, i.isLt, dif_pos, Fin.eta]

@[simp] theorem readSlot64_val (n : Fin 64) : readSlot64 (BitVec.ofNat 8 n.val) = some n := by
  have h := byte_toNat n.val (by omega)
  simp only [readSlot64, h, n.isLt, dif_pos, Fin.eta]

@[simp] theorem readSlot_slotByte (x : Option (Fin 64)) : readSlot (slotByte x) = some x := by
  cases x with
  | none => rfl
  | some n =>
    have h := byte_toNat n.val (by omega)
    have hne : BitVec.ofNat 8 n.val ≠ 0xFF#8 := fun e => by
      have := congrArg BitVec.toNat e
      rw [h] at this
      have := n.isLt
      simp at *
      omega
    simp only [readSlot, slotByte, hne, if_false, h, n.isLt, dif_pos, Fin.eta]

/-- Four truth values in the low bits of a byte. -/
theorem flag_bits : ∀ a b c d : Bool,
    (BitVec.ofNat 8 (bit a + 2 * bit b + 4 * bit c + 8 * bit d)).getLsbD 0 = a ∧
      (BitVec.ofNat 8 (bit a + 2 * bit b + 4 * bit c + 8 * bit d)).getLsbD 1 = b ∧
      (BitVec.ofNat 8 (bit a + 2 * bit b + 4 * bit c + 8 * bit d)).getLsbD 2 = c ∧
      (BitVec.ofNat 8 (bit a + 2 * bit b + 4 * bit c + 8 * bit d)).getLsbD 3 = d := by decide

/-- R111, R129: the condition flags of a byte. -/
theorem readCond_flagBits (c : Cond) : readCond (BitVec.ofNat 8 c.flagBits) c.timeout = c := by
  obtain ⟨h0, h1, h2, h3⟩ := flag_bits c.targetUsable c.aligned c.targetStopped c.bothStopped
  rw [readCond, Cond.flagBits, h0, h1, h2, h3]

end Sys2Proof.Machine
end


section
/-! Frames read back: the gang messages of a gang frame (R111, R112), the header and the audio of a program frame (R3, R4, R8). -/

namespace Sys2Proof.Machine

/-! ## The message of a gang frame (R111) -/

/-- R111: the bytes of a gang frame before its message. -/
def gangHead (s : Part) : List Byte :=
  syncWord ++ (be8 s.gang.role.code ++ be8 s.gang.state.code ++ be32 s.clock.frame ++
    [(s.health.get .A).published, (s.health.get .B).published] ++
    be16 (if s.gang.role = .solo then 0#16 else maskOf 16 fun g => (groupEntry s g).ganged) ++
    packCodes (fun g => (s.groups.get g).course.code) ++
    (if s.gang.role = .leader then allRefs.flatMap fun r => (s.gang.board.get r).bytes else List.replicate 16 0#8))

theorem sealFrame_gangCovered (s : Part) (m : GangMsg) : sealFrame (gangCovered s m) =
    gangHead s ++ (m.bytes ++ (List.replicate 4 0#8 ++ be32 (frameCheck (gangCovered s m)))) := by
  simp only [sealFrame, gangCovered, gangHead, List.append_assoc]

theorem gangHead_length (s : Part) : (gangHead s).length = 36 := by
  have h := congrArg List.length (sealFrame_gangCovered s .none)
  rw [sealFrame_length, gangCovered_length, List.length_append, List.length_append, List.length_append,
    GangMsg.bytes_length, be32_length, List.length_replicate] at h
  omega

section
variable (s : Part) (m : GangMsg)

/-- R111: the message stands from byte 36 on. -/
theorem gangFrame_byteAt (i : Nat) (h : i < 20) : byteAt (sealFrame (gangCovered s m)) (36 + i) = byteAt m.bytes i := by
  rw [sealFrame_gangCovered, ← gangHead_length s, byteAt_append_right, byteAt_append_left _ _ _ (by rwa [GangMsg.bytes_length])]

theorem gangFrame_half (i : Nat) (h : i + 1 < 20) : half (sealFrame (gangCovered s m)) (36 + i) = half m.bytes i := by
  unfold half
  rw [gangFrame_byteAt s m i (by omega), Nat.add_assoc, gangFrame_byteAt s m (i + 1) h]

theorem gangFrame_word (i : Nat) (h : i + 3 < 20) : word (sealFrame (gangCovered s m)) (36 + i) = word m.bytes i := by
  unfold word
  rw [gangFrame_byteAt s m i (by omega), Nat.add_assoc 36 i 1, Nat.add_assoc 36 i 2, Nat.add_assoc 36 i 3,
    gangFrame_byteAt s m (i + 1) (by omega), gangFrame_byteAt s m (i + 2) (by omega), gangFrame_byteAt s m (i + 3) h]
end

theorem move_len_bound (m : MoveMsg) (hl : m.len ∈ [1, 24, 48, 96, 192, 480, 960]) : m.len < 65536 := by
  simp only [List.mem_cons, List.not_mem_nil, or_false] at hl
  omega

/-- R111, R112: a MOVE reads back. -/
theorem readGangMsg_move (s : Part) (m : MoveMsg) (hl : m.len ∈ [1, 24, 48, 96, 192, 480, 960]) (hq : m.q0 ≤ m.len)
    (hm : m.src ≠ m.dst ∨ m.q0 = m.len) : readGangMsg (sealFrame (gangCovered s (.move m))) = .move m := by
  have byte := gangFrame_byteAt s (.move m)
  have kind : byteAt (sealFrame (gangCovered s (.move m))) 36 = 1#8 := byte 0 (by decide)
  have group : byteAt (sealFrame (gangCovered s (.move m))) 37 = BitVec.ofNat 8 m.group.val := byte 1 (by decide)
  have src : byteAt (sealFrame (gangCovered s (.move m))) 38 = BitVec.ofNat 8 (endCode m.src) := byte 2 (by decide)
  have dst : byteAt (sealFrame (gangCovered s (.move m))) 39 = BitVec.ofNat 8 (endCode m.dst) := byte 3 (by decide)
  have law : byteAt (sealFrame (gangCovered s (.move m))) 40 = BitVec.ofNat 8 m.law.code := byte 4 (by decide)
  have len : half (sealFrame (gangCovered s (.move m))) 41 = BitVec.ofNat 16 m.len :=
    (gangFrame_half s (.move m) 5 (by decide)).trans (bytes_of_half _)
  have q0 : half (sealFrame (gangCovered s (.move m))) 43 = BitVec.ofNat 16 m.q0 :=
    (gangFrame_half s (.move m) 7 (by decide)).trans (bytes_of_half _)
  have start : word (sealFrame (gangCovered s (.move m))) 45 = m.start :=
    (gangFrame_word s (.move m) 9 (by decide)).trans (bytes_of_word _)
  have flags : byteAt (sealFrame (gangCovered s (.move m))) 49 =
      BitVec.ofNat 8 (bit m.unaligned + 2 * bit m.failedOver + 4 * bit m.darkByRequest + 8 * bit false) :=
    byte 13 (by decide)
  have bound := move_len_bound m hl
  have inRange : ([1, 24, 48, 96, 192, 480, 960].contains m.len && decide (m.q0 ≤ m.len) &&
      !(m.src == m.dst && decide (m.q0 < m.len))) = true := by
    simp only [Bool.and_eq_true, List.contains_iff_mem, decide_eq_true_eq, Bool.not_eq_true', Bool.and_eq_false_iff,
      decide_eq_false_iff_not, beq_eq_false_iff_ne]
    exact ⟨⟨hl, hq⟩, hm.imp id (by omega)⟩
  obtain ⟨f0, f1, f2, -⟩ := flag_bits m.unaligned m.failedOver m.darkByRequest false
  have read : readMove (sealFrame (gangCovered s (.move m))) = some m := by
    unfold readMove
    rw [group, src, dst, law, len, q0, start, flags, half_toNat _ bound, half_toNat _ (by omega), readGroup16_val,
      readEnd_code, readEnd_code, readLaw_code]
    dsimp only
    rw [if_pos inRange, f0, f1, f2]
  unfold readGangMsg
  rw [if_pos kind, read]

/-- R111: an ANSWER reads back. -/
theorem readGangMsg_answer (s : Part) (a : AnswerMsg) : readGangMsg (sealFrame (gangCovered s (.answer a))) = .answer a := by
  have byte := gangFrame_byteAt s (.answer a)
  have kind : byteAt (sealFrame (gangCovered s (.answer a))) 36 = 3#8 := byte 0 (by decide)
  have ref : byteAt (sealFrame (gangCovered s (.answer a))) 37 = BitVec.ofNat 8 a.ref.val := byte 1 (by decide)
  have round : byteAt (sealFrame (gangCovered s (.answer a))) 38 = BitVec.ofNat 8 (bit a.round) := byte 2 (by decide)
  have status : byteAt (sealFrame (gangCovered s (.answer a))) 39 = BitVec.ofNat 8 a.status.code := byte 3 (by decide)
  have read : readAnswer (sealFrame (gangCovered s (.answer a))) = some a := by
    unfold readAnswer
    rw [ref, round, status, readBit_bit, readStatusCode_code]
    dsimp only
    have hlt : (BitVec.ofNat 8 a.ref.val).toNat < 8 := by rw [byte_toNat _ (by omega)]; exact a.ref.isLt
    have back : (⟨(BitVec.ofNat 8 a.ref.val).toNat, hlt⟩ : Fin 8) = a.ref := Fin.ext (byte_toNat _ (by omega))
    rw [dif_pos hlt, back]
  unfold readGangMsg
  rw [kind, if_neg (by decide), if_neg (by decide), if_pos rfl, read]

/-- R111: a PROPOSE with a condition part reads back. -/
theorem readGangMsg_propose (s : Part) (p : ProposeMsg) (c : Cond) (hc : p.cond = some c)
    (hbare : c.flagBits ≠ 0 ∨ c.timeout ≠ 0#16) : readGangMsg (sealFrame (gangCovered s (.propose p))) = .propose p := by
  have bytes : (GangMsg.propose p).bytes = be8 2 ++ be8 p.ref.val ++ be8 (bit p.round) ++ be16 p.mask ++
      be8 (endCode p.target) ++ be8 (bit p.force) ++ (be8 c.flagBits ++ be16 c.timeout) ++ List.replicate 10 0#8 := by
    simp only [GangMsg.bytes, hc]
  have byte := gangFrame_byteAt s (.propose p)
  have half := gangFrame_half s (.propose p)
  rw [bytes] at byte half
  generalize sealFrame (gangCovered s (.propose p)) = b at byte half
  have kind : byteAt b 36 = 2#8 := byte 0 (by decide)
  have ref : byteAt b 37 = BitVec.ofNat 8 p.ref.val := byte 1 (by decide)
  have round : byteAt b 38 = BitVec.ofNat 8 (bit p.round) := byte 2 (by decide)
  have mask : Machine.half b 39 = p.mask := (half 3 (by decide)).trans (bytes_of_half _)
  have target : byteAt b 41 = BitVec.ofNat 8 (endCode p.target) := byte 5 (by decide)
  have force : byteAt b 42 = BitVec.ofNat 8 (bit p.force) := byte 6 (by decide)
  have flags : byteAt b 43 = BitVec.ofNat 8 c.flagBits := byte 7 (by decide)
  have timeout : Machine.half b 44 = c.timeout := (half 8 (by decide)).trans (bytes_of_half _)
  have bare : (c.flagBits == 0 && c.timeout == 0#16) = false := by
    rw [Bool.and_eq_false_iff, beq_eq_false_iff_ne, beq_eq_false_iff_ne]
    exact hbare
  have read : readPropose b = some p := by
    unfold readPropose
    rw [ref, round, mask, target, force, flags, timeout, readBit_bit, readEnd_code, readCond_flagBits]
    dsimp only
    have hlt : (BitVec.ofNat 8 p.ref.val).toNat < 9 := by rw [byte_toNat _ (by omega)]; exact p.ref.isLt
    have back : (⟨(BitVec.ofNat 8 p.ref.val).toNat, hlt⟩ : Fin 9) = p.ref := Fin.ext (byte_toNat _ (by omega))
    have forced : (BitVec.ofNat 8 (bit p.force)).getLsbD 0 = p.force := by cases p.force <;> rfl
    rw [dif_pos hlt, back, bare, forced, Bool.false_and, if_neg (by decide), ← hc]
  unfold readGangMsg
  rw [kind, if_neg (by decide), if_pos rfl, read]

/-! ## The program frame (R3, R4, R8) -/

/-- R8: the bytes of a program frame before its lane. -/
def programHead (f : ProgramFrame) : List Byte :=
  syncWord ++ (be16 f.seq ++ be32 f.stamp ++ be16 (0#4 ++ f.cue) ++ be8 f.transport.code ++ be8 0 ++ [f.beat] ++
    List.replicate 3 0#8)

theorem programHead_length (f : ProgramFrame) : (programHead f).length = 16 := rfl

/-- R8: the covered bytes of a program frame. -/
def programCovered (f : ProgramFrame) : List Byte :=
  be16 f.seq ++ be32 f.stamp ++ be16 (0#4 ++ f.cue) ++ be8 f.transport.code ++ be8 0 ++ [f.beat] ++
    List.replicate 3 0#8 ++ f.lane ++ (f.audio.flatten.flatMap be24)

theorem bytes_eq_seal (f : ProgramFrame) : f.bytes = sealFrame (programCovered f) := rfl

theorem bytes_eq_head (f : ProgramFrame) : f.bytes = programHead f ++
    (f.lane ++ (f.audio.flatten.flatMap be24 ++ be32 (frameCheck (programCovered f)))) := by
  simp only [bytes_eq_seal, sealFrame, programCovered, programHead, List.append_assoc]

theorem flatMap_be24_length (l : List Sample) : (l.flatMap be24).length = 3 * l.length := by
  simp [List.length_flatMap, be24, Nat.mul_comm]

/-- Rows of one length, flat. -/
theorem flatten_length {α : Type} (l : List (List α)) (n : Nat) (h : ∀ p ∈ l, p.length = n) :
    l.flatten.length = n * l.length := by
  induction l with
  | nil => rfl
  | cons q l ih =>
    rw [List.flatten_cons, List.length_append, ih fun p hp => h p (List.mem_cons_of_mem _ hp), h q List.mem_cons_self,
      List.length_cons, Nat.mul_succ, Nat.add_comm]

theorem flatten_getElem {α : Type} (l : List (List α)) (n p i : Nat) (h : ∀ q ∈ l, q.length = n) (hp : p < l.length)
    (hi : i < n) : l.flatten[n * p + i]? = l[p][i]? := by
  induction l generalizing p with
  | nil => exact absurd hp (Nat.not_lt_zero _)
  | cons q l ih =>
    have hq : q.length = n := h q List.mem_cons_self
    rw [List.flatten_cons]
    cases p with
    | zero => rw [Nat.mul_zero, Nat.zero_add, List.getElem?_append_left (by omega)]; rfl
    | succ p =>
      have shift : n * (p + 1) + i - q.length = n * p + i := by rw [hq, Nat.mul_succ]; omega
      rw [List.getElem?_append_right (by rw [hq, Nat.mul_succ]; omega), shift,
        ih p (fun q hq => h q (List.mem_cons_of_mem _ hq)) (Nat.lt_of_succ_lt_succ hp)]
      rfl

section
variable (f : ProgramFrame) (hlane : f.lane.length = 32) (haudio : f.audio.length = 24)
  (hperiod : ∀ p ∈ f.audio, p.length = 64)

include hlane haudio hperiod in
theorem programCovered_length : (programCovered f).length = 4654 := by
  simp only [programCovered, List.length_append, be16_length, be32_length, be8, List.length_replicate, hlane,
    flatMap_be24_length, flatten_length f.audio 64 hperiod, haudio, List.length_cons, List.length_nil]

theorem readForward_seq : (readForward f.bytes).seq = f.seq := bytes_of_half f.seq

include hlane in
theorem readForward_lane : (readForward f.bytes).lane = f.lane := by
  have e : (f.bytes.drop 16).take 32 = f.lane := by
    rw [bytes_eq_head, ← programHead_length f, List.drop_left, ← hlane, List.take_left]
  exact e

/-- A sample's three bytes read back, wherever it stands in a run of samples. -/
theorem word24_flatMap (l : List Sample) (rest : List Byte) (i : Nat) (h : i < l.length) :
    word24 (l.flatMap be24 ++ rest) (3 * i) = l[i] := by
  induction l generalizing i with
  | nil => exact absurd h (Nat.not_lt_zero _)
  | cons x l ih =>
    cases i with
    | zero => exact bytes_of_word24 x
    | succ i => exact ih i (Nat.lt_of_succ_lt_succ h)

theorem word24_append (l m : List Byte) (i : Nat) : word24 (l ++ m) (l.length + i) = word24 m i := by
  unfold word24
  rw [byteAt_append_right, Nat.add_assoc l.length i 1, Nat.add_assoc l.length i 2, byteAt_append_right,
    byteAt_append_right]

include hlane haudio hperiod in
/-- R4: the sample of a period and a slot. -/
theorem frameSample_bytes (p i : Nat) (hp : p < f.audio.length) (hi : i < f.audio[p].length) :
    frameSample f.bytes p i = f.audio[p][i] := by
  have row : f.audio[p].length = 64 := hperiod _ (List.getElem_mem hp)
  have total : f.audio.flatten.length = 64 * 24 := by rw [flatten_length f.audio 64 hperiod, haudio]
  have inside : 64 * p + i < f.audio.flatten.length := by omega
  have sample : f.audio.flatten[64 * p + i] = f.audio[p][i] := by
    have h := flatten_getElem f.audio 64 p i hperiod hp (by omega)
    rwa [List.getElem?_eq_getElem inside, List.getElem?_eq_getElem hi, Option.some_inj] at h
  have head : (programHead f ++ f.lane).length = 48 := by rw [List.length_append, programHead_length, hlane]
  have split : f.bytes = (programHead f ++ f.lane) ++
      (f.audio.flatten.flatMap be24 ++ be32 (frameCheck (programCovered f))) := by
    rw [bytes_eq_head, List.append_assoc]
  rw [frameSample, split, ← head, word24_append, word24_flatMap _ _ _ inside, sample]

include hlane haudio hperiod in
theorem readForward_audio : (readForward f.bytes).audio = f.audio := by
  refine List.ext_getElem (by simp [readForward, haudio]) fun p hp hp' => ?_
  have row : f.audio[p].length = 64 := hperiod _ (List.getElem_mem hp')
  refine List.ext_getElem (by simp [readForward, row]) fun i hi hi' => ?_
  simp only [readForward, List.getElem_map, List.getElem_range]
  exact frameSample_bytes f hlane haudio hperiod p i hp' hi'

include hlane haudio hperiod in
/-- R3, R4, R8: a program frame reads back as a forward frame. -/
theorem programFrame_reads : f.bytes.length = 4660 ∧ goodCheck 4660 f.bytes = true ∧
    (readForward f.bytes).seq = f.seq ∧ (readForward f.bytes).stamp = f.stamp ∧ frameCue (readForward f.bytes) = f.cue ∧
    readTransport (readForward f.bytes).transport = f.transport ∧ (readForward f.bytes).beat = f.beat ∧
    (readForward f.bytes).lane = f.lane ∧ (readForward f.bytes).audio = f.audio ∧
    frameSelfFault (readForward f.bytes) = false ∧ frameReturnPause (readForward f.bytes) = false := by
  have length := programCovered_length f hlane haudio hperiod
  have check := goodCheck_sealFrame (programCovered f)
  rw [length] at check
  have cue : frameCue (readForward f.bytes) = f.cue := by
    have field : (readForward f.bytes).cueField = 0#4 ++ f.cue := bytes_of_half _
    rw [frameCue, field]
    exact BitVec.extractLsb'_append_eq_right
  have flags : (readForward f.bytes).flags = 0#8 := rfl
  refine ⟨?_, check, readForward_seq f, bytes_of_word f.stamp, cue, readTransport_code f.transport, rfl,
    readForward_lane f hlane, readForward_audio f hlane haudio hperiod, ?_, ?_⟩
  · rw [bytes_eq_seal, sealFrame_length, length]
  · rw [frameSelfFault, flags]
    decide
  · rw [frameReturnPause, flags]
    decide
end

end Sys2Proof.Machine
end


section
/-! Table entries read back: the entries that the reads send are those that the writes take (R144, R147, R148). -/

namespace Sys2Proof.Machine

/-! ## Checks that pass (R139) -/

theorem field_bind {α β : Type} (i : Nat) (a : α) (f : α → Except Nat β) : (field i (some a) >>= f) = f a := rfl

theorem require_bind {β : Type} (i : Nat) (f : Unit → Except Nat β) : (require i true >>= f) = f () := rfl

/-! ## Group entries (R147) -/

theorem readWriteGroup_bytes (g : Fin 16) (e : GroupEntry) :
    readCommand .writeGroup (BitVec.ofNat 8 g.val :: e.bytes) none = .ok (.write (.group g e)) := by
  have group : byteAt (BitVec.ofNat 8 g.val :: e.bytes) 0 = BitVec.ofNat 8 g.val := rfl
  have mode : byteAt (BitVec.ofNat 8 g.val :: e.bytes) 1 = BitVec.ofNat 8 e.mode.code := rfl
  have home : byteAt (BitVec.ofNat 8 g.val :: e.bytes) 2 = BitVec.ofNat 8 (rigCode e.home) := rfl
  have mask : byteAt (BitVec.ofNat 8 g.val :: e.bytes) 3 = e.mask := rfl
  have fade : byteAt (BitVec.ofNat 8 g.val :: e.bytes) 4 = BitVec.ofNat 8 e.fade.val := rfl
  have law : byteAt (BitVec.ofNat 8 g.val :: e.bytes) 5 = BitVec.ofNat 8 e.law.code := rfl
  have policy : byteAt (BitVec.ofNat 8 g.val :: e.bytes) 6 = BitVec.ofNat 8 e.policy.code := rfl
  have hold : half (BitVec.ofNat 8 g.val :: e.bytes) 7 = e.hold := bytes_of_half _
  have align : byteAt (BitVec.ofNat 8 g.val :: e.bytes) 9 = BitVec.ofNat 8 (bit e.requireAlign) := rfl
  have resort : byteAt (BitVec.ofNat 8 g.val :: e.bytes) 10 = BitVec.ofNat 8 e.lastResort.code := rfl
  have prot : byteAt (BitVec.ofNat 8 g.val :: e.bytes) 11 = BitVec.ofNat 8 (bit e.isProtected) := rfl
  have ganged : byteAt (BitVec.ofNat 8 g.val :: e.bytes) 12 = BitVec.ofNat 8 (bit e.ganged) := rfl
  unfold readCommand readWriteGroup
  dsimp only
  rw [group, mode, home, mask, fade, law, policy, hold, align, resort, prot, ganged, readGroup16_val, readMode_code,
    readRig_rigCode, readFade_val, readLaw_code, readPolicy_code, readBit_bit, readLastResort_code, readBit_bit,
    readBit_bit]
  rfl

/-! ## Watch entries (R63, R148) -/

theorem readWriteWatch_cause (x : Rig) (c : Fin 8) (e : WatchEntry) (h1 : readP1 c e.p1 = some e.p1)
    (h2 : readP2 c e.p2 = some e.p2) :
    readCommand .writeWatch ([BitVec.ofNat 8 (rigCode x), BitVec.ofNat 8 c.val] ++ e.bytes) none =
      .ok (.write (.watchCause x c e)) := by
  generalize hp : [BitVec.ofNat 8 (rigCode x), BitVec.ofNat 8 c.val] ++ e.bytes = p
  have rig : byteAt p 0 = BitVec.ofNat 8 (rigCode x) := by rw [← hp]; rfl
  have cause : byteAt p 1 = BitVec.ofNat 8 c.val := by rw [← hp]; rfl
  have enabled : byteAt p 2 = BitVec.ofNat 8 (bit e.enabled) := by rw [← hp]; rfl
  have confirm : half p 3 = e.confirm := by rw [← hp]; exact bytes_of_half _
  have clear : half p 5 = e.clear := by rw [← hp]; exact bytes_of_half _
  have p1 : word24 p 7 = e.p1 := by rw [← hp]; exact bytes_of_word24 _
  have p2 : half p 10 = e.p2 := by rw [← hp]; exact bytes_of_half _
  have hlt : (BitVec.ofNat 8 c.val).toNat < 8 := by rw [byte_toNat _ (by omega)]; exact c.isLt
  have back : (⟨(BitVec.ofNat 8 c.val).toNat, hlt⟩ : Fin 8) = c := Fin.ext (byte_toNat _ (by omega))
  have item : readWatchCause p x c = .ok (.write (.watchCause x c e)) := by
    unfold readWatchCause
    rw [enabled, confirm, clear, p1, p2, h1, h2, readBit_bit]
    rfl
  unfold readCommand readWriteWatch
  dsimp only
  rw [rig, cause, readRig_rigCode, field_bind, dif_pos hlt, back, item]

/-! ## Slot lists (R148) -/

theorem readSlots_map (p : List Byte) (i : Nat) (seen slots : List (Fin 64))
    (hp : ∀ k (h : k < slots.length), byteAt p (i - 1 + k) = BitVec.ofNat 8 slots[k].val) (hi : 1 ≤ i)
    (hd : (seen ++ slots).Nodup) : readSlots p i seen slots.length = .ok (seen ++ slots) := by
  induction slots generalizing i seen with
  | nil => rw [List.append_nil]; rfl
  | cons n slots ih =>
    have first : byteAt p (i - 1) = BitVec.ofNat 8 n.val := hp 0 (Nat.succ_pos _)
    have fresh : (!seen.contains n) = true := by
      have distinct := List.disjoint_of_nodup_append hd
      simpa using fun hn => distinct hn List.mem_cons_self
    have rest := ih (i + 1) (seen ++ [n]) (fun k hk => by
      have h := hp (k + 1) (Nat.succ_lt_succ hk)
      rwa [show i - 1 + (k + 1) = i + 1 - 1 + k by omega] at h) (by omega) (by simpa using hd)
    rw [List.length_cons, readSlots, first, readSlot64_val, field_bind, fresh, require_bind, rest, List.append_assoc]
    rfl

theorem readWriteWatch_slots (x : Rig) (slots : List (Fin 64)) (rest : List Byte) (h0 : slots ≠ []) (h4 : slots.length ≤ 4)
    (hd : slots.Nodup) : readCommand .writeWatch ([BitVec.ofNat 8 (rigCode x), 8#8, BitVec.ofNat 8 slots.length] ++
        (slots.map fun n => BitVec.ofNat 8 n.val) ++ rest) none = .ok (.write (.watchSlots x slots)) := by
  generalize hp : [BitVec.ofNat 8 (rigCode x), 8#8, BitVec.ofNat 8 slots.length] ++
    (slots.map fun n => BitVec.ofNat 8 n.val) ++ rest = p
  have rig : byteAt p 0 = BitVec.ofNat 8 (rigCode x) := by rw [← hp]; rfl
  have item : byteAt p 1 = 8#8 := by rw [← hp]; rfl
  have count : (byteAt p 2).toNat = slots.length := by rw [← hp]; exact byte_toNat _ (by omega)
  have h1 : 1 ≤ slots.length := List.length_pos_iff.mpr h0
  have bytes (k : Nat) (h : k < slots.length) : byteAt p (4 - 1 + k) = BitVec.ofNat 8 slots[k].val := by
    rw [← hp, List.append_assoc]
    refine (byteAt_append_right _ _ k).trans ?_
    rw [byteAt_append_left _ _ _ (by simpa using h)]
    simp [byteAt, List.getD_eq_getElem?_getD, h]
  have read := readSlots_map p 4 [] slots bytes (by decide) hd
  have inRange : (decide (1 ≤ slots.length) && decide (slots.length ≤ 4)) = true := by
    rw [decide_eq_true h1, decide_eq_true h4]; rfl
  unfold readCommand readWriteWatch
  dsimp only
  rw [rig, item, readRig_rigCode, field_bind, dif_neg (by decide), beq_self_eq_true, require_bind]
  unfold readWatchSlots
  dsimp only
  rw [count, inRange, require_bind, read]
  rfl

/-! ## Setup (R82, R148) -/

theorem readWriteSetup_bytes (e : Setup) (h48 : 48 ≤ e.fill.toNat) (h1536 : e.fill.toNat ≤ 1536)
    (htol : e.tolerance.toNat ≤ 480) (hhold : e.startHold.toNat ≤ 20000) :
    readCommand .writeSetup (be16 e.fill ++ be16 e.tolerance ++
        [BitVec.ofNat 8 (rigCode e.reference), BitVec.ofNat 8 e.alarm.code] ++ be16 e.startHold) none =
      .ok (.write (.setup e)) := by
  generalize hp : be16 e.fill ++ be16 e.tolerance ++
    [BitVec.ofNat 8 (rigCode e.reference), BitVec.ofNat 8 e.alarm.code] ++ be16 e.startHold = p
  have fill : half p 0 = e.fill := by rw [← hp]; exact bytes_of_half _
  have tolerance : half p 2 = e.tolerance := by rw [← hp]; exact bytes_of_half _
  have reference : byteAt p 4 = BitVec.ofNat 8 (rigCode e.reference) := by rw [← hp]; rfl
  have alarm : byteAt p 5 = BitVec.ofNat 8 e.alarm.code := by rw [← hp]; rfl
  have hold : half p 6 = e.startHold := by rw [← hp]; exact bytes_of_half _
  unfold readCommand readWriteSetup
  dsimp only
  rw [fill, tolerance, reference, alarm, hold, readRig_rigCode, readAlarm_code, decide_eq_true h48, decide_eq_true h1536,
    decide_eq_true htol, decide_eq_true hhold]
  rfl

/-! ## Route entries (R75, R147) -/

/-- R144: the first byte of a route entry. -/
theorem routeByte_fields : ∀ (used : Bool) (g : Fin 16),
    ((BitVec.ofNat 8 (128 * bit used + g.val)).extractLsb' 4 3 == 0#3) = true ∧
      (BitVec.ofNat 8 (128 * bit used + g.val)).getLsbD 7 = used ∧
      ((BitVec.ofNat 8 (128 * bit used + g.val)).extractLsb' 0 4).toFin = g := by decide

/-- R147: an entry that the write takes, at its place in the parameters. -/
theorem readRouteEntry_bytes (p : List Byte) (i : Nat) (e : RouteEntry)
    (h0 : byteAt p (i - 1) = BitVec.ofNat 8 (128 * bit e.used + e.group.val)) (h1 : byteAt p i = slotByte e.slotA)
    (h2 : byteAt p (i + 1) = slotByte e.slotB) (hu : e.used = true → e.slotA ≠ none ∨ e.slotB ≠ none) :
    readRouteEntry p i = .ok e := by
  obtain ⟨reserved, used, group⟩ := routeByte_fields e.used e.group
  have slots : (!(e.used && e.slotA.isNone && e.slotB.isNone)) = true := by
    cases hused : e.used with
    | false => rfl
    | true =>
      rcases hu hused with h | h
      · simp [Option.isNone_eq_false_iff.mpr (Option.isSome_iff_ne_none.mpr h)]
      · simp [Option.isNone_eq_false_iff.mpr (Option.isSome_iff_ne_none.mpr h)]
  unfold readRouteEntry
  dsimp only
  rw [h0, h1, h2, reserved, used, group, readSlot_slotByte, readSlot_slotByte, require_bind, field_bind, field_bind, slots,
    require_bind]
  rfl

theorem readRouteEntries_bytes (es : List RouteEntry) (before : List Byte)
    (hu : ∀ e ∈ es, e.used = true → e.slotA ≠ none ∨ e.slotB ≠ none) :
    readRouteEntries (before ++ es.flatMap fun e => e.bytes) (before.length + 1) es.length = .ok es := by
  induction es generalizing before with
  | nil => rfl
  | cons e es ih =>
    have split : (before ++ (e :: es).flatMap fun e => e.bytes) = (before ++ e.bytes) ++ es.flatMap fun e => e.bytes := by
      rw [List.flatMap_cons, List.append_assoc]
    have rest := ih (before ++ e.bytes) fun e' he' => hu e' (List.mem_cons_of_mem _ he')
    rw [← split, List.length_append, show before.length + e.bytes.length + 1 = before.length + 1 + 3 from rfl] at rest
    have byte (k : Nat) : byteAt (before ++ (e :: es).flatMap fun e => e.bytes) (before.length + k) =
        byteAt ((e :: es).flatMap fun e => e.bytes) k := byteAt_append_right _ _ k
    have entry := readRouteEntry_bytes (before ++ (e :: es).flatMap fun e => e.bytes) (before.length + 1) e
      (byte 0) (byte 1) (byte 2) (hu e List.mem_cons_self)
    rw [List.length_cons, readRouteEntries, entry, rest]
    rfl

theorem readWriteRoute_bytes (first : Nat) (es : List RouteEntry) (h1 : 1 ≤ es.length) (h64 : first + es.length ≤ 64)
    (hu : ∀ e ∈ es, e.used = true → e.slotA ≠ none ∨ e.slotB ≠ none) :
    readCommand .writeRoute ([BitVec.ofNat 8 first, BitVec.ofNat 8 es.length] ++ es.flatMap fun e => e.bytes) none =
      .ok (.write (.route first es)) := by
  have read := readRouteEntries_bytes es [BitVec.ofNat 8 first, BitVec.ofNat 8 es.length] hu
  generalize hp : ([BitVec.ofNat 8 first, BitVec.ofNat 8 es.length] ++ es.flatMap fun e => e.bytes) = p at read
  have hfirst : (byteAt p 0).toNat = first := by rw [← hp]; exact byte_toNat _ (by omega)
  have hcount : (byteAt p 1).toNat = es.length := by rw [← hp]; exact byte_toNat _ (by omega)
  have inTable : decide (first ≤ 63) = true := decide_eq_true (by omega)
  have inRange : (decide (1 ≤ es.length) && decide (es.length ≤ 64)) = true := by
    rw [decide_eq_true h1, decide_eq_true (by omega : es.length ≤ 64)]; rfl
  unfold readCommand readWriteRoute
  dsimp only
  rw [hfirst, hcount, inTable, inRange, decide_eq_true h64]
  have three : [BitVec.ofNat 8 first, BitVec.ofNat 8 es.length].length + 1 = 3 := rfl
  rw [three] at read
  rw [read]
  rfl

end Sys2Proof.Machine
end


section
/-! Where each field stands: the summary, the results of the reads and the gang frame (R6, R7, R111, R142 to R145). -/

namespace Sys2Proof.Machine

/-! ## Tables by their members (R144) -/

theorem cells_eq_map {n : Nat} {α : Type} (t : Tbl n α) : t.cells = (List.finRange n).map t.get := by
  refine List.ext_getElem (by simp [t.len]) fun i h1 h2 => ?_
  simp [Tbl.get]

/-- The numbers from `a` on, `c` of them. -/
theorem finRange_span (n a c : Nat) : ((List.finRange n).drop a).take c =
    (List.finRange n).filter fun k => a ≤ k.val && k.val < a + c := by
  have below : ((List.finRange n).take a).filter (fun k => a ≤ k.val && k.val < a + c) = [] := by
    refine List.filter_eq_nil_iff.mpr fun k hk => ?_
    obtain ⟨i, hi, rfl⟩ := List.mem_take_iff_getElem.mp hk
    simp
    omega
  have inside : (((List.finRange n).drop a).take c).filter (fun k => a ≤ k.val && k.val < a + c) =
      ((List.finRange n).drop a).take c := by
    refine List.filter_eq_self.mpr fun k hk => ?_
    obtain ⟨i, hi, rfl⟩ := List.mem_take_iff_getElem.mp hk
    simp
    omega
  have above : (((List.finRange n).drop a).drop c).filter (fun k => a ≤ k.val && k.val < a + c) = [] := by
    refine List.filter_eq_nil_iff.mpr fun k hk => ?_
    obtain ⟨i, hi, rfl⟩ := List.mem_drop_iff_getElem.mp hk
    simp
  conv_rhs => rw [← List.take_append_drop a (List.finRange n), ← List.take_append_drop c ((List.finRange n).drop a)]
  rw [List.filter_append, List.filter_append, below, inside, above, List.nil_append, List.append_nil]

/-- R144: the entries of a span of a table. -/
theorem cells_span {n : Nat} {α : Type} (t : Tbl n α) (f : α → List Byte) (a c : Nat) :
    ((t.cells.drop a).take c).flatMap f =
      ((List.finRange n).filter fun k => a ≤ k.val && k.val < a + c).flatMap fun k => f (t.get k) := by
  rw [cells_eq_map, ← List.map_drop, ← List.map_take, finRange_span, List.flatMap_map]

theorem cells_flatMap {n : Nat} {α : Type} (t : Tbl n α) (f : α → List Byte) :
    t.cells.flatMap f = (List.finRange n).flatMap fun k => f (t.get k) := by
  rw [cells_eq_map, List.flatMap_map]

/-! ## Bytes and masks -/

theorem frame_low_bytes (w : Word) : be16 (w.extractLsb' 0 16) = [w.extractLsb' 8 8, w.extractLsb' 0 8] := by
  simp [be16, BitVec.extractLsb'_extractLsb'_of_le]

theorem inState_eq (h : Health) (st : CauseState) (m : BitVec 8)
    (hm : ∀ c : Fin 8, m.getLsbD c.val = true ↔ (h.causes.get c).state = st) : m = h.inState st := by
  refine eq_maskOf m _ fun c => ?_
  rw [Bool.eq_iff_iff, hm, beq_iff_eq]

theorem clampOffset_eq (stable : Option Int) (offset : Half)
    (h : offset.toInt = max (-32767) (min 32767 (stable.getD 0))) : offset = clampOffset stable := by
  rw [clampOffset, ← h, BitVec.ofInt_toInt]

theorem beInt_fill (r : Ring) : beInt r.fill = be32 (r.W - r.R) := by
  rw [beInt, Ring.fill, sdiff, BitVec.ofInt_toInt]

/-! ## The summary (R6, R7) and READ_STATUS (R142) -/

theorem summaryBytes_layout (s : Part) (r : Rig) (confirmed : PerRig (BitVec 8)) (offset : Half)
    (hc : ∀ x (c : Fin 8), (confirmed.get x).getLsbD c.val = true ↔ ((s.health.get x).causes.get c).state = .confirmed)
    (ho : offset.toInt = max (-32767) (min 32767 (s.tracker.stable.getD 0))) :
    summaryBytes s r =
      [s.clock.frame.extractLsb' 8 8, s.clock.frame.extractLsb' 0 8,
        BitVec.ofNat 8 (16 * s.gang.role.code + s.gang.state.code),
        BitVec.ofNat 8 (s.lock.level.code + 4 * bit s.lock.key + 8 * bit (relay s) + 16 * sourceCode s.clock.selected),
        BitVec.ofNat 8 (16 * (s.rx.get .A).state.code + (s.health.get .A).health.code), confirmed.a,
        BitVec.ofNat 8 (16 * (s.rx.get .B).state.code + (s.health.get .B).health.code), confirmed.b,
        BitVec.ofNat 8 (16 * s.tracker.state.code + s.tracker.state.whyCode),
        offset.extractLsb' 8 8, offset.extractLsb' 0 8] ++
      ([(0, 1), (2, 3), (4, 5), (6, 7), (8, 9), (10, 11), (12, 13), (14, 15)].map fun (g : Fin 16 × Fin 16) =>
        BitVec.ofNat 8 (16 * (s.groups.get g.1).course.code + (s.groups.get g.2).course.code)) ++
      [BitVec.ofNat 8 (8 - ((s.port.get r).slots.filter fun h => !h.reserved).length), (s.port.get r).refTag,
        BitVec.ofNat 8 (s.port.get r).refReason.code, BitVec.ofNat 8 s.store.save.code,
        BitVec.ofNat 8 (bit s.store.storeValid + 2 * bit (s.port.get r).lane.gapFlag)] := by
  have a : confirmed.a = (s.health.get .A).inState .confirmed := inState_eq _ _ _ (hc .A)
  have b : confirmed.b = (s.health.get .B).inState .confirmed := inState_eq _ _ _ (hc .B)
  rw [a, b, clampOffset_eq _ _ ho, summaryBytes, frame_low_bytes]
  rfl

theorem gapFlag_iff (l : Lane) : l.gapFlag = true ↔
    l.gapPending = true ∨ ∃ m, l.inSend = some m ∧ m.kind = .notice true := by
  unfold Lane.gapFlag
  rw [Bool.or_eq_true]
  refine or_congr Iff.rfl ?_
  cases hm : l.inSend with
  | none => simp
  | some m =>
    obtain ⟨kind, bytes, sent⟩ := m
    cases kind with
    | notice gap => simp
    | response id resets => simp

theorem groupBits_eq (s : Part) (p : GroupRec → Bool) (m : Half)
    (h : ∀ g : Fin 16, m.getLsbD g.val = p (s.groups.get g)) : be16 m = groupBits s p := by
  rw [groupBits, eq_maskOf m _ h]

theorem statusBytes_layout (s : Part) (r : Rig) (failedOver dark bound : Half)
    (h : ∀ g : Fin 16, failedOver.getLsbD g.val = (s.groups.get g).failedOver ∧
      dark.getLsbD g.val = (s.groups.get g).darkByRequest ∧ bound.getLsbD g.val = (s.groups.get g).binding.isSome) :
    statusBytes s r = summaryBytes s r ++ be16 s.tables.setup.fill ++ be16 s.tables.setup.tolerance ++
      [BitVec.ofNat 8 (rigCode s.tables.setup.reference), BitVec.ofNat 8 s.tables.setup.alarm.code] ++
      be16 s.tables.setup.startHold ++ [BitVec.ofNat 8 (bit s.takeover.done + 2 * bit s.panel.bypass)] ++
      be16 failedOver ++ be16 dark ++ be16 bound ++
      [BitVec.ofNat 8 (bit (tally s .A) + 2 * bit (tally s .B) + 4 * bit (alarm s))] := by
  rw [groupBits_eq s (fun r => r.failedOver) failedOver fun g => (h g).1,
    groupBits_eq s (fun r => r.darkByRequest) dark fun g => (h g).2.1,
    groupBits_eq s (fun r => r.binding.isSome) bound fun g => (h g).2.2]
  simp only [statusBytes, be8, List.append_assoc, List.cons_append, List.nil_append]

/-! ## READ_ALIGN (R145) -/

theorem alignBytes_layout (s : Part) (flags : Byte) (meas corr : List Byte)
    (hf : flags = BitVec.ofNat 8
      (bit s.tracker.stable.isSome + 2 * bit s.tracker.lastMeas.isSome + 4 * bit s.tracker.lastCorr.isSome))
    (hm : (∃ m frame, s.tracker.lastMeas = some (m, frame) ∧ meas = be32 (BitVec.ofInt 32 m) ++ be32 frame) ∨
      (s.tracker.lastMeas = none ∧ meas = List.replicate 8 0#8))
    (hc : (∃ c, s.tracker.lastCorr = some c ∧ corr =
        [BitVec.ofNat 8 (rigCode c.side)] ++ be32 (BitVec.ofInt 32 c.m) ++ be32 (BitVec.ofInt 32 c.applied)) ∨
      (s.tracker.lastCorr = none ∧ corr = List.replicate 9 0#8)) :
    alignBytes s = [BitVec.ofNat 8 s.tracker.state.code, BitVec.ofNat 8 s.tracker.state.whyCode, flags] ++
      be32 (BitVec.ofInt 32 (s.tracker.stable.getD 0)) ++ meas ++
      be32 ((s.ring.get .A).W - (s.ring.get .A).R) ++ be32 ((s.ring.get .B).W - (s.ring.get .B).R) ++
      be32 (BitVec.ofInt 32 s.tracker.residual) ++ corr := by
  subst hf
  rw [← beInt_fill, ← beInt_fill]
  unfold alignBytes
  dsimp only
  rcases hm with ⟨m, frame, hm, rfl⟩ | ⟨hm, rfl⟩ <;> rcases hc with ⟨c, hc, rfl⟩ | ⟨hc, rfl⟩ <;> rw [hm, hc] <;> rfl

/-! ## The gang frame (R111) -/

/-- R109, R111: the ganged mask and the board are those of the link's role. -/
theorem gangCovered_layout (s : Part) (m : GangMsg) (ganged : Half) (board : List Byte)
    (hg : ∀ g : Fin 16, ganged.getLsbD g.val = true ↔ s.gang.role ≠ .solo ∧ (groupEntry s g).ganged = true)
    (hb : board = if s.gang.role = .leader then
        (List.finRange 8).flatMap fun k => (s.gang.board.get k).bytes
      else List.replicate 16 0#8) :
    gangCovered s m = [BitVec.ofNat 8 s.gang.role.code, BitVec.ofNat 8 s.gang.state.code] ++ be32 s.clock.frame ++
      [(s.health.get .A).published, (s.health.get .B).published] ++ be16 ganged ++
      ([(0, 1), (2, 3), (4, 5), (6, 7), (8, 9), (10, 11), (12, 13), (14, 15)].map fun (g : Fin 16 × Fin 16) =>
        BitVec.ofNat 8 (16 * (s.groups.get g.1).course.code + (s.groups.get g.2).course.code)) ++
      board ++ m.bytes ++ [0#8, 0#8, 0#8, 0#8] := by
  have mask : ganged = if s.gang.role = .solo then 0#16 else maskOf 16 fun g => (groupEntry s g).ganged := by
    split
    next hs =>
      refine BitVec.eq_of_getLsbD_eq fun i hi => ?_
      have h := hg ⟨i, hi⟩
      simpa [hs] using h
    next hs =>
      refine eq_maskOf ganged _ fun g => ?_
      rw [Bool.eq_iff_iff, hg g]
      exact and_iff_right hs
  rw [mask, hb]
  rfl

/-- R111: a board entry by its round and its state. -/
theorem board_eq (t : Tbl 8 BoardEntry) : ((List.finRange 8).flatMap fun k => match t.get k with
    | ⟨round, .idle⟩ => [BitVec.ofNat 8 (128 * bit round), 0#8]
    | ⟨round, .held _ _⟩ => [BitVec.ofNat 8 (128 * bit round + 1), 0#8]
    | ⟨round, .answered st⟩ => [BitVec.ofNat 8 (128 * bit round + 2), BitVec.ofNat 8 st.code]) =
      (List.finRange 8).flatMap fun k => (t.get k).bytes := by
  refine congrArg (List.flatMap · (List.finRange 8)) (funext fun k => ?_)
  obtain ⟨round, state⟩ := t.get k
  cases state <;> rfl

/-! ## Codes (R7, R78, R90) -/

theorem fadingCode (f : Fade) : Course.code (.fading f) = match f.kind with
    | .aToB => 3 | .bToA => 4 | .aToDark => 5 | .bToDark => 6 | .darkToA => 7 | .darkToB => 8 := by
  obtain ⟨kind, _, _, _, _, _, _⟩ := f
  cases kind <;> rfl

theorem routeEntry_bytes (e : RouteEntry) : e.bytes = [BitVec.ofNat 8 (128 * bit e.used + e.group.val),
    match e.slotA with | some n => BitVec.ofNat 8 n.val | none => 0xFF#8,
    match e.slotB with | some n => BitVec.ofNat 8 n.val | none => 0xFF#8] := by
  obtain ⟨used, slotA, slotB, group⟩ := e
  cases slotA <;> cases slotB <;> rfl

/-- Settles O60: the frames, then the entries, then the places of the fields. -/
theorem writtenRecordsReadBack : Obligations.WrittenRecordsReadBack := by
  refine ⟨programFrame_reads, fun s m hl hq hm => ⟨goodCheck_gangFrame s (.move m), readGangMsg_move s m hl hq hm⟩,
    readGangMsg_answer, readGangMsg_propose, readWriteGroup_bytes, readWriteWatch_cause, readWriteRoute_bytes,
    readWriteSetup_bytes, readWriteWatch_slots, ?_, summaryBytes_layout, gapFlag_iff, statusBytes_layout, fun _ _ => rfl, ?_,
    alignBytes_layout, ?_, fun s first count => ⟨?_, ?_⟩, ?_, routeEntry_bytes, fun _ => rfl, fun _ => rfl, ?_,
    fun _ => rfl, fun _ => rfl⟩
  · exact ⟨rfl, rfl, rfl, rfl, rfl, rfl, rfl, rfl, rfl, fadingCode, rfl, rfl, rfl⟩
  · rintro s x c rfl
    rfl
  · intro s m ganged board hg hb
    refine gangCovered_layout s m ganged board hg (hb.trans ?_)
    exact congrArg (fun l => if s.gang.role = .leader then l else List.replicate 16 0#8) (board_eq s.gang.board)
  · exact congrArg _ (cells_span s.tables.routes (fun e => e.bytes) first count)
  · exact congrArg _ (cells_span s.tables.groups (fun e => e.bytes) first count)
  · rintro s x w rfl
    rw [watchBytes, cells_flatMap]
    simp only [slotListBytes, be8, List.append_assoc]
  · exact ⟨rfl, rfl, rfl, rfl, rfl, rfl⟩

end Sys2Proof.Machine
end


section
/-! The rings: what each operation leaves of their records (R28, R30, R34), and the fill after a write (R31, R35). -/

namespace Sys2Proof.Machine

/-! ## The records of one ring (R28) -/

theorem Ring.wf_initial : Ring.initial.wf :=
  ⟨Nat.zero_le _, Nat.zero_le _, Nat.zero_le _, fun _ hi => absurd hi (Nat.not_lt_zero _)⟩

/-- R34: a flush leaves the records, of which none is readable. -/
theorem Ring.flush_wf {r : Ring} (h : r.wf) : r.flush.wf := by
  obtain ⟨hlen, _, _, hstart⟩ := h
  exact ⟨hlen, Nat.zero_le _, Nat.zero_le _, hstart⟩

/-- R30: a frame stored at W stands one behind the others below the new W. -/
theorem Ring.wf_of_stored {r r' : Ring} (rep : Report) (h : r.wf) (hW : r'.W = r.W + 24#32)
    (hH : r'.H = min (r.H + 24) 3072) (hf : r'.frames = r.recordOf rep :: r.frames.take 127) : r'.wf := by
  obtain ⟨hlen, hframes, h3072, hstart⟩ := h
  obtain ⟨W, R, V, H, frames⟩ := r'
  subst hW hH hf
  refine ⟨?_, ?_, Nat.min_le_right _ _, fun i hi => ?_⟩
  · simp only [List.length_cons, List.length_take]
    omega
  · simp only [List.length_cons, List.length_take]
    omega
  · cases i with
    | zero => simp [Ring.recordOf]
    | succ i =>
      simp only [List.length_cons, List.length_take] at hi
      have hi' : i < r.frames.length := by omega
      have back : BitVec.ofNat 32 (24 * (i + 1 + 1)) = BitVec.ofNat 32 (24 * (i + 1)) + 24#32 := by
        rw [Nat.mul_succ, BitVec.ofNat_add]
      rw [List.getElem_cons_succ, List.getElem_take, hstart i hi', back]
      ring

theorem Ring.take_wf {r : Ring} (rep : Report) (D : Half) (h : r.wf) : (r.take rep D).1.wf := by
  cases hr : rep.relock
  case false => rw [take_plain _ _ _ hr]; exact Ring.wf_of_stored rep h rfl rfl rfl
  case true => rw [take_relock _ _ _ hr]; exact Ring.wf_of_stored rep h rfl rfl rfl

/-! ## The records of both rings -/

/-- From `s` to `t` each ring keeps well-formed records. -/
structure RingsKeep (s t : Part) : Prop where
  wf : ∀ x, (s.ring.get x).wf → (t.ring.get x).wf

theorem RingsKeep.refl (s : Part) : RingsKeep s s := ⟨fun _ => id⟩

theorem RingsKeep.trans {s t u : Part} (h : RingsKeep s t) (k : RingsKeep t u) : RingsKeep s u :=
  ⟨fun x => k.wf x ∘ h.wf x⟩

theorem Same.ringsKeep {F : List Block} {s t : Part} (h : Same F s t) (hF : F.contains .ring = false) : RingsKeep s t := by
  have e : t.ring = s.ring := h.get .ring hF
  exact ⟨fun x => by rw [e]; exact id⟩

theorem RingsKeep.ite {s a b : Part} {p : Prop} [Decidable p] (ha : RingsKeep s a) (hb : RingsKeep s b) :
    RingsKeep s (if p then a else b) := by
  split
  · exact ha
  · exact hb

theorem RingsKeep.when {s a : Part} {p : Prop} [Decidable p] (h : RingsKeep s a) : RingsKeep s (if p then a else s) :=
  .ite h (.refl s)

theorem unlessReset_ringsKeep {f : Part → Part} (s : Part) (h : RingsKeep s (f s)) : RingsKeep s (unlessReset f s) :=
  .ite (.refl s) h

theorem whenRx_ringsKeep {f : Part → Part} (r : Rig) (st : RxState) (s : Part) (h : RingsKeep s (f s)) :
    RingsKeep s (whenRx r st f s) := .when h

/-- A part whose rings a reset has emptied (R28). -/
theorem ringsKeep_of_initial {s t : Part} (h : t.ring = PerRig.both Ring.initial) : RingsKeep s t :=
  ⟨fun x _ => by rw [h, PerRig.get_both]; exact Ring.wf_initial⟩

theorem setRing_ringsKeep (r : Rig) (x : Ring) (s : Part) (h : (s.ring.get r).wf → x.wf) : RingsKeep s (s.setRing r x) :=
  ⟨fun y hy => by
    rw [setRing_ring, PerRig.get_set]
    split
    next e => exact h (e ▸ hy)
    next => exact hy⟩

/-! ## The operations -/

theorem flushRing_ringsKeep (r : Rig) (s : Part) : RingsKeep s (flushRing r s) :=
  (setRing_ringsKeep r _ s Ring.flush_wf).trans ((clearHistory_same _).ringsKeep rfl)

theorem writeFrame_ringsKeep (r : Rig) (rep : Report) (s : Part) : RingsKeep s (writeFrame r rep s) :=
  ⟨fun y hy => by
    rw [writeFrame_ring]
    exact (setRing_ringsKeep r _ s (Ring.take_wf rep s.tables.setup.fill)).wf y hy⟩

theorem leaveLocked_ringsKeep (r : Rig) (st : RxState) (s : Part) : RingsKeep s (leaveLocked r st s) :=
  ⟨fun y hy => by
    rw [leaveLocked_ring]
    exact (setRing_ringsKeep r _ s Ring.flush_wf).wf y hy⟩

theorem takeGood_ringsKeep (r : Rig) (f : ForwardFrame) (relock : Bool) (s : Part) :
    RingsKeep s (takeGood r f relock s) :=
  (((setRx_same _ _ _).ringsKeep rfl).trans (writeFrame_ringsKeep _ _ _)).trans ((handChunk_same _ _ _).ringsKeep rfl)

theorem takeBad_ringsKeep (r : Rig) (s : Part) : RingsKeep s (takeBad r s) := by
  have recorded := ((handLoss_same r s).ringsKeep rfl).trans ((setRx_same r (s.rx.get r).takeBad _).ringsKeep rfl)
  unfold takeBad
  dsimp only
  split
  · exact recorded.trans (writeFrame_ringsKeep _ _ _)
  · exact recorded

theorem fillFrame_ringsKeep (r : Rig) (s : Part) : RingsKeep s (fillFrame r s) := by
  have recorded : RingsKeep s (s.setRx r (s.rx.get r).fill) := (setRx_same _ _ _).ringsKeep rfl
  unfold fillFrame
  dsimp only
  split
  · exact recorded.trans (writeFrame_ringsKeep _ _ _)
  · exact recorded

theorem fillFrames_ringsKeep (r : Rig) (k : Nat) (s : Part) : RingsKeep s (fillFrames r k s) := by
  induction k generalizing s with
  | zero => exact .refl s
  | succ k ih => exact (fillFrame_ringsKeep r s).trans (ih _)

theorem takeGap_ringsKeep (r : Rig) (k : Nat) (f : ForwardFrame) (s : Part) : RingsKeep s (takeGap r k f s) :=
  (((handLoss_same _ _).ringsKeep rfl).trans (fillFrames_ringsKeep _ _ _)).trans (takeGood_ringsKeep _ _ _ _)

theorem takeResync_ringsKeep (r : Rig) (f : ForwardFrame) (s : Part) : RingsKeep s (takeResync r f s) :=
  ((((handLoss_same _ _).ringsKeep rfl).trans (flushRing_ringsKeep _ _)).trans ((setRx_same _ _ _).ringsKeep rfl)).trans
    (takeGood_ringsKeep _ _ _ _)

theorem verifyGood_ringsKeep (r : Rig) (f : ForwardFrame) (s : Part) : RingsKeep s (verifyGood r f s) := by
  have recorded (rx : Receiver) : RingsKeep s (s.setRx r rx) := (setRx_same _ _ _).ringsKeep rfl
  exact RingsKeep.ite ((recorded _).trans (takeGood_ringsKeep _ _ _ _))
    ((recorded _).trans ((handChunk_same _ _ _).ringsKeep rfl))

theorem activityLost_ringsKeep (r : Rig) (s : Part) : RingsKeep s (activityLost r s) := by
  cases h : (s.rx.get r).state
  case locked =>
    rw [activityLost_of_locked r s h]
    exact ((setRx_same _ _ _).ringsKeep rfl).trans (leaveLocked_ringsKeep _ _ _)
  case verifying =>
    rw [activityLost_of_verifying r s h]
    exact (((setRx_same _ _ _).ringsKeep rfl).trans ((handLoss_same _ _).ringsKeep rfl)).trans
      ((setRx_same _ _ _).ringsKeep rfl)
  case hunting =>
    rw [activityLost_of_idle r s (.inl h)]
    exact (setRx_same _ _ _).ringsKeep rfl
  case noSignal =>
    rw [activityLost_of_idle r s (.inr h)]
    exact (setRx_same _ _ _).ringsKeep rfl

theorem samplePeriod_ringsKeep (s : Part) : RingsKeep s (samplePeriod s) :=
  ⟨fun x h => by rw [samplePeriod_ring]; exact h⟩

/-! ## The boundary -/

theorem commandReset_ring (l : Lines) (s : Part) : (commandReset l s).ring = PerRig.both Ring.initial :=
  (endReset_same l _).get .ring rfl

theorem openBoundary_ringsKeep (l : Lines) (s : Part) : RingsKeep s (openBoundary l s) := by
  have opened (u : Part) : RingsKeep u (promote (owedTurn (adoptTurn (countTurn u)))) :=
    ((((countTurn_same u).ringsKeep rfl).trans ((adoptTurn_same _).ringsKeep rfl)).trans
      ((owedTurn_same _).ringsKeep rfl)).trans ((promote_same _).ringsKeep rfl)
  unfold openBoundary
  dsimp only
  refine RingsKeep.trans ?_ (opened _)
  exact RingsKeep.ite (ringsKeep_of_initial (commandReset_ring _ _)) ((endFrames_same s).ringsKeep rfl)

/-- R32: the underrun check moves the cursor alone. -/
theorem underrunTurn_ringsKeep (x : Rig) (s : Part) : RingsKeep s (underrunTurn x s) :=
  RingsKeep.when ((setRing_ringsKeep x (s.ring.get x).underrun s id).trans ((setRx_same _ _ _).ringsKeep rfl))

theorem watchTurn_ringsKeep (ord : Order) (b : PerRig Health) (s : Part) : RingsKeep s (watchTurn ord b s) :=
  (((underrunTurn_ringsKeep .A s).trans (underrunTurn_ringsKeep .B _)).trans
    ((watchRig_same _ _ _ _ _).ringsKeep rfl)).trans ((watchRig_same _ _ _ _ _).ringsKeep rfl)

theorem loseLock_ringsKeep (x : Rig) (loss : Option LockLoss) (s : Part) : RingsKeep s (loseLock x loss s) := by
  unfold loseLock
  split
  · exact .when (activityLost_ringsKeep _ _)
  · exact .when (leaveLocked_ringsKeep _ _ _)
  · exact .refl s

/-- R37: a move request moves the cursor alone. -/
theorem moveRing_ringsKeep (x : Rig) (m : Int) (s : Part) : RingsKeep s (moveRing x m s) :=
  .when (setRing_ringsKeep x _ s id)

theorem trackerTurn_ringsKeep (ord : Order) (s : Part) : RingsKeep s (trackerTurn ord s) := by
  have lost (t : Tracker) : RingsKeep s (lossTurn ord { s with tracker := t }) :=
    (((withTracker_same t s).ringsKeep rfl).trans (loseLock_ringsKeep _ _ _)).trans (loseLock_ringsKeep _ _ _)
  unfold trackerTurn
  dsimp only
  split
  · exact (((lost _).trans (moveRing_ringsKeep _ _ _)).trans ((withTracker_same _ _).ringsKeep rfl)).trans
      ((raiseAlign_same _ _ _ _).ringsKeep rfl)
  · exact ((lost _).trans ((withTracker_same _ _).ringsKeep rfl)).trans ((raiseAlign_same _ _ _ _).ringsKeep rfl)

theorem boundaryTurns_ringsKeep (l : Lines) (ord : Order) (s : Part) : RingsKeep s (boundaryTurns l ord s) := by
  have clocked : RingsKeep s (clockTurn (matchTurn (writesTurn (keyTurn l.key s)))) :=
    ((((keyTurn_same _ s).ringsKeep rfl).trans ((writesTurn_same _).ringsKeep rfl)).trans
      ((matchTurn_same _).ringsKeep rfl)).trans ((clockTurn_same _).ringsKeep rfl)
  exact (((clocked.trans (watchTurn_ringsKeep _ _ _)).trans (trackerTurn_ringsKeep _ _)).trans
    ((switchTurn_same _ _ _).ringsKeep rfl)).trans ((gangTurn_same _).ringsKeep rfl)

theorem boundary_ringsKeep (l : Lines) (ord : Order) (s : Part) : RingsKeep s (boundary l ord s) := by
  rw [boundary_eq]
  exact (((openBoundary_ringsKeep l s).trans ((framesBefore_same _ _).ringsKeep rfl)).trans
    (boundaryTurns_ringsKeep _ _ _)).trans ((framesAfter_same _ _).ringsKeep rfl)

/-! ## Every command -/

theorem powerOn_ring (l : Lines) (s : Part) : (powerOn l s).ring = PerRig.both Ring.initial := by
  cases h : s.inReset
  case false =>
    rw [powerOn_of_running l s h]
    exact (endReset_blocksReset l _ (powerCleared_blocksReset s)).ring
  case true =>
    rw [powerOn_of_asserted l s h]
    exact (powerCleared_blocksReset s).ring

/-- R28, R30, R34: each command keeps the records of the rings; those that write, flush or move one do it by the ring's own
operations, and a reset empties both. -/
theorem partAfter_ringsKeep (c : Instr) (s : State) : RingsKeep s.toPart (partAfter c s) := by
  cases c with
  | powerOnReset l => exact ringsKeep_of_initial (powerOn_ring l s.toPart)
  | lineResetAssert => exact unlessReset_ringsKeep _ (ringsKeep_of_initial rfl)
  | lineResetEnd l => exact .when ((endReset_same _ _).ringsKeep rfl)
  | commandReset l => exact unlessReset_ringsKeep _ (.when (ringsKeep_of_initial (commandReset_ring _ _)))
  | localFrameBoundary l ord => exact unlessReset_ringsKeep _ (boundary_ringsKeep _ _ _)
  | outputSamplePeriod => exact unlessReset_ringsKeep _ (samplePeriod_ringsKeep _)
  | lineActivityLost x => exact .ite ((setRx_same _ _ _).ringsKeep rfl) (activityLost_ringsKeep _ _)
  | verifyGoodFrame x f => exact unlessReset_ringsKeep _ (whenRx_ringsKeep _ _ _ (verifyGood_ringsKeep _ _ _))
  | goodFrame x f => exact unlessReset_ringsKeep _ (whenRx_ringsKeep _ _ _ (.when (takeGood_ringsKeep _ _ _ _)))
  | badCheckFrame x => exact unlessReset_ringsKeep _ (whenRx_ringsKeep _ _ _ (takeBad_ringsKeep _ _))
  | missingSyncWord x =>
    refine unlessReset_ringsKeep _ (whenRx_ringsKeep _ _ _ (.ite (leaveLocked_ringsKeep _ _ _) ?_))
    exact (takeBad_ringsKeep _ _).trans ((setRx_same _ _ _).ringsKeep rfl)
  | sequenceGap x f => exact unlessReset_ringsKeep _ (whenRx_ringsKeep _ _ _ (.when (takeGap_ringsKeep _ _ _ _)))
  | resync x f => exact unlessReset_ringsKeep _ (whenRx_ringsKeep _ _ _ (.when (takeResync_ringsKeep _ _ _)))
  | unknownCommand r t code b => exact unlessReset_ringsKeep _ ((intake_same _ _ _).ringsKeep rfl)
  | _ => exact (partAfter_same _ s).ringsKeep rfl

/-- Settles O7. -/
theorem ringsStayWellFormed : Obligations.RingsStayWellFormed := fun s t hs hstep =>
  step_keeps (P := ringsOk) (fun c s hs x => (partAfter_ringsKeep c s).wf x (hs x)) s t hs hstep

/-! ## The fill (R31) -/

/-- The signed value of a word that a small distance does not carry out of range (Conventions, Counts and differences). -/
theorem toInt_add_ofInt (w : Word) (k : Int) (hlo : -2147483648 ≤ w.toInt + k) (hhi : w.toInt + k < 2147483648) :
    (w + BitVec.ofInt 32 k).toInt = w.toInt + k := by
  rw [BitVec.toInt_add, BitVec.toInt_ofInt, Int.add_bmod_bmod]
  exact Int.bmod_eq_of_le (by omega) (by omega)

theorem Ring.fill_bounds (r : Ring) : -2147483648 ≤ r.fill ∧ r.fill < 2147483648 := by
  have lo := BitVec.le_toInt (r.W - r.R)
  have hi := BitVec.toInt_lt (x := r.W - r.R)
  exact ⟨lo, hi⟩

/-- R31: the fill of a ring whose indices stand `k` further apart than those of `r`. -/
theorem Ring.fill_of_apart {r r' : Ring} {k : Int} (h : r'.W - r'.R = r.W - r.R + BitVec.ofInt 32 k)
    (hlo : -2147483648 ≤ r.fill + k) (hhi : r.fill + k < 2147483648) : r'.fill = r.fill + k := by
  unfold Ring.fill sdiff at *
  rw [h]
  exact toInt_add_ofInt _ _ hlo hhi

/-- Settles O34: a plain write moves W, and R with it where the ring is full; a relock places R by the fill target. -/
theorem writesKeepTheFillBounded : Obligations.WritesKeepTheFillBounded := by
  intro r rep D
  obtain ⟨hlo, -⟩ := r.fill_bounds
  refine ⟨fun hr hfill => ?_, fun hr => ?_⟩
  · have full (h : 3048 < r.fill) : (r.take rep D).1.fill = r.fill ∧ (r.take rep D).2 = true := by
      refine ⟨?_, decide_eq_true h⟩
      have apart : (r.take rep D).1.W - (r.take rep D).1.R = r.W - r.R := by
        rw [take_plain _ _ _ hr]
        simp only [h, if_true]
        ring
      simp only [Ring.fill, sdiff, apart]
    have room (h : r.fill ≤ 3048) : (r.take rep D).1.fill = r.fill + 24 ∧ (r.take rep D).2 = false := by
      refine ⟨Ring.fill_of_apart ?_ (by omega) (by omega), decide_eq_false (by omega)⟩
      rw [take_plain _ _ _ hr]
      simp only [show ¬3048 < r.fill by omega, if_false]
      have k : BitVec.ofInt 32 24 = 24#32 := rfl
      rw [k]
      ring
    refine ⟨?_, room, full⟩
    by_cases h : r.fill ≤ 3048
    · rw [(room h).1]; omega
    · rw [(full (by omega)).1]; exact hfill
  · rw [take_relock _ _ _ hr]
    refine ⟨?_, rfl⟩
    have apart : r.W + 24#32 - (r.W + 24#32 - D.setWidth 32) = D.setWidth 32 := by ring
    have hD := D.isLt
    simp only [Ring.fill, sdiff, apart]
    rw [BitVec.toInt_eq_toNat_cond, BitVec.toNat_setWidth]
    omega

end Sys2Proof.Machine
end


section
/-! The Alignment Tracker's turn: the receivers that leave LOCKED inside it (R11, R16, R37; log 38), and the turn by the side it
moves (R41 to R51). -/

namespace Sys2Proof.Machine

/-! ## Receivers that leave LOCKED inside a boundary (log 38) -/

/-- R11, R16: the state in which a loss of LOCKED leaves a receiver. -/
def lossState (loss : Option LockLoss) : RxState := if loss = some .activity then .noSignal else .hunting

/-- R11, R16: a receiver with the line as the loss of LOCKED shows it. -/
def Receiver.lineAt (rx : Receiver) (loss : Option LockLoss) : Receiver :=
  { rx with activity := if loss = some .activity then false else rx.activity }

theorem loseLock_of_losesAt (ord : Order) (x : Rig) (s : Part) (h : losesAt ord s x) :
    loseLock x (lossOf ord x) s =
      leaveLocked x (lossState (lossOf ord x)) (s.setRx x ((s.rx.get x).lineAt (lossOf ord x))) := by
  obtain ⟨hl, hloss | ⟨hloss, hm⟩⟩ := h
  · rw [hloss, loseLock, if_pos (by simp [isLocked, hl]), activityLost_of_locked x s hl]
    rfl
  · rw [hloss, loseLock, if_pos (by simp [isLocked, hl, hm])]
    exact congrArg (leaveLocked x .hunting) (setRx_self x s).symm

/-- What a lost lock keeps, the losses of a boundary keep. -/
theorem lossTurn_keeps {R : Part → Part → Prop} (refl : ∀ s, R s s) (trans : ∀ {s t u}, R s t → R t u → R s u)
    (leave : ∀ x st rx s, R s (leaveLocked x st (s.setRx x rx))) (ord : Order) (s : Part) : R s (lossTurn ord s) := by
  have lose (x : Rig) (u : Part) : R u (loseLock x (lossOf ord x) u) := by
    by_cases h : losesAt ord u x
    · rw [loseLock_of_losesAt ord x u h]
      exact leave _ _ _ _
    · rw [loseLock_of_not_losesAt ord x u h]
      exact refl u
  exact trans (lose .A s) (lose .B _)

theorem losesAt_congr {ord : Order} {s t : Part} {x : Rig} (h : t.rx.get x = s.rx.get x) :
    losesAt ord t x ↔ losesAt ord s x := by
  unfold losesAt
  rw [h]

theorem loseLock_otherStands (ord : Order) (x : Rig) (s : Part) : OtherStands x s (loseLock x (lossOf ord x) s) := by
  by_cases h : losesAt ord s x
  · rw [loseLock_of_losesAt ord x s h]
    exact (setRx_otherStands x s _).trans (leaveLocked_otherStands _ _ _)
  · rw [loseLock_of_not_losesAt ord x s h]
    exact .refl x s

theorem lossTurn_A (ord : Order) (s : Part) : (lossTurn ord s).rx.get .A = (loseLock .A (lossOf ord .A) s).rx.get .A ∧
    (lossTurn ord s).ring.get .A = (loseLock .A (lossOf ord .A) s).ring.get .A := by
  have stands := loseLock_otherStands ord .B (loseLock .A (lossOf ord .A) s)
  exact ⟨stands.rx, stands.ring⟩

section
variable (ord : Order) (s : Part) (x : Rig)

theorem loseLock_rx (h : losesAt ord s x) : (loseLock x (lossOf ord x) s).rx.get x =
    ((s.rx.get x).lineAt (lossOf ord x)).unlocked (lossState (lossOf ord x)) := by
  rw [loseLock_of_losesAt ord x s h, leaveLocked_rx, PerRig.get_set_self, setRx_rx, PerRig.get_set_self]

theorem loseLock_ring (h : losesAt ord s x) : (loseLock x (lossOf ord x) s).ring.get x = (s.ring.get x).flush := by
  rw [loseLock_of_losesAt ord x s h, leaveLocked_ring, PerRig.get_set_self]
  rfl

/-- R19, R34: the receiver and the ring of a rig that leaves LOCKED. -/
theorem lossTurn_of_losesAt (h : losesAt ord s x) :
    (lossTurn ord s).rx.get x = ((s.rx.get x).lineAt (lossOf ord x)).unlocked (lossState (lossOf ord x)) ∧
      (lossTurn ord s).ring.get x = (s.ring.get x).flush := by
  cases x with
  | A =>
    obtain ⟨rx, ring⟩ := lossTurn_A ord s
    exact ⟨rx.trans (loseLock_rx ord s .A h), ring.trans (loseLock_ring ord s .A h)⟩
  | B =>
    have stands := loseLock_otherStands ord .A s
    have rx : (loseLock .A (lossOf ord .A) s).rx.get .B = s.rx.get .B := stands.rx
    have ring : (loseLock .A (lossOf ord .A) s).ring.get .B = s.ring.get .B := stands.ring
    have h' := (losesAt_congr rx).mpr h
    refine ⟨(loseLock_rx ord _ .B h').trans ?_, (loseLock_ring ord _ .B h').trans ?_⟩
    · rw [rx]
    · rw [ring]

theorem lossTurn_of_not_losing (h : ¬losesAt ord s x) :
    (lossTurn ord s).rx.get x = s.rx.get x ∧ (lossTurn ord s).ring.get x = s.ring.get x := by
  cases x with
  | A =>
    have stands := lossTurn_A ord s
    rwa [loseLock_of_not_losesAt ord .A s h] at stands
  | B =>
    have stands := loseLock_otherStands ord .A s
    have rx : (loseLock .A (lossOf ord .A) s).rx.get .B = s.rx.get .B := stands.rx
    rw [lossTurn, loseLock_of_not_losesAt ord .B _ (fun k => h ((losesAt_congr rx).mp k))]
    exact ⟨rx, stands.ring⟩

/-- R43: the tracker of a part in which a receiver leaves LOCKED. -/
theorem lossTurn_tracker (h : losesAt ord s x) : (lossTurn ord s).tracker = { s.tracker with history := [] } := by
  have lost (u : Part) (y : Rig) (hy : losesAt ord u y) :
      (loseLock y (lossOf ord y) u).tracker = { u.tracker with history := [] } := by
    rw [loseLock_of_losesAt ord y u hy, leaveLocked_tracker]
    rfl
  by_cases hB : losesAt ord (loseLock .A (lossOf ord .A) s) .B
  · rw [lossTurn, lost _ _ hB]
    by_cases hA : losesAt ord s .A
    · rw [lost _ _ hA]
    · rw [loseLock_of_not_losesAt ord .A s hA]
  · have rx : (loseLock .A (lossOf ord .A) s).rx.get .B = s.rx.get .B := (loseLock_otherStands ord .A s).rx
    have hA : losesAt ord s .A := by
      cases x with
      | A => exact h
      | B => exact absurd ((losesAt_congr rx).mpr h) hB
    rw [lossTurn, loseLock_of_not_losesAt ord .B _ hB, lost _ _ hA]
end

theorem isLocked_lossTurn (ord : Order) (s : Part) (x : Rig) :
    isLocked (lossTurn ord s) x = true ↔ (s.rx.get x).state = .locked ∧ ¬losesAt ord s x := by
  by_cases h : losesAt ord s x
  · rw [isLocked, (lossTurn_of_losesAt ord s x h).1]
    cases hl : lossOf ord x with
    | none => simp [Receiver.unlocked, lossState, h]
    | some k => cases k <;> simp [Receiver.unlocked, lossState, h]
  · rw [isLocked, (lossTurn_of_not_losing ord s x h).1]
    simp [h]

/-! ## The turn (R41 to R51) -/

section
variable (ord : Order) (s : Part)

/-- R41: the class of this boundary. -/
def offerClass : OfferClass :=
  classify (isLocked s .A) (isLocked s .B) (s.ring.get .A).yield (s.ring.get .B).yield

/-- R41 to R45: the tracker with this boundary's measurement, as it derives from it. -/
def derivedTracker : Tracker :=
  (s.tracker.note (offerClass s) (s.ring.get .A).yield (s.ring.get .B).yield s.clock.frame).derive (offerClass s)
    s.tables.setup.tolerance

/-- The part in which the move request reaches a ring (R37, R49). -/
def requestPart : Part := lossTurn ord { s with tracker := derivedTracker s }

/-- R50: a tracker with its verdict of this boundary. -/
def withVerdict (t : Tracker) : Tracker :=
  { t with
    computed := t.verdict (isLocked (requestPart ord s) .A) (isLocked (requestPart ord s) .B) (s.ring.get .A).yield
      (s.ring.get .B).yield }

/-- R49: the tracker after the correction of a side. -/
def settledTracker (x : Rig) (m : Int) : Tracker :=
  (requestPart ord s).tracker.settle x m (amountApplied x (madeMove (requestPart ord s) x m)) s.tables.setup.tolerance

theorem trackerTurn_of_none (h : (derivedTracker s).side s.tables.setup.reference = none) :
    trackerTurn ord s = raiseAlign s.tracker (requestPart ord s).tracker none
      { requestPart ord s with tracker := withVerdict ord s (requestPart ord s).tracker } := by
  unfold derivedTracker offerClass at h
  unfold trackerTurn
  dsimp only
  rw [h]
  rfl

theorem trackerTurn_of_some (x : Rig) (m : Int) (h : (derivedTracker s).side s.tables.setup.reference = some (x, m)) :
    trackerTurn ord s = raiseAlign s.tracker (settledTracker ord s x m) (settledTracker ord s x m).lastCorr
      { moveRing x m (requestPart ord s) with tracker := withVerdict ord s (settledTracker ord s x m) } := by
  unfold derivedTracker offerClass at h
  unfold trackerTurn
  dsimp only
  rw [h]
  rfl

theorem trackerTurn_none_fields (h : (derivedTracker s).side s.tables.setup.reference = none) :
    (trackerTurn ord s).tracker = withVerdict ord s (requestPart ord s).tracker ∧
      (trackerTurn ord s).ring = (requestPart ord s).ring := by
  rw [trackerTurn_of_none ord s h]
  exact ⟨(raiseAlign_same _ _ _ _).get .tracker rfl, (raiseAlign_same _ _ _ _).get .ring rfl⟩

theorem trackerTurn_some_fields (x : Rig) (m : Int)
    (h : (derivedTracker s).side s.tables.setup.reference = some (x, m)) :
    (trackerTurn ord s).tracker = withVerdict ord s (settledTracker ord s x m) ∧
      (trackerTurn ord s).ring = (moveRing x m (requestPart ord s)).ring := by
  rw [trackerTurn_of_some ord s x m h]
  exact ⟨(raiseAlign_same _ _ _ _).get .tracker rfl, (raiseAlign_same _ _ _ _).get .ring rfl⟩

/-- What the turn changes after the losses: a cursor, the tracker, and the notice. -/
theorem trackerTurn_same_requested : Same [.ring, .tracker, .port, .program] (requestPart ord s) (trackerTurn ord s) := by
  cases h : (derivedTracker s).side s.tables.setup.reference with
  | none =>
    rw [trackerTurn_of_none ord s h]
    exact ((withTracker_same _ _).mono rfl).trans ((raiseAlign_same _ _ _ _).mono rfl)
  | some side =>
    obtain ⟨x, m⟩ := side
    rw [trackerTurn_of_some ord s x m h]
    exact (((moveRing_same _ _ _).mono rfl).trans ((withTracker_same _ _).mono rfl)).trans
      ((raiseAlign_same _ _ _ _).mono rfl)
end

end Sys2Proof.Machine
end


section
/-! The boundary by its turns: what the clock counts (R23, R114), and what the last boundary published (R50, R69). -/

namespace Sys2Proof.Machine

/-! ## The turns, up to the tracker's -/

section
variable (l : Lines) (ord : Order) (s : Part)

/-- The part of a boundary after its Frame Clock's turn. -/
def clockedPart : Part := clockTurn (matchTurn (writesTurn (keyTurn l.key (framesBefore ord (openBoundary l s)))))

/-- The part of a boundary after the rings' checks and the Health Watch's turn. -/
def watchedPart : Part := watchTurn ord (framesBefore ord (openBoundary l s)).health (clockedPart l ord s)

/-- The part of a boundary after the Alignment Tracker's turn. -/
def trackedPart : Part := trackerTurn ord (watchedPart l ord s)

theorem boundary_tracked : boundary l ord s = framesAfter ord (gangTurn (switchTurn l ord (trackedPart l ord s))) := rfl

theorem exec_boundary (s : State) (h : s.inReset = false) :
    exec (.localFrameBoundary l ord) s = .next (s.withPart (boundary l ord s.toPart)) := exec_of_running rfl h

/-- What a boundary has changed before the Frame Clock's turn, since it has opened. -/
theorem clockedPart_same :
    Same (loadBlocks ++ [.writes, .lock, .gang, .clock]) (openBoundary l s) (clockedPart l ord s) :=
  ((((framesBefore_same ord _).mono rfl).trans ((keyTurn_same _ _).mono rfl)).trans ((writesTurn_same _).mono rfl)).trans
    (((matchTurn_same _).mono rfl).trans ((clockTurn_same _).mono rfl))

/-- What follows the tracker's turn. -/
theorem boundary_same_tracked : Same (switchBlocks ++ [.clock]) (trackedPart l ord s) (boundary l ord s) :=
  (((switchTurn_same l ord _).mono rfl).trans ((gangTurn_same _).mono rfl)).trans ((framesAfter_same ord _).mono rfl)

theorem boundary_ring : (boundary l ord s).ring = (trackedPart l ord s).ring := (boundary_same_tracked l ord s).get .ring rfl

theorem boundary_rx : (boundary l ord s).rx = (trackedPart l ord s).rx := (boundary_same_tracked l ord s).get .rx rfl

theorem boundary_health : (boundary l ord s).health = (trackedPart l ord s).health :=
  (boundary_same_tracked l ord s).get .health rfl

/-- The groups' turn up to the publication of the on-air facts. -/
def unpublished : Part :=
  settleArrivals (startPendingMoves (decideGroups (takenUpAt s) (takeoverTurn (startStrayMoves (requestTurn l ord s)))))

theorem switchTurn_eq : switchTurn l ord s = publishOnAir (unpublished l ord s) := rfl

theorem unpublished_same : Same [.panel, .groups, .gang, .port, .program, .takeover] s (unpublished l ord s) := by
  have requested := ((requestTurn_same l ord s).mono (G := [.panel, .groups, .gang, .port, .program, .takeover]) rfl).trans
    ((startStrayMoves_same _).mono rfl)
  have decided := (requested.trans ((takeoverTurn_same _).mono rfl)).trans ((decideGroups_same (takenUpAt s) _).mono rfl)
  exact (decided.trans ((startPendingMoves_same _).mono rfl)).trans ((settleArrivals_same _).mono rfl)

/-- R46: the groups' turn leaves the tracker but for the on-air facts. -/
theorem switchTurn_tracker : (switchTurn l ord s).tracker =
    { s.tracker with onAir := ⟨rigOnAir (unpublished l ord s) .A, rigOnAir (unpublished l ord s) .B⟩ } := by
  have tracker : (unpublished l ord s).tracker = s.tracker := (unpublished_same l ord s).get .tracker rfl
  rw [switchTurn_eq, publishOnAir, tracker]

theorem boundary_tracker : (boundary l ord s).tracker =
    { (trackedPart l ord s).tracker with onAir := (boundary l ord s).tracker.onAir } := by
  have tracker : (boundary l ord s).tracker = (switchTurn l ord (trackedPart l ord s)).tracker :=
    ((framesAfter_same ord _).get .tracker rfl).trans ((gangTurn_same _).get .tracker rfl)
  rw [tracker, switchTurn_tracker]
end

/-! ## The count (R23) -/

/-- From `s` to `t` the clock changes its source and the qualifications alone. -/
def ClockRuns (s t : Part) : Prop :=
  t.clock = { s.clock with selected := t.clock.selected, qual := t.clock.qual }

theorem ClockRuns.refl (s : Part) : ClockRuns s s := rfl

theorem ClockRuns.trans {s t u : Part} (h : ClockRuns s t) (k : ClockRuns t u) : ClockRuns s u := by
  unfold ClockRuns at *
  rw [k, h]

theorem Same.clockRuns {F : List Block} {s t : Part} (h : Same F s t) (hF : F.contains .clock = false) : ClockRuns s t := by
  have e : t.clock = s.clock := h.get .clock hF
  unfold ClockRuns
  rw [e]

theorem ClockRuns.ite {s a b : Part} {p : Prop} [Decidable p] (ha : ClockRuns s a) (hb : ClockRuns s b) :
    ClockRuns s (if p then a else b) := by
  split
  · exact ha
  · exact hb

theorem sourceLost_clockRuns (src : Source) (s : Part) : ClockRuns s (sourceLost src s) := by
  unfold sourceLost
  dsimp only
  split <;> rfl

theorem clockTurn_clockRuns (s : Part) : ClockRuns s (clockTurn s) := by
  unfold clockTurn selectBetter
  dsimp only
  split <;> rfl

theorem leaveLocked_clockRuns (r : Rig) (st : RxState) (s : Part) : ClockRuns s (leaveLocked r st s) := by
  unfold ClockRuns
  rw [leaveLocked_clock]

theorem requestPart_clockRuns (ord : Order) (s : Part) : ClockRuns s (requestPart ord s) :=
  ((withTracker_same _ s).clockRuns rfl).trans (lossTurn_keeps ClockRuns.refl ClockRuns.trans
    (fun _ _ _ _ => ((setRx_same _ _ _).clockRuns rfl).trans (leaveLocked_clockRuns _ _ _)) ord _)

theorem trackerTurn_clockRuns (ord : Order) (s : Part) : ClockRuns s (trackerTurn ord s) :=
  (requestPart_clockRuns ord s).trans ((trackerTurn_same_requested ord s).clockRuns rfl)

theorem linkLost_clockRuns (s : Part) : ClockRuns s (linkLost s) := by
  have reclaimed : Same [.gang, .port, .groups] s (allRefs.foldl (fun t ref => reclaim ref t) (clearBoard s)) :=
    ((clearBoard_same s).mono rfl).trans (Same.foldl (fun _ _ => (reclaim_same _ _).mono rfl) _ _)
  unfold linkLost
  dsimp only
  refine ClockRuns.trans ?_ (sourceLost_clockRuns _ _)
  exact ((reclaimed.clockRuns rfl).trans ((withGang_same _ _).clockRuns rfl)).trans ((setGangState_same _ _).clockRuns rfl)

theorem gangTurn_clockRuns (s : Part) : ClockRuns s (gangTurn s) := by
  have silence (u : Part) : ClockRuns u (silenceTurn u) := by
    have noted (k : Gang) : ClockRuns u { u with gang := k } := (withGang_same _ _).clockRuns rfl
    exact ClockRuns.ite (.refl u) (ClockRuns.ite (ClockRuns.ite ((noted _).trans (linkLost_clockRuns _)) (noted _)) (noted _))
  exact (((mismatchTurn_same s).clockRuns rfl).trans ((resendTurn_same _).clockRuns rfl)).trans (silence _)

/-- R23: once a boundary has opened, its turns leave the count. -/
theorem boundary_clockRuns (l : Lines) (ord : Order) (s : Part) : ClockRuns (openBoundary l s) (boundary l ord s) := by
  have matched : Same (loadBlocks ++ [.writes, .lock, .gang]) (openBoundary l s)
      (matchTurn (writesTurn (keyTurn l.key (framesBefore ord (openBoundary l s))))) :=
    (((framesBefore_same ord _).mono rfl).trans ((keyTurn_same _ _).mono rfl)).trans
      (((writesTurn_same _).mono rfl).trans ((matchTurn_same _).mono rfl))
  have clocked : ClockRuns (openBoundary l s) (clockedPart l ord s) := (matched.clockRuns rfl).trans (clockTurn_clockRuns _)
  have tracked := (clocked.trans ((watchTurn_same ord _ _).clockRuns rfl)).trans
    (trackerTurn_clockRuns ord (watchedPart l ord s))
  exact ((tracked.trans ((switchTurn_same l ord _).clockRuns rfl)).trans (gangTurn_clockRuns _)).trans
    ((framesAfter_same ord _).clockRuns rfl)

/-! ## The opening of a boundary (R23, R50, R69, R114) -/

section
variable (l : Lines) (s : Part) (h : noResetDue s)
include h

/-- R114: the clock as a boundary opens, without a command reset. -/
theorem openBoundary_clock : (openBoundary l s).clock = (adoptTurn (countTurn (endFrames s))).clock := by
  rw [openBoundary_of_noReset l s h]
  exact ((promote_same _).get .clock rfl).trans ((owedTurn_same _).get .clock rfl)

/-- The blocks that a boundary without a command reset opens on as they stand. -/
theorem openBoundary_quiet : Same [.clock, .gang, .store, .port, .program, .resetRequested, .health, .tracker] s
    (openBoundary l s) := by
  rw [openBoundary_of_noReset l s h]
  exact ((((endFrames_same s).mono rfl).trans ((countTurn_same _).mono rfl)).trans ((adoptTurn_same _).mono rfl)).trans
    (((owedTurn_same _).mono rfl).trans ((promote_same _).mono rfl))

theorem openBoundary_promoted : (openBoundary l s).health = s.health.map (fun h => { h with inForce := h.published }) ∧
    (openBoundary l s).tracker = { s.tracker with inForce := s.tracker.computed } := by
  have before : Same [.port, .resetRequested, .program, .clock, .gang, .store] s
      (owedTurn (adoptTurn (countTurn (endFrames s)))) :=
    (((endFrames_same s).mono rfl).trans ((countTurn_same _).mono rfl)).trans
      (((adoptTurn_same _).mono rfl).trans ((owedTurn_same _).mono rfl))
  have health : (owedTurn (adoptTurn (countTurn (endFrames s)))).health = s.health := before.get .health rfl
  have tracker : (owedTurn (adoptTurn (countTurn (endFrames s)))).tracker = s.tracker := before.get .tracker rfl
  rw [openBoundary_of_noReset l s h, promote, health, tracker]
  exact ⟨rfl, rfl⟩
end

/-- R23: the count of a boundary before an adoption. -/
def nextCount (k : FrameClock) : Word := if k.started then k.frame + 1#32 else k.frame

theorem countTurn_clock (s : Part) :
    (countTurn s).clock = { s.clock with phase := 0, frame := nextCount s.clock, started := true } := rfl

/-- R114: an adoption changes the count alone. -/
theorem adoptTurn_clock (s : Part) : (adoptTurn s).clock = { s.clock with frame := (adoptTurn s).clock.frame } := by
  unfold adoptTurn adoptCount
  repeat' split
  all_goals rfl

theorem adoptTurn_of_adopting (s : Part) (p : GangReport) (hp : s.gang.partner = some p)
    (h : s.gang.adopt = true ∨ drifted s = true) : (adoptTurn s).clock.frame = p.frame + 1#32 := by
  unfold adoptTurn adoptCount
  rw [if_pos (by simpa using h), hp]

theorem adoptTurn_of_steady (s : Part) (ha : s.gang.adopt = false) (hd : drifted s = false) : adoptTurn s = s := by
  simp [adoptTurn, ha, hd]

/-- R114: a follower in UP has drifted from the count of a frame that has arrived. -/
theorem drifted_iff (s : Part) : drifted s = true ↔ s.gang.role = .follower ∧ s.gang.state = .up ∧ s.gang.arrived = true ∧
    ∃ p, s.gang.partner = some p ∧ 2 ≤ (sdiff s.clock.frame (p.frame + 1#32)).natAbs := by
  unfold drifted
  cases s.gang.partner <;> simp [and_assoc]

theorem counted_eq (s : Part) : (countTurn (endFrames s)).gang = s.gang ∧
    (countTurn (endFrames s)).clock = { s.clock with phase := 0, frame := nextCount s.clock, started := true } := by
  have gang : (endFrames s).gang = s.gang := (endFrames_same s).get .gang rfl
  have clock : (endFrames s).clock = s.clock := (endFrames_same s).get .clock rfl
  rw [countTurn_clock, clock]
  exact ⟨gang, rfl⟩

section
variable (l : Lines) (ord : Order) (s : Part) (h : noResetDue s)
include h

theorem boundary_phase : (boundary l ord s).clock.phase = 0 ∧ (boundary l ord s).clock.started = true := by
  rw [boundary_clockRuns l ord s, openBoundary_clock l s h, adoptTurn_clock, (counted_eq s).2]
  exact ⟨rfl, rfl⟩

theorem boundary_frame : (boundary l ord s).clock.frame = (adoptTurn (countTurn (endFrames s))).clock.frame := by
  rw [boundary_clockRuns l ord s, openBoundary_clock l s h]
end

/-! ## What is in force (R50, R69) -/

/-- From `s` to `t` the verdict and the unusable sets in force stand. -/
structure ForceStands (s t : Part) : Prop where
  verdict : t.tracker.inForce = s.tracker.inForce
  unusable : ∀ x, (t.health.get x).inForce = (s.health.get x).inForce

theorem ForceStands.refl (s : Part) : ForceStands s s := ⟨rfl, fun _ => rfl⟩

theorem ForceStands.trans {s t u : Part} (h : ForceStands s t) (k : ForceStands t u) : ForceStands s u :=
  ⟨k.verdict.trans h.verdict, fun x => (k.unusable x).trans (h.unusable x)⟩

theorem Same.forceStands {F : List Block} {s t : Part} (h : Same F s t) (ht : F.contains .tracker = false)
    (hh : F.contains .health = false) : ForceStands s t := by
  have tracker : t.tracker = s.tracker := h.get .tracker ht
  have health : t.health = s.health := h.get .health hh
  exact ⟨by rw [tracker], fun x => by rw [health]⟩

theorem ForceStands.ite {s a b : Part} {p : Prop} [Decidable p] (ha : ForceStands s a) (hb : ForceStands s b) :
    ForceStands s (if p then a else b) := by
  split
  · exact ha
  · exact hb

theorem ForceStands.when {s a : Part} {p : Prop} [Decidable p] (h : ForceStands s a) : ForceStands s (if p then a else s) :=
  .ite h (.refl s)

theorem setHealth_forceStands (x : Rig) (k : Health) (s : Part) (h : k.inForce = (s.health.get x).inForce) :
    ForceStands s (s.setHealth x k) :=
  ⟨rfl, fun y => by
    rw [setHealth_health, PerRig.get_set]
    split
    next e => rw [h, e]
    next => rfl⟩

theorem writeSetup_forceStands (n : Setup) (s : Part) : ForceStands s (writeSetup n s) := by
  have written : ForceStands s (s.setTables { s.tables with setup := n }) := (setTables_same _ _).forceStands rfl rfl
  have cleared (u : Part) : ForceStands u (clearHistory u) := ⟨rfl, fun _ => rfl⟩
  have compared : ForceStands s (if s.tables.setup.tolerance ≠ n.tolerance ∨ s.tables.setup.reference ≠ n.reference then
      clearHistory (s.setTables { s.tables with setup := n }) else s.setTables { s.tables with setup := n }) :=
    .ite (written.trans (cleared _)) written
  exact ForceStands.ite (compared.trans ((withPanel_same _ _).forceStands rfl rfl)) compared

theorem dropCauses_forceStands (x : Rig) (off : Fin 8 → Bool) (s : Part) : ForceStands s (dropCauses x off s) :=
  setHealth_forceStands _ _ _ rfl

theorem writeTables_forceStands (t : Tables) (s : Part) : ForceStands s (writeTables t s) :=
  ((((writeGroups_same t.groups s).forceStands rfl rfl).trans ((setTables_same _ _).forceStands rfl rfl)).trans
    ((dropCauses_forceStands _ _ _).trans (dropCauses_forceStands _ _ _))).trans (writeSetup_forceStands _ _)

theorem applyWrite_forceStands (w : PendingWrite) (s : Part) : ForceStands s (applyWrite w s) := by
  obtain ⟨o, act⟩ := w
  have answered (st : Status) (u : Part) : ForceStands u (respondOwner o st u) := (respondOwner_same _ _ _).forceStands rfl rfl
  cases act with
  | setup n => exact (writeSetup_forceStands _ _).trans (answered _ _)
  | defaults => exact (writeTables_forceStands _ _).trans (answered _ _)
  | load =>
    have loaded (k : Store) (t : Tables) : ForceStands s (writeTables t { s with store := k }) :=
      ((withStore_same k s).forceStands rfl rfl).trans (writeTables_forceStands _ _)
    exact ForceStands.ite (loaded _ _) ((loaded _ _).trans ((raise_same _ _).forceStands rfl rfl))
  | watchCause x c e =>
    exact (((setTables_same _ s).forceStands rfl rfl).trans (dropCauses_forceStands _ _ _)).trans (answered _ _)
  | route first es => exact ((writeRoutes_same _ _ _).forceStands rfl rfl).trans (answered _ _)
  | group g e => exact ((writeGroup_same _ _ _).forceStands rfl rfl).trans (answered _ _)
  | watchSlots x k => exact ((writeWatchSlots_same _ _ _).forceStands rfl rfl).trans (answered _ _)
  | setMode g mode => exact (applySetMode_same _ _ _ _).forceStands rfl rfl
  | bypass e => exact (applyBypass_same _ _ _).forceStands rfl rfl

theorem applyWrites_forceStands (k : List PendingWrite) (s : Part) : ForceStands s (applyWrites k s) := by
  induction k generalizing s with
  | nil => exact (withWrites_same _ _).forceStands rfl rfl
  | cons w k ih =>
    exact ForceStands.ite ((withWrites_same _ _).forceStands rfl rfl) ((applyWrite_forceStands w s).trans (ih _))

theorem watchTurn_forceStands (ord : Order) (b : PerRig Health) (s : Part) : ForceStands s (watchTurn ord b s) := by
  have slip (x : Rig) (n : Nat) (u : Part) : ForceStands u (slipTurn x n u) := .when (setHealth_forceStands _ _ _ rfl)
  have judged (x : Rig) (k : Health) (u : Part) : ForceStands u (healthTurn x k u) :=
    (setHealth_forceStands x (((u.health.get x).advance (isLocked u x)).evaluate (u.rx.get x) (u.tables.watch.get x)) u
      rfl).trans ((raiseHealth_same _ _ _ _ _).forceStands rfl rfl)
  have watch (x : Rig) (k : Health) (first : Bool) (n : Nat) (u : Part) : ForceStands u (watchRig x k first n u) :=
    .ite ((slip _ _ _).trans (judged _ _ _)) ((judged _ _ _).trans (slip _ _ _))
  exact ((((underrunTurn_same .A s).forceStands rfl rfl).trans ((underrunTurn_same .B _).forceStands rfl rfl)).trans
    (watch .A _ _ _ _)).trans (watch .B _ _ _ _)

theorem leaveLocked_forceStands (r : Rig) (st : RxState) (s : Part) : ForceStands s (leaveLocked r st s) := by
  refine ⟨by rw [leaveLocked_tracker], fun x => ?_⟩
  rw [leaveLocked_health]
  exact (setHealth_forceStands r (s.health.get r).clearRefs s rfl).unusable x

/-- R50: what the tracker derives leaves the verdict in force. -/
theorem derive_inForce (t : Tracker) (cls : OfferClass) (tol : Half) : (t.derive cls tol).inForce = t.inForce := by
  unfold Tracker.derive
  repeat' split
  all_goals rfl

theorem requestPart_forceStands (ord : Order) (s : Part) : ForceStands s (requestPart ord s) := by
  have derived : ForceStands s { s with tracker := derivedTracker s } := ⟨derive_inForce _ _ _, fun _ => rfl⟩
  exact derived.trans (lossTurn_keeps ForceStands.refl ForceStands.trans
    (fun _ _ _ _ => ((setRx_same _ _ _).forceStands rfl rfl).trans (leaveLocked_forceStands _ _ _)) ord _)

theorem trackerTurn_forceStands (ord : Order) (s : Part) : ForceStands s (trackerTurn ord s) := by
  have health : (trackerTurn ord s).health = (requestPart ord s).health :=
    (trackerTurn_same_requested ord s).get .health rfl
  have verdict : (trackerTurn ord s).tracker.inForce = (requestPart ord s).tracker.inForce := by
    cases h : (derivedTracker s).side s.tables.setup.reference with
    | none => rw [(trackerTurn_none_fields ord s h).1]; rfl
    | some side => rw [(trackerTurn_some_fields ord s side.1 side.2 h).1]; rfl
  exact (requestPart_forceStands ord s).trans ⟨verdict, fun x => by rw [health]⟩

theorem boundary_forceStands (l : Lines) (ord : Order) (s : Part) : ForceStands (openBoundary l s) (boundary l ord s) := by
  have written : ForceStands (openBoundary l s) (writesTurn (keyTurn l.key (framesBefore ord (openBoundary l s)))) :=
    (((framesBefore_same ord _).forceStands rfl rfl).trans ((keyTurn_same _ _).forceStands rfl rfl)).trans
      (applyWrites_forceStands _ _)
  have clocked : ForceStands (openBoundary l s) (clockedPart l ord s) :=
    (written.trans ((matchTurn_same _).forceStands rfl rfl)).trans ((clockTurn_same _).forceStands rfl rfl)
  have tracked : ForceStands (openBoundary l s) (trackedPart l ord s) :=
    (clocked.trans (watchTurn_forceStands _ _ _)).trans (trackerTurn_forceStands ord _)
  refine tracked.trans ⟨?_, fun x => ?_⟩
  · rw [boundary_tracker]
  · rw [boundary_health]

/-- Settles O15. -/
theorem boundaryCounts : Obligations.BoundaryCounts := by
  intro l ord s n h hn
  obtain ⟨gang, clock⟩ := counted_eq s.toPart
  obtain ⟨health, tracker⟩ := openBoundary_promoted l s.toPart h
  obtain ⟨phase, started⟩ := boundary_phase l ord s.toPart h
  have hn' : nextCount s.clock = n := hn.symm
  have force := boundary_forceStands l ord s.toPart
  refine ⟨_, exec_boundary l ord s h.1, phase, started, fun ha hsteady => ?_, fun p hp hadopt => ?_, ?_, fun x => ?_⟩
  · have steady : drifted (countTurn (endFrames s.toPart)) = false := by
      rw [Bool.eq_false_iff]
      intro hd
      obtain ⟨role, state, arrived, p, hp, far⟩ := (drifted_iff _).mp hd
      rw [gang] at role state arrived hp
      rw [clock, hn'] at far
      exact absurd far (Nat.not_le.mpr (hsteady role state arrived p hp))
    rw [State.toPart_withPart, boundary_frame l ord _ h, adoptTurn_of_steady _ (by rw [gang]; exact ha) steady, clock]
    exact hn'
  · rw [State.toPart_withPart, boundary_frame l ord _ h]
    refine adoptTurn_of_adopting _ p (by rw [gang]; exact hp) ?_
    rw [drifted_iff, gang, clock, hn']
    exact hadopt.imp_right fun ⟨role, state, arrived, far⟩ => ⟨role, state, arrived, p, hp, far⟩
  · rw [State.toPart_withPart, force.verdict, tracker]
  · rw [State.toPart_withPart, force.unusable, health, PerRig.get_map]

end Sys2Proof.Machine
end


section
/-! The fill after a boundary (R31, R32), and the alignment moves (R36, R37, R46 to R51; logs 28 and 38). -/

namespace Sys2Proof.Machine

/-! ## What the checks and the moves leave of a fill (R32, R37) -/

section
variable (r : Ring)

/-- R32: the underrun check brings a fill below 24 to 24 or more, by fewer than 24 too many. -/
theorem Ring.underrun_fill : r.underrun.fill = r.fill + 24 * (r.repeats : Int) := by
  obtain ⟨hlo, hhi⟩ := r.fill_bounds
  refine Ring.fill_of_apart ?_ (by omega) ?_
  · have back : BitVec.ofInt 32 (24 * (r.repeats : Int)) = BitVec.ofNat 32 (24 * r.repeats) := by
      rw [← BitVec.ofInt_natCast]
      rfl
    rw [back, Ring.underrun]
    ring
  · unfold Ring.repeats
    split <;> omega

theorem Ring.underrun_fill_bounds (h : r.fill ≤ 3072) : 24 ≤ r.underrun.fill ∧ r.underrun.fill ≤ 3072 := by
  rw [Ring.underrun_fill]
  unfold Ring.repeats
  split <;> omega

/-- R37: a move leaves the fill between the limits, or where it stood. -/
theorem moveMade_fill (fill delta : Int) (hlo : 24 ≤ fill) (hhi : fill ≤ 3072) :
    24 ≤ fill - moveMade fill delta ∧ fill - moveMade fill delta ≤ 3072 := by
  unfold moveMade clampMove
  split_ifs <;> omega

theorem Ring.move_fill (delta : Int) (hlo : 24 ≤ r.fill) (hhi : r.fill ≤ 3072) :
    24 ≤ (r.move delta).fill ∧ (r.move delta).fill ≤ 3072 := by
  obtain ⟨low, high⟩ := moveMade_fill r.fill delta hlo hhi
  have apart : (r.move delta).W - (r.move delta).R = r.W - r.R + BitVec.ofInt 32 (-moveMade r.fill delta) := by
    rw [Ring.move, BitVec.ofInt_neg]
    ring
  rw [Ring.fill_of_apart apart (by omega) (by omega)]
  omega

theorem Ring.flush_fill : r.flush.fill = 0 := by
  have apart : r.flush.W - r.flush.R = 0#32 := BitVec.sub_self r.W
  rw [Ring.fill, sdiff, apart]
  rfl
end

/-! ## The rings in the turns of a boundary -/

section
variable (x : Rig) (s : Part)

theorem underrunTurn_ring : (underrunTurn x s).ring.get x =
    if isLocked s x then (s.ring.get x).underrun else s.ring.get x := by
  unfold underrunTurn repeatsOf
  dsimp only
  by_cases hl : isLocked s x = true
  · simp only [hl, if_true]
    by_cases hr : 0 < (s.ring.get x).repeats
    · simp [hr]
    · have idle : (s.ring.get x).repeats = 0 := by omega
      simp [idle, Ring.underrun]
  · simp [hl]

theorem underrunTurn_ring_other {y : Rig} (h : y ≠ x) : (underrunTurn x s).ring.get y = s.ring.get y := by
  unfold underrunTurn
  dsimp only
  split <;> simp [PerRig.get_set, h]

theorem underrunTurn_isLocked (y : Rig) : isLocked (underrunTurn x s) y = isLocked s y := by
  unfold underrunTurn isLocked
  dsimp only
  split
  · rw [setRx_rx, PerRig.get_set]
    split
    next h => rw [h]
    next => rfl
  · rfl

/-- R32: the ring of a LOCKED receiver is checked, and no other. -/
theorem watchTurn_ring (ord : Order) (b : PerRig Health) : (watchTurn ord b s).ring.get x =
    if isLocked s x then (s.ring.get x).underrun else s.ring.get x := by
  have watched : (watchTurn ord b s).ring = (underrunTurn .B (underrunTurn .A s)).ring :=
    ((watchRig_same .B _ _ _ _).get .ring rfl).trans ((watchRig_same .A _ _ _ _).get .ring rfl)
  rw [watched]
  cases x with
  | A => rw [underrunTurn_ring_other .B _ (by decide), underrunTurn_ring]
  | B => rw [underrunTurn_ring, underrunTurn_isLocked, underrunTurn_ring_other .A _ (by decide)]

theorem moveRing_ring (m : Int) (y : Rig) : (moveRing x m s).ring.get y =
    if y = x ∧ isLocked s x = true then (s.ring.get x).move (moveAsked x m) else s.ring.get y := by
  unfold moveRing
  by_cases hl : isLocked s x = true
  · simp [hl, PerRig.get_set]
  · simp [hl]
end

section
variable (ord : Order) (s : Part) (x : Rig)

/-- R34, R37: the ring of a receiver that leaves LOCKED is flushed, and takes no request. -/
theorem trackerTurn_ring_of_losesAt (h : losesAt ord s x) : (trackerTurn ord s).ring.get x = (s.ring.get x).flush := by
  have flushed : (requestPart ord s).ring.get x = (s.ring.get x).flush :=
    (lossTurn_of_losesAt ord { s with tracker := derivedTracker s } x h).2
  have unlocked : isLocked (requestPart ord s) x = false := by
    have locked : isLocked (requestPart ord s) x = true ↔ _ := isLocked_lossTurn ord { s with tracker := derivedTracker s } x
    rw [Bool.eq_false_iff]
    exact fun k => (locked.mp k).2 h
  cases hs : (derivedTracker s).side s.tables.setup.reference with
  | none => rw [(trackerTurn_none_fields ord s hs).2, flushed]
  | some side =>
    rw [(trackerTurn_some_fields ord s side.1 side.2 hs).2, moveRing_ring, if_neg, flushed]
    rintro ⟨rfl, hl⟩
    exact absurd hl (by simp [unlocked])

/-- R37: the ring of a receiver that stays in its state stands, or takes the request where it is LOCKED. -/
theorem trackerTurn_ring_of_not_losing (h : ¬losesAt ord s x) :
    (trackerTurn ord s).ring.get x = s.ring.get x ∨ ∃ δ, (trackerTurn ord s).ring.get x = (s.ring.get x).move δ := by
  have stands : (requestPart ord s).ring.get x = s.ring.get x :=
    (lossTurn_of_not_losing ord { s with tracker := derivedTracker s } x h).2
  cases hs : (derivedTracker s).side s.tables.setup.reference with
  | none => exact .inl (by rw [(trackerTurn_none_fields ord s hs).2, stands])
  | some side =>
    rw [(trackerTurn_some_fields ord s side.1 side.2 hs).2, moveRing_ring]
    split
    next hx => exact .inr ⟨moveAsked side.1 side.2, by rw [← hx.1, stands]⟩
    next => exact .inl stands

theorem trackerTurn_state_of_losesAt (h : losesAt ord s x) :
    ((trackerTurn ord s).rx.get x).state = lossState (lossOf ord x) := by
  have rx : (trackerTurn ord s).rx = (requestPart ord s).rx := (trackerTurn_same_requested ord s).get .rx rfl
  have unlocked : (requestPart ord s).rx.get x =
      ((s.rx.get x).lineAt (lossOf ord x)).unlocked (lossState (lossOf ord x)) :=
    (lossTurn_of_losesAt ord { s with tracker := derivedTracker s } x h).1
  rw [rx, unlocked]
  rfl
end

theorem lossState_ne_locked (loss : Option LockLoss) : lossState loss ≠ .locked := by
  unfold lossState
  split <;> simp

theorem losesAt_of_countersOnly {ord : Order} {s t : Part} (h : CountersOnly s t) (x : Rig) :
    losesAt ord t x ↔ losesAt ord s x := by
  unfold losesAt
  rw [h x]

section
variable (l : Lines) (ord : Order) (s : Part) (h : noResetDue s)
include h

/-- Before the rings' checks of a boundary the receivers and the rings stand. -/
theorem clockedPart_stands : (clockedPart l ord s).rx = s.rx ∧ (clockedPart l ord s).ring = s.ring :=
  ⟨((clockedPart_same l ord s).get .rx rfl).trans ((openBoundary_quiet l s h).get .rx rfl),
    ((clockedPart_same l ord s).get .ring rfl).trans ((openBoundary_quiet l s h).get .ring rfl)⟩

theorem watchedPart_losesAt (x : Rig) : losesAt ord (watchedPart l ord s) x ↔ losesAt ord s x := by
  obtain ⟨rx, -⟩ := clockedPart_stands l ord s h
  have counted : CountersOnly (clockedPart l ord s) (watchedPart l ord s) := watchTurn_countersOnly _ _ _
  exact (losesAt_of_countersOnly counted x).trans (losesAt_congr (by rw [rx]))

theorem watchedPart_ring (x : Rig) : (watchedPart l ord s).ring.get x =
    if (s.rx.get x).state = .locked then (s.ring.get x).underrun else s.ring.get x := by
  obtain ⟨rx, ring⟩ := clockedPart_stands l ord s h
  rw [watchedPart, watchTurn_ring, isLocked, rx, ring]
  simp only [beq_iff_eq]
end

/-- Settles O18: the underrun check brings the fill between the limits, and a move keeps it there. -/
theorem boundaryLeavesNoUnderrun : Obligations.BoundaryLeavesNoUnderrun := by
  intro l ord s x h hl hfill
  have watched := watchedPart_ring l ord s.toPart h x
  rw [if_pos hl] at watched
  have loses := watchedPart_losesAt l ord s.toPart h x
  refine ⟨_, exec_boundary l ord s h.1, fun hn => ?_, fun hloss => ?_⟩
  · obtain ⟨low, high⟩ := (s.ring.get x).underrun_fill_bounds hfill
    rw [State.toPart_withPart, boundary_ring]
    rcases trackerTurn_ring_of_not_losing ord _ x (mt loses.mp hn) with e | ⟨δ, e⟩
    · rw [trackedPart, e, watched]
      exact ⟨low, high⟩
    · rw [trackedPart, e, watched]
      exact Ring.move_fill _ δ low high
  · have e := trackerTurn_ring_of_losesAt ord _ x (loses.mpr hloss)
    have state := trackerTurn_state_of_losesAt ord _ x (loses.mpr hloss)
    rw [State.toPart_withPart, boundary_ring, boundary_rx, trackedPart, e, state]
    exact ⟨Ring.flush_fill _, rfl, lossState_ne_locked _⟩

end Sys2Proof.Machine
end


section
/-! The alignment moves and their notice (R36, R37, R46 to R51; logs 28 and 38). -/

namespace Sys2Proof.Machine

/-! ## The move that a ring makes (R36, R37, R48) -/

theorem moveMade_within (fill delta : Int) (hlo : 24 ≤ fill - delta) (hhi : fill - delta ≤ 3048) :
    moveMade fill delta = delta := by
  unfold moveMade
  rw [if_neg (by omega), if_neg (by omega)]

/-- R37: a move that would bring the fill above 3048 stops there, and goes neither against δ nor beyond it. -/
theorem moveMade_above (fill delta : Int) (h : 3048 < fill - delta) :
    (delta < 0 → 3048 ≤ fill → moveMade fill delta = 0) ∧
      (delta < 0 → fill < 3048 → moveMade fill delta = fill - 3048) ∧ (0 < delta → moveMade fill delta = delta) := by
  unfold moveMade clampMove
  rw [if_pos (by omega)]
  refine ⟨fun _ _ => ?_, fun _ _ => ?_, fun _ => ?_⟩ <;> split_ifs <;> omega

/-- R37: a move that would bring the fill below 24 stops there, and goes neither against δ nor beyond it. -/
theorem moveMade_below (fill delta : Int) (h : fill - delta < 24) :
    (0 < delta → fill ≤ 24 → moveMade fill delta = 0) ∧
      (0 < delta → 24 < fill → moveMade fill delta = fill - 24) ∧ (delta < 0 → moveMade fill delta = delta) := by
  unfold moveMade clampMove
  rw [if_neg (by omega), if_pos h]
  refine ⟨fun _ _ => ?_, fun _ _ => ?_, fun _ => ?_⟩ <;> split_ifs <;> omega

/-- R37: the move made is part of the move asked. -/
theorem moveMade_part (fill delta : Int) : (moveMade fill delta).natAbs ≤ delta.natAbs ∧
    (0 < moveMade fill delta → 0 < delta) ∧ (moveMade fill delta < 0 → delta < 0) := by
  unfold moveMade clampMove
  split_ifs <;> omega

theorem moveAsked_eq (x : Rig) (m : Int) : moveAsked x m = if x = .B then -m else m := by cases x <;> rfl

theorem amountApplied_eq (x : Rig) (made : Int) : amountApplied x made = if x = .B then -made else made := by
  cases x <;> rfl

section
variable (s : Part) (x : Rig) (m : Int)

theorem madeMove_of_unlocked (h : (s.rx.get x).state ≠ .locked) : moveRing x m s = s ∧ madeMove s x m = 0 := by
  simp [moveRing, madeMove, isLocked, h]

theorem madeMove_of_locked (h : (s.rx.get x).state = .locked) :
    madeMove s x m = moveMade (s.ring.get x).fill (moveAsked x m) := by simp [madeMove, isLocked, h]

theorem moveRing_of_locked (h : (s.rx.get x).state = .locked) : moveRing x m s =
    s.setRing x { s.ring.get x with R := (s.ring.get x).R + BitVec.ofInt 32 (madeMove s x m) } := by
  rw [madeMove_of_locked s x m h, moveRing, if_pos (by simp [isLocked, h])]
  rfl
end

/-! ## The side moved, and what a correction leaves (R47, R49) -/

theorem side_of_aligned (t : Tracker) (reference : Rig) (h : stableOf t.history = none ∨ stableOf t.history = some 0) :
    t.side reference = none := by
  unfold Tracker.side
  rcases h with h | h
  · rw [h]
  · rw [h]
    rfl

theorem side_of_stable (t : Tracker) (reference : Rig) (m : Int) (h : stableOf t.history = some m) (hm : m ≠ 0) :
    t.side reference = if !t.onAir.get reference.other then some (reference.other, m)
      else if !t.onAir.get reference then some (reference, m) else none := by
  simp [Tracker.side, h, hm]

/-- R47: a side is moved by a stable offset other than 0. -/
theorem stable_of_side {t : Tracker} {reference x : Rig} {m : Int} (h : t.side reference = some (x, m)) :
    stableOf t.history = some m ∧ m ≠ 0 := by
  unfold Tracker.side at h
  split at h
  next => cases h
  next k hk =>
    split_ifs at h with hz
    all_goals
      simp only [Option.some.injEq, Prod.mk.injEq] at h
      obtain ⟨-, rfl⟩ := h
      exact ⟨hk, hz⟩

/-- R44: a boundary whose history is stable derives that offset. -/
theorem derivedTracker_stable (s : Part) (m : Int) (h : stableOf (derivedTracker s).history = some m) :
    (derivedTracker s).stable = some m := by
  unfold derivedTracker at *
  rw [derive_history] at h
  unfold Tracker.derive
  split
  next hc =>
    rw [hc] at h
    exact absurd h (by simp [Tracker.note, stableOf])
  all_goals
    rw [h]
    dsimp only
    split_ifs with _ hm
    · rw [hm]
    · rfl
    · rfl

/-- R49: a correction of which nothing is made leaves the offset out of reach. -/
theorem settle_unmoved (t : Tracker) (x : Rig) (m : Int) (tolerance : Half) (hm : m ≠ 0) :
    t.settle x m (amountApplied x 0) tolerance =
      { t with lastCorr := some ⟨x, m, 0⟩, residual := m, history := [], state := .outOfReach } := by
  have applied : amountApplied x 0 = 0 := by cases x <;> rfl
  simp [Tracker.settle, applied, hm]

/-! ## The notice (R51) -/

theorem pushedOnce_none {s t : Part} (hp : t.port = s.port) (hg : t.program = s.program) : pushedOnce s t none := by
  rintro lane rfl
  rw [hp, hg]
  exact ⟨fun _ => rfl, rfl⟩

/-- R135: a notice raised where no other has been. -/
theorem pushedOnce_raise {s t : Part} (b : NoticeBody) (hp : t.port = s.port) (hg : t.program = s.program)
    (hf : t.clock.frame = s.clock.frame) : pushedOnce s (raise b t) (some b) := by
  rintro lane rfl
  rw [raise, hp, hg, hf]
  exact ⟨fun r => by cases r <;> rfl, rfl⟩

theorem raiseAlign_of_change (old new : Tracker) (c : Option Correction) (s : Part)
    (h : old.state ≠ new.state ∨ c.isSome = true) :
    raiseAlign old new c s = raise (.align old.state new.state new.stable (c.map fun c => (c, new.residual))) s := if_pos h

/-! ## The turn (R41 to R51) -/

theorem PerRig.ext_get {α : Type} {p q : PerRig α} (h : ∀ r, p.get r = q.get r) : p = q := by
  obtain ⟨a, b⟩ := p
  obtain ⟨c, d⟩ := q
  exact PerRig.mk.injEq .. ▸ ⟨h .A, h .B⟩

section
variable (ord : Order) (s : Part)

/-- A turn in which no receiver leaves LOCKED. -/
theorem requestPart_of_no_loss (h : ∀ x, ¬losesAt ord s x) : requestPart ord s = { s with tracker := derivedTracker s } :=
  lossTurn_of_not_losesAt ord _ h

theorem requestPart_tracker_of_losesAt (x : Rig) (h : losesAt ord s x) :
    (requestPart ord s).tracker = { derivedTracker s with history := [] } :=
  lossTurn_tracker ord { s with tracker := derivedTracker s } x h

theorem withVerdict_of_no_loss (h : ∀ x, ¬losesAt ord s x) (t : Tracker) : withVerdict ord s t =
    { t with computed := t.verdict (isLocked s .A) (isLocked s .B) (s.ring.get .A).yield (s.ring.get .B).yield } := by
  unfold withVerdict
  rw [requestPart_of_no_loss ord s h]
  rfl

/-- R51: a turn that moves no side raises the notice of a change of state. -/
theorem trackerTurn_unmoved (h : ∀ x, ¬losesAt ord s x)
    (hs : (derivedTracker s).side s.tables.setup.reference = none) :
    (trackerTurn ord s).ring = s.ring ∧
      (trackerTurn ord s).tracker = withVerdict ord s (derivedTracker s) ∧
      pushedOnce s (trackerTurn ord s) (if (derivedTracker s).state = s.tracker.state then none
        else some (.align s.tracker.state (derivedTracker s).state (derivedTracker s).stable none)) := by
  obtain ⟨tracker, ring⟩ := trackerTurn_none_fields ord s hs
  have request := requestPart_of_no_loss ord s h
  refine ⟨by rw [ring, request], by rw [tracker, request], ?_⟩
  rw [trackerTurn_of_none ord s hs, request]
  by_cases he : (derivedTracker s).state = s.tracker.state
  · rw [if_pos he, raiseAlign, if_neg (by simp [he])]
    exact pushedOnce_none rfl rfl
  · rw [if_neg he, raiseAlign_of_change _ _ _ _ (.inl (Ne.symm he))]
    exact pushedOnce_raise _ rfl rfl rfl

/-- R49, R51: a turn that moves a side raises one notice, with the correction. -/
theorem trackerTurn_moved (h : ∀ x, ¬losesAt ord s x) (x : Rig) (m : Int)
    (hs : (derivedTracker s).side s.tables.setup.reference = some (x, m)) :
    ∃ U c, U = (derivedTracker s).settle x m (amountApplied x (madeMove s x m)) s.tables.setup.tolerance ∧
      U.lastCorr = some c ∧ (trackerTurn ord s).tracker = withVerdict ord s U ∧
      (trackerTurn ord s).ring = (moveRing x m s).ring ∧
      pushedOnce s (trackerTurn ord s) (some (.align s.tracker.state U.state U.stable (some (c, U.residual)))) := by
  have request := requestPart_of_no_loss ord s h
  have settled : settledTracker ord s x m =
      (derivedTracker s).settle x m (amountApplied x (madeMove s x m)) s.tables.setup.tolerance := by
    unfold settledTracker
    rw [request]
    rfl
  have same : Same [.ring] { s with tracker := derivedTracker s } (moveRing x m { s with tracker := derivedTracker s }) :=
    moveRing_same _ _ _
  have port : (moveRing x m { s with tracker := derivedTracker s }).port = s.port := same.get .port rfl
  have program : (moveRing x m { s with tracker := derivedTracker s }).program = s.program := same.get .program rfl
  have clock : (moveRing x m { s with tracker := derivedTracker s }).clock = s.clock := same.get .clock rfl
  obtain ⟨tracker, ring⟩ := trackerTurn_some_fields ord s x m hs
  refine ⟨_, ⟨x, m, amountApplied x (madeMove s x m)⟩, rfl, rfl, by rw [tracker, settled], ?_, ?_⟩
  · rw [ring, request]
    refine PerRig.ext_get fun y => ?_
    rw [moveRing_ring, moveRing_ring]
    rfl
  · rw [trackerTurn_of_some ord s x m hs, settled, request, raiseAlign_of_change _ _ _ _ (.inr rfl)]
    exact pushedOnce_raise _ port program (by rw [clock])

/-- R43: a turn in which a receiver leaves LOCKED empties the history. -/
theorem trackerTurn_history_of_losesAt (x : Rig) (h : losesAt ord s x) : (trackerTurn ord s).tracker.history = [] := by
  cases hs : (derivedTracker s).side s.tables.setup.reference with
  | none =>
    rw [(trackerTurn_none_fields ord s hs).1, requestPart_tracker_of_losesAt ord s x h]
    rfl
  | some side =>
    rw [(trackerTurn_some_fields ord s side.1 side.2 hs).1]
    rfl

/-- R49: the request finds its receiver out of LOCKED (log 38). -/
theorem settledTracker_of_losesAt (x : Rig) (h : losesAt ord s x) (m : Int)
    (hs : (derivedTracker s).side s.tables.setup.reference = some (x, m)) : settledTracker ord s x m =
      { derivedTracker s with lastCorr := some ⟨x, m, 0⟩, residual := m, history := [], state := .outOfReach } := by
  obtain ⟨-, hm⟩ := stable_of_side hs
  have locked : isLocked (requestPart ord s) x = true ↔ _ := isLocked_lossTurn ord { s with tracker := derivedTracker s } x
  have unmoved : madeMove (requestPart ord s) x m = 0 := if_neg fun k => (locked.mp k).2 h
  rw [settledTracker, unmoved, settle_unmoved _ _ _ _ hm, requestPart_tracker_of_losesAt ord s x h]

theorem trackerTurn_of_losesAt_side (x : Rig) (h : losesAt ord s x) (m : Int)
    (hs : (derivedTracker s).side s.tables.setup.reference = some (x, m)) :
    (trackerTurn ord s).tracker.lastCorr = some ⟨x, m, 0⟩ ∧ (trackerTurn ord s).tracker.residual = m ∧
      (trackerTurn ord s).tracker.state = .outOfReach ∧
      raised (trackerTurn ord s) (.align s.tracker.state .outOfReach (some m) (some (⟨x, m, 0⟩, m))) := by
  have settled := settledTracker_of_losesAt ord s x h m hs
  have stable := derivedTracker_stable s m (stable_of_side hs).1
  rw [(trackerTurn_some_fields ord s x m hs).1, settled]
  refine ⟨rfl, rfl, rfl, ?_⟩
  rw [trackerTurn_of_some ord s x m hs, settled, raiseAlign_of_change _ _ _ _ (.inr rfl)]
  dsimp only
  rw [stable]
  exact raised_raise _ _
end

/-! ## The turn on parts that agree (R40 to R51) -/

/-- A tracker with another verdict in force. -/
def Tracker.forcing (t : Tracker) (v : Verdict) : Tracker := { t with inForce := v }

theorem derive_forcing (t : Tracker) (v : Verdict) (cls : OfferClass) (tolerance : Half) :
    (t.forcing v).derive cls tolerance = (t.derive cls tolerance).forcing v := by
  have history : (t.forcing v).history = t.history := rfl
  have state : (t.forcing v).state = t.state := rfl
  unfold Tracker.derive
  rw [history, state]
  repeat' split
  all_goals rfl

/-- What the tracker's turn reads of a part, but for the verdict in force. -/
structure TracksAs (v : Verdict) (s t : Part) : Prop where
  rx : t.rx = s.rx
  ring : t.ring = s.ring
  setup : t.tables.setup = s.tables.setup
  frame : t.clock.frame = s.clock.frame
  tracker : t.tracker = s.tracker.forcing v

section
variable {v : Verdict} {ord : Order} {s t : Part} (h : TracksAs v s t)
include h

theorem TracksAs.derived : derivedTracker t = (derivedTracker s).forcing v := by
  have cls : offerClass t = offerClass s := by
    unfold offerClass isLocked
    rw [h.rx, h.ring]
  unfold derivedTracker
  rw [cls, h.ring, h.setup, h.frame, h.tracker]
  exact derive_forcing (s.tracker.note _ _ _ _) v _ _

theorem TracksAs.losesAt (x : Rig) : losesAt ord t x ↔ losesAt ord s x := losesAt_congr (by rw [h.rx])

theorem TracksAs.requestRig (x : Rig) : (requestPart ord t).rx.get x = (requestPart ord s).rx.get x ∧
    (requestPart ord t).ring.get x = (requestPart ord s).ring.get x := by
  by_cases hx : Machine.losesAt ord s x
  · have own := lossTurn_of_losesAt ord { s with tracker := derivedTracker s } x hx
    have other := lossTurn_of_losesAt ord { t with tracker := derivedTracker t } x ((h.losesAt x).mpr hx)
    exact ⟨other.1.trans (by rw [h.rx]; exact own.1.symm), other.2.trans (by rw [h.ring]; exact own.2.symm)⟩
  · have own := lossTurn_of_not_losing ord { s with tracker := derivedTracker s } x hx
    have other := lossTurn_of_not_losing ord { t with tracker := derivedTracker t } x (mt (h.losesAt x).mp hx)
    exact ⟨other.1.trans (by rw [h.rx]; exact own.1.symm), other.2.trans (by rw [h.ring]; exact own.2.symm)⟩

theorem TracksAs.request : TracksAs v (requestPart ord s) (requestPart ord t) where
  rx := PerRig.ext_get fun x => (h.requestRig x).1
  ring := PerRig.ext_get fun x => (h.requestRig x).2
  setup := by
    have own : (requestPart ord s).tables = s.tables := (lossTurn_same ord _).get .tables rfl
    have other : (requestPart ord t).tables = t.tables := (lossTurn_same ord _).get .tables rfl
    rw [own, other, h.setup]
  frame := by
    have own : (requestPart ord s).clock.frame = s.clock.frame := by rw [requestPart_clockRuns ord s]
    have other : (requestPart ord t).clock.frame = t.clock.frame := by rw [requestPart_clockRuns ord t]
    rw [own, other, h.frame]
  tracker := by
    by_cases hx : ∃ x, Machine.losesAt ord s x
    · obtain ⟨x, hx⟩ := hx
      rw [requestPart_tracker_of_losesAt ord s x hx, requestPart_tracker_of_losesAt ord t x ((h.losesAt x).mpr hx),
        h.derived]
      rfl
    · rw [not_exists] at hx
      rw [requestPart_of_no_loss ord s hx, requestPart_of_no_loss ord t fun x => mt (h.losesAt x).mp (hx x)]
      exact h.derived

theorem TracksAs.verdict (u : Tracker) : withVerdict ord t (u.forcing v) = (withVerdict ord s u).forcing v := by
  have locked (x : Rig) : isLocked (requestPart ord t) x = isLocked (requestPart ord s) x := by
    unfold isLocked
    rw [h.request.rx]
  unfold withVerdict
  rw [locked, locked, h.ring]
  rfl

theorem TracksAs.settled (x : Rig) (m : Int) : settledTracker ord t x m = (settledTracker ord s x m).forcing v := by
  have made : madeMove (requestPart ord t) x m = madeMove (requestPart ord s) x m := by
    unfold madeMove isLocked
    rw [h.request.rx, h.request.ring]
  unfold settledTracker
  rw [made, h.request.tracker, h.setup]
  rfl

/-- The turn moves the same ring by as much, and leaves the same tracker. -/
theorem TracksAs.turned : (trackerTurn ord t).ring = (trackerTurn ord s).ring ∧
    (trackerTurn ord t).tracker = (trackerTurn ord s).tracker.forcing v := by
  have side : (derivedTracker t).side t.tables.setup.reference = (derivedTracker s).side s.tables.setup.reference := by
    rw [h.derived, h.setup]
    rfl
  cases hs : (derivedTracker s).side s.tables.setup.reference with
  | none =>
    obtain ⟨tracker, ring⟩ := trackerTurn_none_fields ord s hs
    obtain ⟨tracker', ring'⟩ := trackerTurn_none_fields ord t (side.trans hs)
    rw [tracker, ring, tracker', ring', h.request.ring, h.request.tracker, h.verdict]
    exact ⟨rfl, rfl⟩
  | some moved =>
    obtain ⟨tracker, ring⟩ := trackerTurn_some_fields ord s moved.1 moved.2 hs
    obtain ⟨tracker', ring'⟩ := trackerTurn_some_fields ord t moved.1 moved.2 (side.trans hs)
    have moves : (moveRing moved.1 moved.2 (requestPart ord t)).ring = (moveRing moved.1 moved.2 (requestPart ord s)).ring := by
      refine PerRig.ext_get fun y => ?_
      rw [moveRing_ring, moveRing_ring, h.request.ring]
      unfold isLocked
      rw [h.request.rx]
    rw [tracker, ring, tracker', ring', moves, h.settled, h.verdict]
    exact ⟨rfl, rfl⟩
end

/-! ## The boundary (R46) -/

/-- R46: a rig is on air where a group plays it, or fades from it or to it. -/
theorem rigOnAir_iff (s : Part) (x : Rig) : rigOnAir s x = true ↔ ∃ g, (s.groups.get g).course = .steady (.rig x) ∨
    ∃ f, (s.groups.get g).course = .fading f ∧ (f.kind.src = .rig x ∨ f.kind.dst = .rig x) := by
  have touches (c : Course) : c.touches x = true ↔
      c = .steady (.rig x) ∨ ∃ f, c = .fading f ∧ (f.kind.src = .rig x ∨ f.kind.dst = .rig x) := by
    cases c <;> simp [Course.touches]
  simp only [rigOnAir, allGroups, List.any_eq_true, List.mem_finRange, true_and, touches]

section
variable (l : Lines) (ord : Order) (s : Part)

theorem switchTurn_groups : (switchTurn l ord s).groups = (unpublished l ord s).groups :=
  (publishOnAir_same _).get .groups rfl

theorem boundary_onAir (x : Rig) : (boundary l ord s).tracker.onAir.get x = true ↔
    ∃ g, ((boundary l ord s).groups.get g).course = .steady (.rig x) ∨
      ∃ f, ((boundary l ord s).groups.get g).course = .fading f ∧ (f.kind.src = .rig x ∨ f.kind.dst = .rig x) := by
  have onAir : (boundary l ord s).tracker.onAir.get x = rigOnAir (unpublished l ord (trackedPart l ord s)) x := by
    have tracker : (boundary l ord s).tracker = (switchTurn l ord (trackedPart l ord s)).tracker :=
      ((framesAfter_same ord _).get .tracker rfl).trans ((gangTurn_same _).get .tracker rfl)
    rw [tracker, switchTurn_tracker]
    cases x
    · rw [PerRig.get_A]
    · rw [PerRig.get_B]
  have course (g : Fin 16) : ((boundary l ord s).groups.get g).course =
      ((unpublished l ord (trackedPart l ord s)).groups.get g).course := by
    have groups : (boundary l ord s).groups = (gangTurn (switchTurn l ord (trackedPart l ord s))).groups :=
      (framesAfter_same ord _).get .groups rfl
    rw [groups, (gangTurn_calm _).course, switchTurn_groups]
  simp only [onAir, rigOnAir_iff, course]

/-- A boundary without a table write takes the tables and the tracker as they stand to the tracker's turn. -/
theorem writesTurn_of_none (h : s.writes = []) : writesTurn s = { s with writes := [] } := by
  rw [writesTurn, h]
  rfl

variable (h : noResetDue s) (hw : s.writes = [])
include h hw

theorem clockedPart_of_no_write : Same [.writes, .lock, .gang, .clock, .port, .program] (openBoundary l s)
    (clockedPart l ord s) := by
  have keyed : Same [.port, .program, .gang, .lock] (openBoundary l s)
      (keyTurn l.key (framesBefore ord (openBoundary l s))) :=
    ((framesBefore_same ord _).mono rfl).trans ((keyTurn_same _ _).mono rfl)
  have writes : (keyTurn l.key (framesBefore ord (openBoundary l s))).writes = [] :=
    (keyed.get .writes rfl).trans (((openBoundary_quiet l s h).get .writes rfl).trans hw)
  unfold clockedPart
  rw [writesTurn_of_none _ writes]
  exact ((keyed.mono rfl).trans ((withWrites_same _ _).mono rfl)).trans
    (((matchTurn_same _).mono rfl).trans ((clockTurn_same _).mono rfl))

/-- R32: with no underrun the tracker's turn finds the receivers, the rings and the tables of the boundary before, on the
count of this one. -/
theorem watchedPart_tracksAs (hfill : ∀ x, (s.rx.get x).state = .locked → 24 ≤ (s.ring.get x).fill) :
    TracksAs s.tracker.computed { s with clock := { s.clock with frame := (boundary l ord s).clock.frame } }
      (watchedPart l ord s) := by
  have clocked := clockedPart_of_no_write l ord s h hw
  obtain ⟨rx, ring⟩ := clockedPart_stands l ord s h
  have full (x : Rig) : repeatsOf (clockedPart l ord s) x = 0 := by
    unfold repeatsOf isLocked
    rw [rx, ring]
    split
    next hl => exact if_neg (by have := hfill x (by simpa using hl); omega)
    next => rfl
  have checked : underrunTurn .B (underrunTurn .A (clockedPart l ord s)) = clockedPart l ord s := by
    have a : underrunTurn .A (clockedPart l ord s) = clockedPart l ord s := if_neg (by rw [full]; simp)
    rw [a]
    exact if_neg (by rw [full]; simp)
  have watched : Same [.health, .port, .program] (clockedPart l ord s) (watchedPart l ord s) := by
    unfold watchedPart watchTurn
    dsimp only
    rw [checked]
    exact (watchRig_same _ _ _ _ _).trans (watchRig_same _ _ _ _ _)
  have tables : (watchedPart l ord s).tables = s.tables :=
    ((watched.get .tables rfl).trans (clocked.get .tables rfl)).trans ((openBoundary_quiet l s h).get .tables rfl)
  have after : ClockRuns (watchedPart l ord s) (boundary l ord s) :=
    (((trackerTurn_clockRuns ord _).trans ((switchTurn_same l ord _).clockRuns rfl)).trans (gangTurn_clockRuns _)).trans
      ((framesAfter_same ord _).clockRuns rfl)
  refine ⟨(watched.get .rx rfl).trans rx, (watched.get .ring rfl).trans ring, by rw [tables], ?_, ?_⟩
  · have frame : (boundary l ord s).clock.frame = (watchedPart l ord s).clock.frame := by rw [after]
    exact frame.symm
  · exact ((watched.get .tracker rfl).trans (clocked.get .tracker rfl)).trans (openBoundary_promoted l s h).2
end

/-- Settles O59. -/
theorem alignmentMoves : Obligations.AlignmentMoves := by
  refine ⟨?_, ?_, ?_, ?_, ?_, ?_⟩
  · rintro s x m δ rfl
    rw [← moveAsked_eq]
    refine ⟨madeMove_of_unlocked s x m, fun hl => ⟨moveRing_of_locked s x m hl, ?_⟩⟩
    rw [madeMove_of_locked s x m hl]
    exact ⟨moveMade_within _ _, moveMade_above _ _, moveMade_below _ _, moveMade_part _ _⟩
  · refine fun t reference => ⟨side_of_aligned t reference, fun m h hm => ?_⟩
    rw [side_of_stable t reference m h hm]
    exact ⟨fun off => by simp [off], fun on off => by simp [on, off], fun on on' => by simp [on, on']⟩
  · rintro t x m made applied tolerance rfl
    rw [← amountApplied_eq]
    rfl
  · rintro t la lb ya yb v rfl
    refine ⟨?_, ?_, ?_, rfl⟩
    · simp [Tracker.verdict]
    · cases ya <;> cases yb <;> simp [Tracker.verdict, offerTransport, and_assoc]
    · simp [Verdict.met]
  · rintro s ord ya yb la lb T rfl rfl rfl rfl rfl
    refine ⟨fun hn => ?_, fun x hx => ?_⟩
    · have verdict (t : Tracker) := withVerdict_of_no_loss ord s hn t
      refine ⟨fun hs => ?_, fun x m hs => ?_⟩
      · have unmoved := trackerTurn_unmoved ord s hn hs
        rwa [verdict] at unmoved
      · obtain ⟨U, c, hU, hc, tracker, rest⟩ := trackerTurn_moved ord s hn x m hs
        exact ⟨U, c, hU, hc, tracker.trans (verdict U), rest⟩
    · refine ⟨trackerTurn_history_of_losesAt ord s x hx, trackerTurn_ring_of_losesAt ord s x hx,
        trackerTurn_state_of_losesAt ord s x hx, fun m hs => trackerTurn_of_losesAt_side ord s x hx m hs⟩
  · intro l ord s h hw hfill
    obtain ⟨ring, tracker⟩ := (watchedPart_tracksAs l ord s.toPart h hw hfill).turned (ord := ord)
    refine ⟨_, _, exec_boundary l ord s h.1, rfl, ?_, ?_, boundary_onAir l ord s.toPart⟩
    · exact (boundary_ring l ord s.toPart).trans ring
    · have turned := boundary_tracker l ord s.toPart
      rw [trackedPart, tracker] at turned
      exact turned

end Sys2Proof.Machine
end


section
/-! The turns of a boundary by what they leave of the link (R113), of the bypass latch (R168), and of a lane that still owes its
CANCEL chunk and a port with no command in progress (R132, R134). -/

namespace Sys2Proof.Machine

/-- R113: what the Gang Port knows of its link. -/
def Gang.link (k : Gang) : Role × GangState × Nat × Bool := (k.role, k.state, k.silence, k.arrived)

/-- R128, R131: no command is in progress on a port and no response waits. -/
def Port.bare (p : Port) : Prop := p.slots = [] ∧ p.responses = []

/-- R132, R134: from `p` to `q` a port's lane owes its CANCEL chunk as before, and a bare port stays bare. -/
def Port.keeps (p q : Port) : Prop := q.lane.cancelFirst = p.lane.cancelFirst ∧ (p.bare → q.bare)

theorem Port.keeps_refl (p : Port) : p.keeps p := ⟨rfl, id⟩

theorem Port.keeps_trans {p q r : Port} (h : p.keeps q) (k : q.keeps r) : p.keeps r := ⟨k.1.trans h.1, k.2 ∘ h.2⟩

theorem Lane.push_cancelFirst (l : Lane) (n : Notice) : (l.push n).cancelFirst = l.cancelFirst := by
  unfold Lane.push
  split <;> rfl

theorem Port.push_keeps (p : Port) (n : Notice) : p.keeps (p.push n) := ⟨Lane.push_cancelFirst _ _, id⟩

theorem Port.setPhase_keeps (p : Port) (id : Nat) (ph : Phase) : p.keeps (p.setPhase id ph) :=
  ⟨rfl, fun ⟨slots, responses⟩ => ⟨by simp [Port.setPhase, slots], responses⟩⟩

/-- R131: only a command in progress is answered. -/
theorem Port.respond_keeps (p : Port) (id : Nat) (st : Status) (i : Nat) (results : List Byte) :
    p.keeps (p.respond id st i results) := by
  refine ⟨?_, fun bare => ?_⟩
  · unfold Port.respond
    repeat' split
    all_goals rfl
  · have free : p.find id = none := by simp [Port.find, bare.1]
    rwa [Port.respond, free]

/-- From `s` to `t` the link and the bypass latch stand, and so does what the lanes owe and what is bare. -/
structure Still (s t : Part) : Prop where
  link : t.gang.link = s.gang.link
  bypass : t.panel.bypass = s.panel.bypass
  port : ∀ r, (s.port.get r).keeps (t.port.get r)
  program : t.program.lane.cancelFirst = s.program.lane.cancelFirst

theorem Still.refl (s : Part) : Still s s := ⟨rfl, rfl, fun _ => Port.keeps_refl _, rfl⟩

theorem Still.trans {s t u : Part} (h : Still s t) (k : Still t u) : Still s u :=
  ⟨k.link.trans h.link, k.bypass.trans h.bypass, fun r => Port.keeps_trans (h.port r) (k.port r), k.program.trans h.program⟩

theorem Still.foldl {α : Type} {f : Part → α → Part} (h : ∀ s a, Still s (f s a)) (l : List α) (s : Part) :
    Still s (l.foldl f s) := by
  induction l generalizing s with
  | nil => exact .refl s
  | cons a l ih => exact (h s a).trans (ih _)

theorem Still.ite {s a b : Part} {p : Prop} [Decidable p] (ha : Still s a) (hb : Still s b) :
    Still s (if p then a else b) := by
  split
  · exact ha
  · exact hb

theorem Still.when {s a : Part} {p : Prop} [Decidable p] (ha : Still s a) : Still s (if p then a else s) := .ite ha (.refl s)

/-- The blocks that `Still` speaks of. -/
def stillBlocks : List Block := [.gang, .panel, .port, .program]

theorem Same.still {F : List Block} {s t : Part} (h : Same F s t) (hF : stillBlocks.all (fun b => !F.contains b) = true) :
    Still s t := by
  simp only [stillBlocks, List.all_cons, List.all_nil, Bool.and_eq_true, Bool.not_eq_true', Bool.and_true] at hF
  obtain ⟨hgang, hpanel, hport, hprogram⟩ := hF
  have gang : t.gang = s.gang := h.get .gang hgang
  have panel : t.panel = s.panel := h.get .panel hpanel
  have port : t.port = s.port := h.get .port hport
  have program : t.program = s.program := h.get .program hprogram
  exact ⟨by rw [gang], by rw [panel], fun r => by rw [port]; exact Port.keeps_refl _, by rw [program]⟩

/-! ## Ports, notices, gang and panel -/

theorem setPort_still (r : Rig) (p : Port) (s : Part) (h : (s.port.get r).keeps p) : Still s (s.setPort r p) := by
  refine ⟨rfl, rfl, fun q => ?_, rfl⟩
  rw [setPort_port, PerRig.get_set]
  split
  next e => rw [e]; exact h
  next => exact Port.keeps_refl _

theorem withGang_still (k : Gang) (s : Part) (h : k.link = s.gang.link) : Still s { s with gang := k } :=
  ⟨h, rfl, fun _ => Port.keeps_refl _, rfl⟩

theorem withPanel_still (k : Panel) (s : Part) (h : k.bypass = s.panel.bypass) : Still s { s with panel := k } :=
  ⟨rfl, h, fun _ => Port.keeps_refl _, rfl⟩

theorem setGroup_still (g : Fin 16) (r : GroupRec) (s : Part) : Still s (s.setGroup g r) := (setGroup_same g r s).still rfl

theorem raise_still (n : NoticeBody) (s : Part) : Still s (raise n s) :=
  ⟨rfl, rfl, fun r => by cases r <;> exact Port.push_keeps _ _, Lane.push_cancelFirst _ _⟩

theorem respond_still (r : Rig) (id : Nat) (st : Status) (i : Nat) (results : List Byte) (s : Part) :
    Still s (respond r id st i results s) := setPort_still _ _ _ (Port.respond_keeps _ _ _ _ _)

theorem setPhase_still (r : Rig) (id : Nat) (ph : Phase) (s : Part) : Still s (setPhase r id ph s) :=
  setPort_still _ _ _ (Port.setPhase_keeps _ _ _)

theorem queueMove_still (m : MoveMsg) (s : Part) : Still s (queueMove m s) := withGang_still _ s (by rfl)

theorem relayChange_still (c old : Bool) (s : Part) : Still s (relayChange c old s) := .when (raise_still _ _)

/-! ## Owners -/

theorem setStage_still (o : Owner) (st : Stage) (s : Part) : Still s (setStage o st s) := by
  cases o with
  | command r id ganged =>
    unfold setStage
    dsimp only
    split
    · split
      · exact setPhase_still _ _ _ _
      · exact .refl s
    · exact .refl s
  | proposal ref =>
    unfold setStage
    dsimp only
    split
    · exact withGang_still _ s (by rfl)
    all_goals exact .refl s

theorem endOwner_still (o : Owner) (st : Status) (results : List Byte) (s : Part) : Still s (endOwner o st results s) := by
  have ended (r : Rig) (id : Nat) (m : MoveCmd) : Still s (unbind o (setPhase r id (.move m) s)) :=
    (setPhase_still _ _ _ _).trans ((unbind_same _ _).still rfl)
  cases o with
  | command r id ganged =>
    unfold endOwner
    dsimp only
    split
    · exact .refl s
    · split
      · exact .refl s
      · exact .ite (.refl s) (.ite ((ended _ _ _).trans (respond_still _ _ _ _ _ _)) (ended _ _ _))
  | proposal ref =>
    unfold endOwner
    dsimp only
    split
    · exact (withGang_still _ s (by rfl)).trans ((unbind_same _ _).still rfl)
    all_goals exact .refl s

theorem supersede_still (o : Owner) (g : Fin 16) (s : Part) : Still s (supersede o g s) := by
  unfold supersede
  split
  · exact endOwner_still _ _ _ _
  · exact .refl s

theorem settleArrivals_still (s : Part) : Still s (settleArrivals s) := by
  refine Still.foldl (fun u o => ?_) _ s
  unfold settleArrival
  refine .when ?_
  split
  · exact endOwner_still _ _ _ _
  · exact .refl u

theorem supersedeIfElsewhere_still (g : Fin 16) (s : Part) : Still s (supersedeIfElsewhere g s) := by
  unfold supersedeIfElsewhere
  split
  · exact .refl s
  · split
    · exact .when (supersede_still _ _ _)
    · exact .refl s

theorem refuseRequests_still (st : Status) (g : Fin 16) (s : Part) : Still s (refuseRequests st g s) :=
  (setGroup_still _ _ _).trans (.foldl (fun _ _ => endOwner_still _ _ _ _) _ _)

theorem settleBinding_still (g : Fin 16) (q : List Request) (s : Part) : Still s (settleBinding g q s) :=
  (Still.foldl (fun _ _ => supersede_still _ _ _) _ s).trans (supersedeIfElsewhere_still _ _)

/-! ## The requests of a boundary -/

theorem addRequest_still (g : Fin 16) (q : Request) (s : Part) : Still s (addRequest g q s) := setGroup_still _ _ _

theorem handPress_still (t : End) (among : Fin 16 → Bool) (s : Part) : Still s (handPress t among s) :=
  .foldl (fun _ _ => addRequest_still _ _ _) _ s

theorem press_still (b : Rig) (s : Part) : Still s (press b s) :=
  (handPress_still _ _ _).trans (.when (withGang_still _ _ (by rfl)))

theorem applyPresses_still (s : Part) : Still s (applyPresses s) :=
  (withGang_still { s.gang with presses := [] } s rfl).trans (.foldl (fun _ _ => handPress_still _ _ _) _ _)

theorem bindGroup_still (o : Owner) (g : Fin 16) (s : Part) : Still s (bindGroup o g s) := by
  unfold bindGroup
  dsimp only
  refine Still.trans ?_ (setGroup_still _ _ _)
  split
  · exact .ite (.refl s) (supersede_still _ _ _)
  · exact .refl s

theorem executeRun_still (o : Owner) (req : MoveReq) (mask : Half) (s : Part) : Still s (executeRun o req mask s) := by
  have bound := ((setStage_still o (.executed (toBind s mask req.target) s.clock.frame) s).trans
    (.foldl (fun t g => bindGroup_still o g t) (allGroups.filter fun g => inMask (toBind s mask req.target) g) _)).trans
    (.foldl (fun t g => addRequest_still g ⟨req.target, .command, some o⟩ t) (allGroups.filter fun g => inMask mask g) _)
  exact .ite (bound.trans (endOwner_still _ _ _ _)) bound

theorem runOwner_still (o : Owner) (s : Part) : Still s (runOwner o s) := by
  unfold runOwner
  split
  next => exact .refl s
  next req p _ =>
    cases evalRun s o req p with
    | fail st g => exact endOwner_still _ _ _ _
    | execute => exact executeRun_still _ _ _ _
    | timeout => exact endOwner_still _ _ _ _
    | wait n => exact setStage_still _ _ _
    | idle => exact .refl s

theorem buttonTurn_still (x : Rig) (l : Bool) (s : Part) : Still s (buttonTurn x l s) :=
  .ite ((withPanel_still _ s (by rfl)).trans (press_still _ _)) (withPanel_still _ s (by rfl))

theorem requestTurn_still (l : Lines) (ord : Order) (s : Part) : Still s (requestTurn l ord s) := by
  have buttons (b : Bool) (u : Part) : Still u (buttonsTurn l b u) :=
    .ite ((buttonTurn_still _ _ _).trans (buttonTurn_still _ _ _)) ((buttonTurn_still _ _ _).trans (buttonTurn_still _ _ _))
  have presses (u : Part) : Still u (pressTurn l ord u) :=
    .ite ((buttons _ _).trans (applyPresses_still _)) ((applyPresses_still _).trans (buttons _ _))
  have moves (u : Part) : Still u (runMoves ord u) := .foldl (fun _ _ => runOwner_still _ _) _ u
  exact .ite ((presses _).trans (moves _)) ((moves _).trans (presses _))

/-! ## The groups -/

theorem startMove_still (m : MoveMsg) (s : Part) : Still s (startMove m s) := by
  have moved (r : GroupRec) :
      Still s (Part.setGroup { s with gang := { s.gang with pending := s.gang.pending.set m.group none } } m.group r) :=
    (withGang_still _ s (by rfl)).trans (setGroup_still _ _ _)
  unfold startMove
  dsimp only
  split
  · exact ((moved _).trans (raise_still _ _)).trans (supersedeIfElsewhere_still _ _)
  · exact (Still.ite (moved _) ((moved _).trans (raise_still _ _))).trans (supersedeIfElsewhere_still _ _)

theorem startPendingMove_still (g : Fin 16) (s : Part) : Still s (startPendingMove g s) := by
  unfold startPendingMove
  split
  · exact .when (startMove_still _ _)
  · exact .refl s

theorem takeStart_still (g : Fin 16) (s : Part) : Still s (takeStart g s) := by
  have started (r : GroupRec) (n : NoticeBody) : Still s (raise n ((refuseRequests .busy g s).setGroup g r)) :=
    ((refuseRequests_still _ _ _).trans (setGroup_still _ _ _)).trans (raise_still _ _)
  exact .when (Still.ite ((started _ _).trans (queueMove_still _ _)) (started _ _))

theorem takeoverTurn_still (s : Part) : Still s (takeoverTurn s) := by
  have counted (k : Takeover) : Still s { s with takeover := k } := (withTakeover_same k s).still rfl
  have taken : Still s (takeOver s) :=
    ((counted _).trans (.foldl (fun _ _ => takeStart_still _ _) _ _)).trans (relayChange_still _ _ _)
  exact .ite (.refl s) (.ite taken (counted _))

theorem announce_still (g : Fin 16) (f : Fade) (s : Part) : Still s (announce g f s) :=
  .ite ((raise_still _ _).trans (queueMove_still _ _)) (raise_still _ _)

theorem decideGroups_still (w : Fin 16 → Bool) (s : Part) : Still s (decideGroups w s) := by
  have refused (st : Status) (l : List (Fin 16)) (u : Part) : Still u (l.foldl (fun s g => refuseRequests st g s) u) :=
    .foldl (fun _ _ => refuseRequests_still _ _ _) _ _
  have decided (k : Tbl 16 GroupRec) (u : Part) : Still u { u with groups := k } := ⟨rfl, rfl, fun _ => Port.keeps_refl _, rfl⟩
  unfold decideGroups
  dsimp only
  refine Still.trans ?_ (withPanel_still _ _ (by rfl))
  refine Still.trans ?_ (Still.foldl (fun _ _ => settleBinding_still _ _ _) _ _)
  refine Still.trans (((refused _ _ s).trans (refused _ _ _)).trans (decided _ _)) (Still.foldl (fun u g => ?_) _ _)
  split
  · exact announce_still _ _ _
  · exact .refl u

theorem switchTurn_still (l : Lines) (ord : Order) (s : Part) : Still s (switchTurn l ord s) := by
  have strays (u : Part) : Still u (startStrayMoves u) := .foldl (fun _ _ => startPendingMove_still _ _) _ u
  have moves (u : Part) : Still u (startPendingMoves u) := .foldl (fun _ _ => startPendingMove_still _ _) _ u
  have taken := ((requestTurn_still l ord s).trans (strays _)).trans (takeoverTurn_still _)
  exact (((taken.trans (decideGroups_still _ _)).trans (moves _)).trans (settleArrivals_still _)).trans
    ((publishOnAir_same _).still rfl)

/-! ## The other turns -/

theorem sourceLost_still (src : Source) (s : Part) : Still s (sourceLost src s) := by
  have counted (k : FrameClock) (u : Part) : Still u { u with clock := k } := (withClock_same k u).still rfl
  exact .ite ((counted _ s).trans ((counted _ _).trans (raise_still _ _))) (counted _ s)

theorem clockTurn_still (s : Part) : Still s (clockTurn s) := by
  have counted (k : FrameClock) (u : Part) : Still u { u with clock := k } := (withClock_same k u).still rfl
  exact (counted _ s).trans (.when ((counted _ _).trans (raise_still _ _)))

theorem keyTurn_still (line : Bool) (s : Part) : Still s (keyTurn line s) := by
  have locked (k : ShowLock) (u : Part) : Still u { u with lock := k } := (withLock_same k u).still rfl
  have level (v : LockLevel) (k : Bool) (u : Part) : Still u (setLevel v k u) :=
    .ite (.refl u) ((locked _ u).trans (raise_still _ _))
  exact .ite (locked _ s) (.ite (.ite ((locked _ s).trans (level _ _ _)) (locked _ s)) (locked _ s))

theorem watchTurn_still (ord : Order) (b : PerRig Health) (s : Part) : Still s (watchTurn ord b s) := by
  have judged (x : Rig) (h : Health) (u : Part) : Still u (healthTurn x h u) := by
    have noticed (o m n : Health) (v : Part) : Still v (raiseHealth x o m n v) := by
      unfold raiseHealth
      split
      · exact raise_still _ _
      · exact .refl v
    exact ((setHealth_same x _ u).still rfl).trans (noticed _ _ _ _)
  have slip (x : Rig) (n : Nat) (u : Part) : Still u (slipTurn x n u) := (slipTurn_same _ _ _).still rfl
  have watch (x : Rig) (h : Health) (first : Bool) (n : Nat) (u : Part) : Still u (watchRig x h first n u) :=
    .ite ((slip _ _ _).trans (judged _ _ _)) ((judged _ _ _).trans (slip _ _ _))
  exact ((((underrunTurn_same .A s).still rfl).trans ((underrunTurn_same .B _).still rfl)).trans (watch .A _ _ _ _)).trans
    (watch .B _ _ _ _)

theorem handLoss_still (r : Rig) (s : Part) : Still s (handLoss r s) := by
  have recorded (p : Port) (u : Part) (h : p.slots = (u.port.get r).slots ∧ p.responses = (u.port.get r).responses ∧
      p.lane = (u.port.get r).lane) : Still u (u.setPort r p) := by
    obtain ⟨slots, responses, lane⟩ := h
    exact setPort_still _ _ _ ⟨by rw [lane], fun bare => ⟨slots.trans bare.1, responses.trans bare.2⟩⟩
  have refused (why : RefuseReason) (u : Part) : Still u (refuseGathered r why u) := by
    unfold refuseGathered
    split
    · exact recorded _ u ⟨rfl, rfl, rfl⟩
    all_goals exact .refl u
  unfold handLoss
  split
  · exact (refused _ s).trans (recorded _ _ ⟨rfl, rfl, rfl⟩)
  all_goals exact .refl s

theorem leaveLocked_still (r : Rig) (st : RxState) (s : Part) : Still s (leaveLocked r st s) :=
  (((((setRx_same _ _ _).still rfl).trans ((flushRing_same _ _).still rfl)).trans ((setHealth_same _ _ _).still rfl)).trans
    (handLoss_still _ _)).trans (sourceLost_still _ _)

theorem trackerTurn_still (ord : Order) (s : Part) : Still s (trackerTurn ord s) := by
  have requested : Still s (requestPart ord s) := ((withTracker_same _ s).still rfl).trans (lossTurn_keeps Still.refl Still.trans
    (fun _ _ _ _ => ((setRx_same _ _ _).still rfl).trans (leaveLocked_still _ _ _)) ord _)
  have align (o n : Tracker) (c : Option Correction) (t : Tracker) (u : Part) :
      Still u (raiseAlign o n c { u with tracker := t }) :=
    ((withTracker_same t u).still rfl).trans (.when (raise_still _ _))
  cases h : (derivedTracker s).side s.tables.setup.reference with
  | none =>
    rw [trackerTurn_of_none ord s h]
    exact requested.trans (align _ _ _ _ _)
  | some side =>
    rw [trackerTurn_of_some ord s side.1 side.2 h]
    exact (requested.trans ((moveRing_same _ _ _).still rfl)).trans (align _ _ _ _ _)

theorem matchTurn_still (s : Part) : Still s (matchTurn s) := .when (withGang_still _ s (by rfl))

/-- R121, R122: the comparison and the resending leave the link. -/
theorem resent_still (s : Part) : Still s (resendTurn (mismatchTurn s)) := by
  have repaired (g : Fin 16) (u : Part) : Still u (repairGroup g u) := by
    unfold repairGroup
    split
    · exact queueMove_still _ _
    · exact .refl u
  have resent (ref : Fin 8) (u : Part) : Still u (resendOne ref u) := by
    unfold resendOne
    refine .when ?_
    split
    · exact withGang_still _ u (by rfl)
    · exact .refl u
  have compared : Still s (mismatchTurn s) :=
    .when ((withGang_still _ s (by rfl)).trans (.foldl (fun _ _ => repaired _ _) _ _))
  exact compared.trans (.foldl (fun _ _ => resent _ _) _ _)

end Sys2Proof.Machine
end


section
/-! The clock's sources (R24 to R27): their order, the counts at a boundary, and what changes them alone. -/

namespace Sys2Proof.Machine

/-! ## The order (R24, R26) -/

theorem sourceRanks (reference : Rig) :
    [Source.ref, .gang, rigSource reference, rigSource reference.other, .free].map (sourceRank reference) =
      [0, 1, 2, 3, 4] := by cases reference <;> decide

/-- R26: the first source in the order whose count stands at 200. -/
theorem bestSource_eq (reference : Rig) (q : Qual) : bestSource reference q =
    if 200 ≤ q.ref then .ref else if 200 ≤ q.gang then .gang
    else if 200 ≤ q.get (rigSource reference) then rigSource reference
    else if 200 ≤ q.get (rigSource reference.other) then rigSource reference.other else .free := by
  have first (src : Source) (rest : List Source) : ((src :: rest).find? fun k => q.qualified k).getD .free =
      if 200 ≤ q.get src then src else (rest.find? fun k => q.qualified k).getD .free := by
    rw [List.find?_cons]
    by_cases h : 200 ≤ q.get src <;> simp [Qual.qualified, h]
  unfold bestSource sourceOrder
  simp only [first, List.find?_nil, Option.getD_none, ite_self]
  rfl

theorem sourceOrdered (reference : Rig) (q : Qual) :
    (200 ≤ q.ref → bestSource reference q = .ref) ∧
    (q.ref < 200 →
      (200 ≤ q.gang → bestSource reference q = .gang) ∧
      (q.gang < 200 →
        (200 ≤ q.get (rigSource reference) → bestSource reference q = rigSource reference) ∧
        (q.get (rigSource reference) < 200 →
          (200 ≤ q.get (rigSource reference.other) → bestSource reference q = rigSource reference.other) ∧
          (q.get (rigSource reference.other) < 200 → bestSource reference q = .free)))) := by
  rw [bestSource_eq]
  refine ⟨fun h => if_pos h, fun href => ?_⟩
  rw [if_neg href.not_ge]
  refine ⟨fun h => if_pos h, fun hgang => ?_⟩
  rw [if_neg hgang.not_ge]
  refine ⟨fun h => if_pos h, fun hrig => ?_⟩
  rw [if_neg hrig.not_ge]
  exact ⟨fun h => if_pos h, fun h => if_neg h.not_ge⟩

/-! ## The counts at the clock's turn (R25) -/

theorem selectBetter_qual (s : Part) : (selectBetter s).clock.qual = s.clock.qual := by
  unfold selectBetter
  dsimp only
  split <;> rfl

theorem clockTurn_qual (s : Part) (src : Source) (h : src ≠ .free) :
    (clockTurn s).clock.qual.get src = qualNext s src := by
  rw [clockTurn, selectBetter_qual]
  cases src with
  | free => exact absurd rfl h
  | ref | gang | rigA | rigB => rfl

theorem qualNext_of_present {s : Part} {src : Source} (h : sourcePresent s src = true) :
    qualNext s src = min (s.clock.qual.get src + 1) 200 := by
  rw [qualNext, if_pos h]
  rfl

theorem qualNext_of_absent {s : Part} {src : Source} (h : sourcePresent s src = false) :
    qualNext s src = s.clock.qual.get src := by simp [qualNext, h]

theorem sourcePresent_rigSource (s : Part) (x : Rig) :
    sourcePresent s (rigSource x) = true ↔ (s.rx.get x).state = .locked := by
  cases x <;> simp [sourcePresent, rigSource, isLocked]

theorem sourcePresent_gang (s : Part) :
    sourcePresent s .gang = true ↔ s.gang.role = .follower ∧ s.gang.state = .up := by simp [sourcePresent]

/-- R24: what a source's presence and count are read from. -/
structure SourcesStand (s t : Part) : Prop where
  qual : t.clock.qual = s.clock.qual
  signal : t.clock.refSignal = s.clock.refSignal
  link : t.gang.link = s.gang.link
  rx : t.rx = s.rx

theorem SourcesStand.trans {s t u : Part} (h : SourcesStand s t) (k : SourcesStand t u) : SourcesStand s u :=
  ⟨k.qual.trans h.qual, k.signal.trans h.signal, k.link.trans h.link, k.rx.trans h.rx⟩

theorem Same.sourcesStand {F : List Block} {s t : Part} (h : Same F s t) (hc : F.contains .clock = false)
    (hr : F.contains .rx = false) (hl : t.gang.link = s.gang.link) : SourcesStand s t := by
  have clock : t.clock = s.clock := h.get .clock hc
  exact ⟨by rw [clock], by rw [clock], hl, h.get .rx hr⟩

theorem SourcesStand.qualNext {s t : Part} (h : SourcesStand s t) (src : Source) : qualNext t src = qualNext s src := by
  obtain ⟨qual, signal, link, rx⟩ := h
  simp only [Gang.link, Prod.mk.injEq] at link
  obtain ⟨role, state, -, -⟩ := link
  have present : sourcePresent t src = sourcePresent s src := by
    cases src <;> simp [sourcePresent, isLocked, signal, role, state, rx]
  rw [Machine.qualNext, Machine.qualNext, present, qual]

theorem takeGangMsg_gangLink (p : Part) : (takeGangMsg p).2.gang.link = p.gang.link := by
  unfold takeGangMsg noteSent
  repeat' split
  all_goals rfl

theorem adoptTurn_link (s : Part) : (adoptTurn s).gang.link = s.gang.link := by
  unfold adoptTurn adoptCount
  repeat' split
  all_goals rfl

/-- R111: the frames begun first leave the link. -/
theorem framesBefore_link (ord : Order) (s : Part) : (framesBefore ord s).gang.link = s.gang.link := by
  have frames : (if ord.framesFirst then beginFrames s else s).gang = s.gang := by
    split
    · exact (beginFrames_same s).get .gang rfl
    · rfl
  unfold framesBefore
  dsimp only
  split
  · exact (takeGangMsg_gangLink _).trans (congrArg Gang.link frames)
  · exact congrArg Gang.link frames

/-! ## A receiver that leaves LOCKED inside a boundary (R25, R37; log 38) -/

theorem Qual.get_set_other (q : Qual) (src k : Source) (n : Nat) (h : k ≠ src) : (q.set src n).get k = q.get k := by
  cases src <;> cases k <;> simp_all [Qual.get, Qual.set]

theorem rigSource_injective {x y : Rig} (h : rigSource x = rigSource y) : x = y := by
  cases x <;> cases y <;> simp_all [rigSource]

section
variable (ord : Order) (s : Part) (x : Rig)

theorem loseLock_qual (h : losesAt ord s x) :
    (loseLock x (lossOf ord x) s).clock.qual = s.clock.qual.set (rigSource x) 0 := by
  rw [loseLock_of_losesAt ord x s h, leaveLocked_clock]
  rfl

theorem loseLock_qual_stands (src : Source) (h : src = rigSource x → ¬losesAt ord s x) :
    (loseLock x (lossOf ord x) s).clock.qual.get src = s.clock.qual.get src := by
  by_cases hx : losesAt ord s x
  · rw [loseLock_qual ord s x hx, Qual.get_set_other _ _ _ _ fun e => h e hx]
  · rw [loseLock_of_not_losesAt ord x s hx]

theorem losesAt_B_of_A : losesAt ord (loseLock .A (lossOf ord .A) s) .B ↔ losesAt ord s .B :=
  losesAt_congr (loseLock_otherStands ord .A s).rx

theorem lossTurn_qual_of_losesAt (h : losesAt ord s x) : (lossTurn ord s).clock.qual.get (rigSource x) = 0 := by
  cases x with
  | A =>
    rw [lossTurn, loseLock_qual_stands ord _ .B _ (fun e => by cases e), loseLock_qual ord s .A h, Qual.get_set_rigSource]
  | B => rw [lossTurn, loseLock_qual ord _ .B ((losesAt_B_of_A ord s).mpr h), Qual.get_set_rigSource]

/-- R25: the count of a source that is no losing rig stands. -/
theorem lossTurn_qual_stands (src : Source) (h : ∀ x, src = rigSource x → ¬losesAt ord s x) :
    (lossTurn ord s).clock.qual.get src = s.clock.qual.get src := by
  rw [lossTurn, loseLock_qual_stands ord _ .B src fun e k => h .B e ((losesAt_B_of_A ord s).mp k),
    loseLock_qual_stands ord s .A src (h .A)]
end

theorem requestPart_qual_of_losesAt (ord : Order) (s : Part) (x : Rig) (h : losesAt ord s x) :
    (requestPart ord s).clock.qual.get (rigSource x) = 0 :=
  lossTurn_qual_of_losesAt ord { s with tracker := derivedTracker s } x h

theorem requestPart_qual_stands (ord : Order) (s : Part) (src : Source) (h : ∀ x, src = rigSource x → ¬losesAt ord s x) :
    (requestPart ord s).clock.qual.get src = s.clock.qual.get src :=
  lossTurn_qual_stands ord { s with tracker := derivedTracker s } src h

/-! ## The link's silence (R113) -/

/-- R25, R113: a lost link changes of the clock the count of GANG and the selection. -/
theorem linkLost_qual (s : Part) : (linkLost s).clock.qual = s.clock.qual.set .gang 0 := by
  have reclaimed : Same [.gang, .port, .groups] s (allRefs.foldl (fun t ref => reclaim ref t) (clearBoard s)) :=
    ((clearBoard_same s).mono rfl).trans (Same.foldl (fun _ _ => (reclaim_same _ _).mono rfl) _ _)
  have emptied (k : Gang) (u : Part) : (setGangState .lost { u with gang := k }).clock = u.clock :=
    (setGangState_same _ _).get .clock rfl
  have clock : (allRefs.foldl (fun t ref => reclaim ref t) (clearBoard s)).clock = s.clock := reclaimed.get .clock rfl
  unfold linkLost
  dsimp only
  rw [sourceLost_clock _ _ (by decide), emptied, clock]

theorem silenceTurn_clock (s : Part) (h : silenceNext s < 8) : (silenceTurn s).clock = s.clock := by
  unfold silenceTurn
  dsimp only
  rw [if_neg h.not_ge]
  split <;> rfl

theorem silenceTurn_qual (s : Part) (src : Source) (h : src ≠ .gang) :
    (silenceTurn s).clock.qual.get src = s.clock.qual.get src := by
  unfold silenceTurn
  dsimp only
  repeat' split
  case isFalse.isTrue.isTrue => rw [linkLost_qual, Qual.get_set_other _ _ _ _ h]
  all_goals rfl

theorem silenceNext_lt (s : Part) (h : s.gang.silence < 7) : silenceNext s < 8 := by
  unfold silenceNext rise
  split
  · exact h.trans (by decide)
  · omega

/-! ## The counts of a boundary (R25) -/

section
variable (l : Lines) (ord : Order) (s : Part)

/-- The part of a boundary as its Frame Clock takes its turn. -/
def matchedPart : Part := matchTurn (writesTurn (keyTurn l.key (framesBefore ord (openBoundary l s))))

theorem clockedPart_matched : clockedPart l ord s = clockTurn (matchedPart l ord s) := rfl

theorem openBoundary_sources (h : noResetDue s) : SourcesStand s (openBoundary l s) := by
  obtain ⟨gang, clock⟩ := counted_eq s
  have opened : Same [.store, .port, .program, .health, .tracker] (adoptTurn (countTurn (endFrames s))) (openBoundary l s) := by
    rw [openBoundary_of_noReset l s h]
    exact ((owedTurn_same _).mono rfl).trans ((promote_same _).mono rfl)
  have gang' : (openBoundary l s).gang = (adoptTurn (countTurn (endFrames s))).gang := opened.get .gang rfl
  have clock' : (openBoundary l s).clock = { s.clock with
      phase := 0, started := true, frame := (adoptTurn (countTurn (endFrames s))).clock.frame } := by
    rw [openBoundary_clock l s h, adoptTurn_clock, clock]
  exact ⟨by rw [clock'], by rw [clock'], by rw [gang', adoptTurn_link, gang], (openBoundary_quiet l s h).get .rx rfl⟩

theorem matchedPart_sources (h : noResetDue s) : SourcesStand s (matchedPart l ord s) := by
  have framed : SourcesStand (openBoundary l s) (framesBefore ord (openBoundary l s)) :=
    (framesBefore_same ord _).sourcesStand rfl rfl (framesBefore_link ord _)
  have keyed (u : Part) : SourcesStand u (keyTurn l.key u) := (keyTurn_same _ _).sourcesStand rfl rfl (keyTurn_still _ _).link
  have written (u : Part) : SourcesStand u (writesTurn u) :=
    (writesTurn_same _).sourcesStand rfl rfl (congrArg Gang.link ((writesTurn_same u).get .gang rfl))
  have matched (u : Part) : SourcesStand u (matchTurn u) := (matchTurn_same _).sourcesStand rfl rfl (matchTurn_still _).link
  exact (openBoundary_sources l s h).trans (((framed.trans (keyed _)).trans (written _)).trans (matched _))

/-- R25: the counts as the Alignment Tracker's turn finds them. -/
theorem watchedPart_qual (h : noResetDue s) (src : Source) (hf : src ≠ .free) :
    (watchedPart l ord s).clock.qual.get src = qualNext s src := by
  have clock : (watchedPart l ord s).clock = (clockedPart l ord s).clock := (watchTurn_same _ _ _).get .clock rfl
  rw [clock, clockedPart_matched, clockTurn_qual _ _ hf, (matchedPart_sources l ord s h).qualNext]

theorem trackedPart_qual : (trackedPart l ord s).clock.qual = (requestPart ord (watchedPart l ord s)).clock.qual :=
  congrArg FrameClock.qual ((trackerTurn_same_requested ord (watchedPart l ord s)).get .clock rfl)

theorem trackedPart_qual_of_losesAt (h : noResetDue s) (x : Rig) (hx : losesAt ord s x) :
    (trackedPart l ord s).clock.qual.get (rigSource x) = 0 := by
  rw [trackedPart_qual, requestPart_qual_of_losesAt ord _ x ((watchedPart_losesAt l ord s h x).mpr hx)]

theorem trackedPart_qual_stands (h : noResetDue s) (src : Source) (hf : src ≠ .free)
    (hx : ∀ x, src = rigSource x → ¬losesAt ord s x) : (trackedPart l ord s).clock.qual.get src = qualNext s src := by
  rw [trackedPart_qual, requestPart_qual_stands ord _ src fun x e k => hx x e ((watchedPart_losesAt l ord s h x).mp k),
    watchedPart_qual l ord s h src hf]

/-- The part of a boundary whose Gang Port has yet to count the link's silence. -/
def resentPart : Part := resendTurn (mismatchTurn (switchTurn l ord (trackedPart l ord s)))

theorem boundary_resent : boundary l ord s = framesAfter ord (silenceTurn (resentPart l ord s)) := rfl

theorem resentPart_clock : (resentPart l ord s).clock = (trackedPart l ord s).clock :=
  (((resendTurn_same _).get .clock rfl).trans ((mismatchTurn_same _).get .clock rfl)).trans
    ((switchTurn_same l ord _).get .clock rfl)

theorem boundary_qual (src : Source) (h : src ≠ .gang) :
    (boundary l ord s).clock.qual.get src = (trackedPart l ord s).clock.qual.get src := by
  have clock : (boundary l ord s).clock = (silenceTurn (resentPart l ord s)).clock := (framesAfter_same ord _).get .clock rfl
  rw [clock, silenceTurn_qual _ _ h, resentPart_clock]

/-- R113: the link as the Gang Port counts its silence. -/
theorem resentPart_link (h : noResetDue s) : (resentPart l ord s).gang.link = s.gang.link := by
  have clocked : (clockedPart l ord s).gang.link = s.gang.link :=
    (clockTurn_still _).link.trans (matchedPart_sources l ord s h).link
  have watched : (watchedPart l ord s).gang.link = s.gang.link := (watchTurn_still _ _ _).link.trans clocked
  exact (((trackerTurn_still ord _).trans (switchTurn_still l ord _)).trans (resent_still _)).link.trans watched

theorem boundary_qual_gang (h : noResetDue s) (hs : s.gang.silence < 7) :
    (boundary l ord s).clock.qual.gang = qualNext s .gang := by
  have clock : (boundary l ord s).clock = (silenceTurn (resentPart l ord s)).clock := (framesAfter_same ord _).get .clock rfl
  have link := resentPart_link l ord s h
  simp only [Gang.link, Prod.mk.injEq] at link
  obtain ⟨-, -, silence, -⟩ := link
  rw [clock, silenceTurn_clock _ (silenceNext_lt _ (by rw [silence]; exact hs)), resentPart_clock]
  exact trackedPart_qual_stands l ord s h .gang (by decide) fun x e => by cases x <;> cases e
end

/-! ## A source on its own (R25 to R27; logs 1 and 21) -/

/-- R26, R27: a better source is selected with the CLOCK notice. -/
theorem selectBetter_eq (s : Part) : selectBetter s =
    if sourceRank s.tables.setup.reference (bestSource s.tables.setup.reference s.clock.qual) <
        sourceRank s.tables.setup.reference s.clock.selected then
      selectSource (bestSource s.tables.setup.reference s.clock.qual) false s
    else s := rfl

theorem raised_selectSource (src : Source) (loss : Bool) (s : Part) :
    raised (selectSource src loss s) (.clock s.clock.selected src loss) := raised_raise _ _

/-- R25: SOURCE_QUALIFIED at a count of 199. -/
theorem exec_sourceQualified (src : Source) (s : State) (hr : s.inReset = false)
    (hp : sourcePresent s.toPart src = true) (hq : s.clock.qual.get src = 199) :
    exec (.sourceQualified src) s = .next (s.withPart (selectBetter
      { s.toPart with clock := { s.clock with qual := s.clock.qual.set src 200 } })) := by
  have run := exec_of_running (c := .sourceQualified src) rfl hr
  rw [run]
  simp [hp, hq]

theorem exec_refSignalLost (s : State) : exec .refSignalLost s = .next (s.withPart
    (if s.inReset then { s.toPart with clock := { s.clock with refSignal := false } }
    else sourceLost .ref { s.toPart with clock := { s.clock with refSignal := false } })) := rfl

/-- R27: the selection of SOURCE_QUALIFIED, with its notice. -/
theorem selectBetter_selects (s : Part) :
    (selectBetter s).clock.selected = (if
        sourceRank s.tables.setup.reference (bestSource s.tables.setup.reference s.clock.qual) <
          sourceRank s.tables.setup.reference s.clock.selected then
        bestSource s.tables.setup.reference s.clock.qual else s.clock.selected) ∧
      ((selectBetter s).clock.selected ≠ s.clock.selected →
        raised (selectBetter s) (.clock s.clock.selected (selectBetter s).clock.selected false)) ∧
      ((selectBetter s).clock.selected = s.clock.selected → noNotice s (selectBetter s)) := by
  rw [selectBetter_eq]
  split
  next better =>
    refine ⟨rfl, fun _ => raised_selectSource _ _ _, fun e => ?_⟩
    have same : bestSource s.tables.setup.reference s.clock.qual = s.clock.selected := e
    rw [same] at better
    exact absurd better (lt_irrefl _)
  next => exact ⟨rfl, fun e => absurd rfl e, fun _ => ⟨rfl, rfl, rfl⟩⟩

/-- Settles O17. -/
theorem clockSources : Obligations.ClockSources := by
  refine ⟨fun reference q => ⟨sourceRanks reference, sourceOrdered reference q⟩, fun l ord s h => ?_,
    fun src s hr hp _ hq => ?_, fun s => ⟨rfl, fun hr => ?_, fun hr hsel => ?_, fun hr hsel => ?_⟩⟩
  · have stands (src : Source) (hg : src ≠ .gang) (hf : src ≠ .free) (hx : ∀ x, src = rigSource x → ¬losesAt ord s.toPart x) :
        (boundary l ord s.toPart).clock.qual.get src = qualNext s.toPart src :=
      (boundary_qual l ord _ src hg).trans (trackedPart_qual_stands l ord _ h src hf hx)
    have ref := stands .ref (by decide) (by decide) fun x e => by cases x <;> cases e
    have rigGang (x : Rig) : rigSource x ≠ .gang := by cases x <;> decide
    refine ⟨_, exec_boundary l ord s h.1, fun hs => ref.trans (qualNext_of_present hs),
      fun hs => ref.trans (qualNext_of_absent hs), fun x => ⟨fun hx => ?_, fun hx => ?_⟩, fun hs => ?_⟩
    · exact (boundary_qual l ord _ _ (rigGang x)).trans (trackedPart_qual_of_losesAt l ord _ h x hx)
    · have rig := stands (rigSource x) (rigGang x) (rigSource_ne_free x) fun y e => by rwa [← rigSource_injective e]
      exact ⟨fun hl => rig.trans (qualNext_of_present ((sourcePresent_rigSource _ x).mpr hl)),
        fun hl => rig.trans (qualNext_of_absent (Bool.eq_false_iff.mpr (mt (sourcePresent_rigSource _ x).mp hl)))⟩
    · have gang := boundary_qual_gang l ord s.toPart h hs
      refine ⟨fun up => gang.trans (qualNext_of_present ((sourcePresent_gang _).mpr up)), fun down => ?_⟩
      refine gang.trans (qualNext_of_absent (Bool.eq_false_iff.mpr fun k => ?_))
      obtain ⟨role, state⟩ := (sourcePresent_gang _).mp k
      exact down.elim (fun e => e role) fun e => e state
  · obtain ⟨selected, raises, quiet⟩ :=
      selectBetter_selects { s.toPart with clock := { s.clock with qual := s.clock.qual.set src 200 } }
    exact ⟨_, exec_sourceQualified src s hr hp hq, selectBetter_qual _, selected, raises, quiet⟩
  · rw [exec_refSignalLost, if_pos hr]
    rfl
  · rw [exec_refSignalLost, if_neg (by simp [hr])]
    simp [sourceLost, hsel]
    rfl
  · refine ⟨_, exec_refSignalLost s, ?_⟩
    rw [if_neg (by simp [hr])]
    have lost := sourceLost_selected .ref { s.toPart with clock := { s.clock with refSignal := false } } hsel (by decide)
    rw [lost]
    refine ⟨rfl, rfl, rfl, ?_⟩
    have notice := raised_selectSource (bestSource s.tables.setup.reference (s.clock.qual.set .ref 0)) true
      { s.toPart with clock := { s.clock with refSignal := false, qual := s.clock.qual.set .ref 0 } }
    rw [hsel] at notice
    exact notice

end Sys2Proof.Machine
end


section
/-! The command reset on its own, and where it takes effect at a boundary (R23, R134, R160; log 47). -/

namespace Sys2Proof.Machine

/-! ## On its own (R160, R167) -/

/-- What a command reset clears before the lines are read. -/
def commandCleared (s : Part) : Part := { resetBlocks s with store := s.store.atReset }

theorem commandReset_eq (l : Lines) (s : Part) : commandReset l s = endReset l (commandCleared s) := rfl

theorem commandCleared_blocksReset (s : Part) : BlocksReset (commandCleared s) := { resetBlocks_blocksReset s with }

theorem commandReset_blocksReset (l : Lines) (s : Part) : BlocksReset (commandReset l s) :=
  endReset_blocksReset l _ (commandCleared_blocksReset s)

theorem commandReset_linesRead (l : Lines) (s : Part) : linesRead s (commandReset l s) l :=
  endReset_linesRead l (commandCleared s) s (resetBlocks_activity s) (resetBlocks_state s)

theorem commandReset_level (l : Lines) (s : Part) : (commandReset l s).lock.level =
    (if s.lock.level = .frozen then .frozen else if l.key then .guarded else .opened) :=
  congrArg ShowLock.level (endReset_lock l (commandCleared s))

theorem commandReset_bypass (l : Lines) (s : Part) : (commandReset l s).panel.bypass = s.panel.bypass := by
  rw [commandReset_eq, endReset_panel]
  rfl

/-- R163, R166: the store of a command reset, and the tables, which a save in progress defers. -/
theorem commandReset_store (l : Lines) (s : Part) : (commandReset l s).store.image = s.store.image ∧
    (if s.store.save = .saving then
      (commandReset l s).tables = s.tables ∧ (commandReset l s).store.save = .saving ∧
        (commandReset l s).store.snapshot = s.store.snapshot ∧ (commandReset l s).store.reload = true
    else tablesLoaded (commandReset l s) ∧ (commandReset l s).store.save = .none ∧
      (commandReset l s).store.reload = false) := by
  obtain ⟨image, -, save⟩ := s.store.atReset_cases
  rw [commandReset_eq]
  by_cases h : s.store.save = .saving
  · rw [if_pos h] at save ⊢
    obtain ⟨saving, snapshot, reload⟩ := save
    obtain ⟨tables, store⟩ := endReset_deferred l (commandCleared s) reload
    rw [tables, store]
    exact ⟨image, rfl, saving, snapshot, reload⟩
  · rw [if_neg h] at save ⊢
    obtain ⟨saved, -, reload⟩ := save
    have loaded := endReset_tablesLoaded l (commandCleared s) reload
    refine ⟨?_, loaded, ?_, ?_⟩ <;> rw [endReset_store l (commandCleared s) reload]
    · exact image
    · exact saved
    · exact reload

theorem exec_commandReset (l : Lines) (s : State) (h : s.inReset = false) : exec (.commandReset l) s =
    .next (s.withPart (if s.resetRequested then commandReset l s.toPart else s.toPart)) :=
  exec_of_running (c := .commandReset l) rfl h

/-! ## What a lane and a port keep until the frames are begun (R132, R134) -/

/-- R134: no port has a command in progress or has begun a frame, and every lane owes its CANCEL chunk. -/
structure OwesCancel (s : Part) : Prop where
  port : ∀ r, (s.port.get r).bare ∧ (s.port.get r).lane.cancelFirst = true ∧ (s.port.get r).seq = 0#16
  program : s.program.lane.cancelFirst = true ∧ s.program.seq = 0#16 ∧ s.program.beat = 0#8

/-- R134: the first frames since a command reset stand begun, each with the CANCEL chunk. -/
structure CancelBegun (s : Part) : Prop where
  port : ∀ r, (s.port.get r).bare ∧ (s.port.get r).seq = 1#16 ∧
    ∃ body, (s.port.get r).out = some (sealFrame body) ∧ body.take 2 = be16 0#16 ∧ body.drop 30 = cancelChunk
  program : ∃ f, s.program.out = some f ∧ f.seq = 0#16 ∧ f.beat = 0#8 ∧ f.lane = cancelChunk

/-- From `s` to `t` the begun frames stand, the lanes owe what they owed, a bare port stays bare, and so does the bypass
latch. -/
structure Kept (s t : Part) : Prop where
  sent : SentStand s t
  port : ∀ r, (s.port.get r).keeps (t.port.get r)
  program : t.program.lane.cancelFirst = s.program.lane.cancelFirst
  bypass : t.panel.bypass = s.panel.bypass

theorem Still.kept {s t : Part} (h : Still s t) (k : SentStand s t) : Kept s t := ⟨k, h.port, h.program, h.bypass⟩

theorem Kept.trans {s t u : Part} (h : Kept s t) (k : Kept t u) : Kept s u :=
  ⟨h.sent.trans k.sent, fun r => Port.keeps_trans (h.port r) (k.port r), k.program.trans h.program, k.bypass.trans h.bypass⟩

theorem Same.kept {F : List Block} {s t : Part} (h : Same F s t)
    (hF : [Block.port, .program, .panel].all (fun b => !F.contains b) = true) : Kept s t := by
  simp only [List.all_cons, List.all_nil, Bool.and_eq_true, Bool.not_eq_true', Bool.and_true] at hF
  obtain ⟨hport, hprogram, hpanel⟩ := hF
  have port : t.port = s.port := h.get .port hport
  have program : t.program = s.program := h.get .program hprogram
  have panel : t.panel = s.panel := h.get .panel hpanel
  exact ⟨h.sent hport hprogram, fun r => by rw [port]; exact Port.keeps_refl _, by rw [program], by rw [panel]⟩

theorem OwesCancel.kept {s t : Part} (h : OwesCancel s) (k : Kept s t) : OwesCancel t := by
  obtain ⟨lane, seq, beat⟩ := h.program
  refine ⟨fun r => ?_, k.program.trans lane, ?_⟩
  · obtain ⟨bare, owes, none⟩ := h.port r
    obtain ⟨stands, stays⟩ := k.port r
    exact ⟨stays bare, stands.trans owes, (k.sent.seq r).trans none⟩
  · rw [k.sent.program]
    exact ⟨seq, beat⟩

theorem CancelBegun.kept {s t : Part} (h : CancelBegun s) (k : Kept s t) : CancelBegun t := by
  refine ⟨fun r => ?_, ?_⟩
  · obtain ⟨bare, seq, body, out, start, chunk⟩ := h.port r
    exact ⟨(k.port r).2 bare, (k.sent.seq r).trans seq, body, (k.sent.out r).trans out, start, chunk⟩
  · rw [k.sent.program]
    exact h.program

/-! ## The frames (R6, R8, R132) -/

/-- R132: a lane that owes its CANCEL chunk sends it, and no response. -/
theorem send_of_owing {l : Lane} (h : l.cancelFirst = true) (isPaused : Bool) (responses : List Response) :
    (l.send isPaused responses).1 = cancelChunk ∧ (l.send isPaused responses).2.2 = responses := by
  rw [Lane.send, if_pos h]
  exact ⟨rfl, rfl⟩

theorem returnBody_parts (seq : Half) {summary chunk : List Byte} (h : summary.length = 24) :
    (be16 seq ++ summary ++ List.replicate 4 0#8 ++ chunk).take 2 = be16 seq ∧
      (be16 seq ++ summary ++ List.replicate 4 0#8 ++ chunk).drop 30 = chunk := by
  have two : (be16 seq).length = 2 := rfl
  refine ⟨?_, List.drop_left' (by simp [h, two])⟩
  rw [List.append_assoc, List.append_assoc]
  exact List.take_left' two

/-- R6, R134: the return frame that a port begins after a command reset. -/
theorem beginReturn_of_owing (r : Rig) (s : Part) (hb : (s.port.get r).bare) (hc : (s.port.get r).lane.cancelFirst = true)
    (hs : (s.port.get r).seq = 0#16) :
    ((beginReturn r s).port.get r).bare ∧ ((beginReturn r s).port.get r).seq = 1#16 ∧
      ∃ body, ((beginReturn r s).port.get r).out = some (sealFrame body) ∧ body.take 2 = be16 0#16 ∧
        body.drop 30 = cancelChunk := by
  obtain ⟨slots, responses⟩ := hb
  obtain ⟨chunk, rest⟩ := send_of_owing hc (paused s r) (s.port.get r).responses
  have sent : (sendChunk r s).1 = cancelChunk := chunk
  have port : (sendChunk r s).2.port.get r = { s.port.get r with
      lane := ((s.port.get r).lane.send (paused s r) (s.port.get r).responses).2.1
      responses := ((s.port.get r).lane.send (paused s r) (s.port.get r).responses).2.2 } := by simp [sendChunk]
  obtain ⟨start, tail⟩ := returnBody_parts 0#16 (chunk := cancelChunk) (summaryBytes_length (sendChunk r s).2 r)
  rw [beginReturn_port, sent, port, hs]
  exact ⟨⟨slots, rest.trans responses⟩, rfl, _, rfl, start, tail⟩

theorem beginFrames_of_owing {s : Part} (h : OwesCancel s) : CancelBegun (beginFrames s) := by
  have port : (beginFrames s).port = (beginReturn .B (beginReturn .A s)).port := (programLane_same _).get .port rfl
  have program : (beginReturn .B (beginReturn .A s)).program = s.program :=
    ((beginReturn_same _ _).get .program rfl).trans ((beginReturn_same _ _).get .program rfl)
  refine ⟨fun r => ?_, ?_⟩
  · obtain ⟨bare, owes, seq⟩ := h.port r
    rw [port]
    cases r with
    | A =>
      rw [beginReturn_port_other (r := .B) (q := .A) _ (by decide)]
      exact beginReturn_of_owing .A s bare owes seq
    | B =>
      have other := beginReturn_port_other (r := .A) (q := .B) s (by decide)
      exact beginReturn_of_owing .B _ (by rwa [other]) (by rwa [other]) (by rwa [other])
  · obtain ⟨owes, seq, beat⟩ := h.program
    rw [← program] at owes seq beat
    exact ⟨_, rfl, seq, beat, (send_of_owing owes false []).1⟩

theorem beginGang_kept (s : Part) : Kept s (beginGang s) := (beginGang_same s).kept rfl

/-- R111: the gang frame, begun before the turns or after them. -/
theorem gangFirst_kept (ord : Order) (s : Part) : Kept s (if ord.gangFirst then beginGang s else s) := by
  split
  · exact beginGang_kept s
  · exact (Same.refl [] s).kept rfl

theorem gangLast_kept (ord : Order) (s : Part) : Kept s (if ord.gangFirst then s else beginGang s) := by
  split
  · exact (Same.refl [] s).kept rfl
  · exact beginGang_kept s

/-- R9: the header leaves the lane's chunk. -/
theorem CancelBegun.header {s : Part} (h : CancelBegun s) : CancelBegun (programHeader s) := by
  have port : (programHeader s).port = s.port := (programHeader_same s).get .port rfl
  obtain ⟨f, out, seq, beat, lane⟩ := h.program
  refine ⟨fun r => by rw [port]; exact h.port r, { f with
    stamp := (headerFields s).1, cue := (headerFields s).2.1, transport := (headerFields s).2.2 }, ?_, seq, beat, lane⟩
  simp [programHeader, out]

/-! ## The turns of the boundary -/

/-- R113: a link that is not up is not lost. -/
theorem silenceTurn_of_not_up (s : Part) (h : s.gang.state ≠ .up) : Same [.gang] s (silenceTurn s) := by
  unfold silenceTurn
  dsimp only
  rw [if_neg h]
  exact Same.ite (fun _ => .refl _ s) fun _ => Same.ite (fun _ => withGang_same _ s) fun _ => withGang_same _ s

/-- The turns of a boundary up to the count of the link's silence. -/
def heardPart (l : Lines) (ord : Order) (s : Part) : Part :=
  resendTurn (mismatchTurn (switchTurn l ord (trackerTurn ord (watchTurn ord s.health (clockTurn (matchTurn (writesTurn
    (keyTurn l.key s))))))))

theorem boundaryTurns_heard (l : Lines) (ord : Order) (s : Part) : boundaryTurns l ord s = silenceTurn (heardPart l ord s) :=
  rfl

theorem heardPart_still (l : Lines) (ord : Order) (s : Part) (hw : s.writes = []) : Still s (heardPart l ord s) := by
  have writes : (keyTurn l.key s).writes = [] := ((keyTurn_same _ _).get .writes rfl).trans hw
  have written : Still (keyTurn l.key s) (writesTurn (keyTurn l.key s)) := by
    rw [writesTurn_of_none _ writes]
    exact (withWrites_same _ _).still rfl
  have clocked := (((keyTurn_still _ s).trans written).trans (matchTurn_still _)).trans (clockTurn_still _)
  exact (((clocked.trans (watchTurn_still ord s.health _)).trans (trackerTurn_still ord _)).trans
    (switchTurn_still l ord _)).trans (resent_still _)

theorem boundaryTurns_kept (l : Lines) (ord : Order) (s : Part) (hw : s.writes = []) (hup : s.gang.state ≠ .up) :
    Kept s (boundaryTurns l ord s) := by
  have heard := heardPart_still l ord s hw
  have link := heard.link
  simp only [Gang.link, Prod.mk.injEq] at link
  obtain ⟨-, state, -, -⟩ := link
  have silent : Kept (heardPart l ord s) (silenceTurn (heardPart l ord s)) :=
    (silenceTurn_of_not_up _ (by rw [state]; exact hup)).kept rfl
  have sent := (boundaryTurns_fair l ord s).frames.sent
  rw [boundaryTurns_heard] at sent ⊢
  exact ⟨sent, fun r => Port.keeps_trans (heard.port r) (silent.port r), silent.program.trans heard.program,
    silent.bypass.trans heard.bypass⟩

/-- R134: whether the frames are begun before the turns or after them, each carries the CANCEL chunk. -/
theorem boundary_of_owing (l : Lines) (ord : Order) (s : Part) (h : OwesCancel s) (hw : s.writes = [])
    (hup : s.gang.state ≠ .up) : CancelBegun (framesAfter ord (boundaryTurns l ord (framesBefore ord s))) ∧
      (framesAfter ord (boundaryTurns l ord (framesBefore ord s))).panel.bypass = s.panel.bypass := by
  have before : Same [.port, .program, .gang] s (framesBefore ord s) := framesBefore_same ord s
  have link := framesBefore_link ord s
  simp only [Gang.link, Prod.mk.injEq] at link
  obtain ⟨-, state, -, -⟩ := link
  have kept := boundaryTurns_kept l ord (framesBefore ord s) ((before.get .writes rfl).trans hw) (by rw [state]; exact hup)
  have after : Same [.port, .program, .gang] (boundaryTurns l ord (framesBefore ord s)) _ := framesAfter_same ord _
  refine ⟨?_, (congrArg Panel.bypass (after.get .panel rfl)).trans
    (kept.bypass.trans (congrArg Panel.bypass (before.get .panel rfl)))⟩
  unfold framesAfter
  refine CancelBegun.header ?_
  cases hf : ord.framesFirst with
  | true =>
    have begun : CancelBegun (framesBefore ord s) := by
      unfold framesBefore
      simp only [hf, if_true]
      exact (beginFrames_of_owing h).kept (gangFirst_kept _ _)
    simp only [if_true]
    exact (begun.kept kept).kept (gangLast_kept _ _)
  | false =>
    have owes : OwesCancel (framesBefore ord s) := by
      unfold framesBefore
      simp only [hf, Bool.false_eq_true, if_false]
      exact h.kept (gangFirst_kept _ _)
    simp only [Bool.false_eq_true, if_false]
    exact (beginFrames_of_owing (owes.kept kept)).kept (gangLast_kept _ _)

/-! ## The opening (R134, R165) -/

section
variable (l : Lines) (ord : Order) (s : Part) (h : resetDue s)

theorem adoptTurn_of_reset {u : Part} (hu : BlocksReset u) : adoptTurn (countTurn u) = countTurn u := by
  obtain ⟨role, gang⟩ := hu.gang
  have gang' : (countTurn u).gang = Gang.initial role := gang
  refine adoptTurn_of_steady _ (by rw [gang']; rfl) (Bool.eq_false_iff.mpr fun hd => ?_)
  obtain ⟨-, -, arrived, -⟩ := (drifted_iff _).mp hd
  rw [gang'] at arrived
  cases arrived

include h in
theorem openBoundary_of_reset :
    openBoundary l s = promote (owedTurn (countTurn (commandReset l (endFrames s)))) := by
  unfold openBoundary
  dsimp only
  rw [if_pos h.2, adoptTurn_of_reset (commandReset_blocksReset l (endFrames s))]

theorem owedTurn_kept (u : Part) : Kept u (owedTurn u) := by
  have stored (k : Store) : Same [.store] u { u with store := k } := withStore_same k u
  have noticed (v : Part) : Kept v (defaultsLoaded v) := (raise_still _ v).kept (raise_calm _ v).frames.sent
  unfold owedTurn
  split
  · exact ((stored _).kept rfl).trans (noticed _)
  · exact (Same.refl [] u).kept rfl

include h in
theorem openBoundary_resets : Same [.clock, .store, .port, .program, .health, .tracker] (commandReset l (endFrames s))
    (openBoundary l s) := by
  rw [openBoundary_of_reset l s h]
  exact (((countTurn_same _).mono rfl).trans ((owedTurn_same _).mono rfl)).trans ((promote_same _).mono rfl)

include h in
theorem openBoundary_resetKept : Kept (commandReset l (endFrames s)) (openBoundary l s) := by
  rw [openBoundary_of_reset l s h]
  exact (((countTurn_same _).kept rfl).trans (owedTurn_kept _)).trans ((promote_same _).kept rfl)

/-- R134: a reset leaves every lane owing its CANCEL chunk. -/
theorem BlocksReset.owesCancel {u : Part} (hu : BlocksReset u) : OwesCancel u := by
  refine ⟨fun r => ?_, ?_⟩
  · rw [hu.port, PerRig.get_both]
    exact ⟨⟨rfl, rfl⟩, rfl, rfl⟩
  · rw [hu.program]
    exact ⟨rfl, rfl, rfl⟩

include h in
theorem openBoundary_owesCancel : OwesCancel (openBoundary l s) :=
  (commandReset_blocksReset l (endFrames s)).owesCancel.kept (openBoundary_resetKept l s h)

include h in
theorem openBoundary_bypass : (openBoundary l s).panel.bypass = s.panel.bypass := by
  rw [(openBoundary_resetKept l s h).bypass, commandReset_bypass]
  exact congrArg Panel.bypass ((endFrames_same s).get .panel rfl)

include h in
/-- R23: local frame 0. -/
theorem openBoundary_frameZero : (openBoundary l s).clock.frame = 0#32 ∧ (openBoundary l s).clock.phase = 0 ∧
    (openBoundary l s).clock.started = true := by
  obtain ⟨b, clock⟩ := (commandReset_blocksReset l (endFrames s)).clock
  have counted : (openBoundary l s).clock = (countTurn (commandReset l (endFrames s))).clock := by
    rw [openBoundary_of_reset l s h]
    exact ((promote_same _).get .clock rfl).trans ((owedTurn_same _).get .clock rfl)
  rw [counted, countTurn_clock, clock]
  exact ⟨rfl, rfl, rfl⟩

include h in
theorem openBoundary_notUp : (openBoundary l s).gang.state ≠ .up := by
  obtain ⟨role, reset⟩ := (commandReset_blocksReset l (endFrames s)).gang
  have gang : (openBoundary l s).gang = Gang.initial role := ((openBoundary_resets l s h).get .gang rfl).trans reset
  rw [gang]
  cases role <;> decide

theorem commandReset_not_locked (u : Part) (x : Rig) : isLocked (commandReset l u) x = false := by
  obtain ⟨state, -⟩ := commandReset_linesRead l u
  rw [isLocked, state x]
  split <;> rfl

include h in
theorem openBoundary_not_locked (x : Rig) : isLocked (openBoundary l s) x = false := by
  have rx : (openBoundary l s).rx = (commandReset l (endFrames s)).rx := (openBoundary_resets l s h).get .rx rfl
  rw [isLocked, rx]
  exact commandReset_not_locked l _ x

/-! ## What the turns leave of the reset -/

/-- R19: no receiver enters LOCKED before the groups' turn of a boundary. -/
theorem trackedPart_not_locked (x : Rig) (hx : isLocked (openBoundary l s) x = false) :
    isLocked (trackedPart l ord s) x = false := by
  have rx : (clockedPart l ord s).rx = (openBoundary l s).rx := (clockedPart_same l ord s).get .rx rfl
  have counted : CountersOnly (clockedPart l ord s) (watchedPart l ord s) := watchTurn_countersOnly _ _ _
  have watched : isLocked (watchedPart l ord s) x = false := by
    rw [isLocked, counted x, rx]
    exact hx
  have request : (trackedPart l ord s).rx = (requestPart ord (watchedPart l ord s)).rx :=
    (trackerTurn_same_requested ord _).get .rx rfl
  have locked : isLocked (requestPart ord (watchedPart l ord s)) x = true ↔ _ :=
    isLocked_lossTurn ord { watchedPart l ord s with tracker := derivedTracker (watchedPart l ord s) } x
  rw [isLocked, request, Bool.eq_false_iff]
  intro k
  obtain ⟨state, -⟩ := locked.mp k
  have lock : isLocked (watchedPart l ord s) x = true := by simpa [isLocked] using state
  rw [watched] at lock
  cases lock

/-- R105: takeover is not due while no receiver is LOCKED. -/
theorem takeoverDue_of_not_locked (u : Part) (hu : ∀ x, isLocked u x = false) : takeoverDue u = false := by
  simp [takeoverDue, triggerReady, hu]

theorem takeoverTurn_done (u : Part) (hu : ∀ x, isLocked u x = false) :
    (takeoverTurn u).takeover.done = u.takeover.done := by
  unfold takeoverTurn
  rw [takeoverDue_of_not_locked u hu]
  split <;> rfl

theorem switchTurn_done (u : Part) (hu : ∀ x, isLocked u x = false) :
    (switchTurn l ord u).takeover.done = u.takeover.done := by
  have requested : Same [.panel, .groups, .gang, .port, .program] u (startStrayMoves (requestTurn l ord u)) :=
    ((requestTurn_same l ord u).mono rfl).trans ((startStrayMoves_same _).mono rfl)
  have rx : (startStrayMoves (requestTurn l ord u)).rx = u.rx := requested.get .rx rfl
  have takeover : (startStrayMoves (requestTurn l ord u)).takeover = u.takeover := requested.get .takeover rfl
  have decided : Same [.panel, .groups, .gang, .port, .program, .tracker]
      (takeoverTurn (startStrayMoves (requestTurn l ord u))) (switchTurn l ord u) :=
    (((decideGroups_same (takenUpAt u) _).mono rfl).trans ((startPendingMoves_same _).mono rfl)).trans
      (((settleArrivals_same _).mono rfl).trans ((publishOnAir_same _).mono rfl))
  have after : (switchTurn l ord u).takeover = (takeoverTurn (startStrayMoves (requestTurn l ord u))).takeover :=
    decided.get .takeover rfl
  rw [after, takeoverTurn_done _ fun x => by rw [isLocked, rx]; exact hu x, takeover]

/-- The blocks that the turns before the groups' leave of a reset. -/
theorem trackedPart_stands : (trackedPart l ord s).takeover = (openBoundary l s).takeover ∧
    (trackedPart l ord s).resetRequested = (openBoundary l s).resetRequested := by
  have clocked := clockedPart_same l ord s
  have watched : Same _ (clockedPart l ord s) (watchedPart l ord s) := watchTurn_same _ _ _
  have tracked : Same _ (watchedPart l ord s) (trackedPart l ord s) := trackerTurn_same _ _
  exact ⟨((tracked.get .takeover rfl).trans (watched.get .takeover rfl)).trans (clocked.get .takeover rfl),
    ((tracked.get .resetRequested rfl).trans (watched.get .resetRequested rfl)).trans (clocked.get .resetRequested rfl)⟩

include h in
theorem boundary_done : (boundary l ord s).takeover.done = false := by
  have reset := (commandReset_blocksReset l (endFrames s)).takeover
  have opened : (openBoundary l s).takeover = (commandReset l (endFrames s)).takeover :=
    (openBoundary_resets l s h).get .takeover rfl
  have after : (boundary l ord s).takeover = (switchTurn l ord (trackedPart l ord s)).takeover :=
    ((framesAfter_same ord _).get .takeover rfl).trans ((gangTurn_same _).get .takeover rfl)
  rw [after, switchTurn_done l ord _ fun x => trackedPart_not_locked l ord s x (openBoundary_not_locked l s h x),
    (trackedPart_stands l ord s).1, opened, reset]
  rfl

include h in
theorem openBoundary_writes : (openBoundary l s).writes = [] :=
  ((openBoundary_resets l s h).get .writes rfl).trans (commandReset_blocksReset l (endFrames s)).writes

include h in
theorem boundary_writes : (boundary l ord s).writes = [] := by
  have keyed : Same [.port, .program, .gang, .lock] (openBoundary l s)
      (keyTurn l.key (framesBefore ord (openBoundary l s))) :=
    ((framesBefore_same ord _).mono rfl).trans ((keyTurn_same _ _).mono rfl)
  have none : (keyTurn l.key (framesBefore ord (openBoundary l s))).writes = [] :=
    (keyed.get .writes rfl).trans (openBoundary_writes l s h)
  have clocked : (clockedPart l ord s).writes = [] := by
    unfold clockedPart
    rw [writesTurn_of_none _ none]
    exact ((clockTurn_same _).get .writes rfl).trans ((matchTurn_same _).get .writes rfl)
  have tracked : (trackedPart l ord s).writes = (clockedPart l ord s).writes :=
    ((trackerTurn_same _ _).get .writes rfl).trans ((watchTurn_same _ _ _).get .writes rfl)
  exact ((boundary_same_tracked l ord s).get .writes rfl).trans (tracked.trans clocked)

include h in
theorem boundary_resetServed : (boundary l ord s).resetRequested = false := by
  have opened : (openBoundary l s).resetRequested = (commandReset l (endFrames s)).resetRequested :=
    (openBoundary_resets l s h).get .resetRequested rfl
  have after : (boundary l ord s).resetRequested = (trackedPart l ord s).resetRequested :=
    (boundary_same_tracked l ord s).get .resetRequested rfl
  rw [after, (trackedPart_stands l ord s).2, opened]
  exact (commandReset_blocksReset l (endFrames s)).requested
end

/-- Settles O13. -/
theorem commandResets : Obligations.CommandReset := by
  refine ⟨fun l s h => ⟨fun hn => ?_, fun hr => ?_⟩, fun l ord s h => ?_⟩
  · rw [exec_commandReset l s h, if_neg (by simp [hn])]
    rfl
  · obtain ⟨image, stored⟩ := commandReset_store l s.toPart
    rw [exec_commandReset l s h, if_pos hr]
    exact ⟨_, rfl, (commandReset_blocksReset l s.toPart).values, commandReset_linesRead l s.toPart,
      commandReset_level l s.toPart, commandReset_bypass l s.toPart, image, stored⟩
  · obtain ⟨frame, phase, started⟩ := openBoundary_frameZero l s.toPart h
    have runs := boundary_clockRuns l ord s.toPart
    obtain ⟨begun, bypass⟩ := boundary_of_owing l ord (openBoundary l s.toPart) (openBoundary_owesCancel l s.toPart h)
      (openBoundary_writes l s.toPart h) (openBoundary_notUp l s.toPart h)
    rw [← boundary_eq] at begun bypass
    refine ⟨_, exec_boundary l ord s h.1, ?_, ?_, ?_, boundary_resetServed l ord _ h, boundary_writes l ord _ h,
      boundary_done l ord _ h, bypass.trans (openBoundary_bypass l _ h), fun r => ?_, begun.program⟩
    · rw [State.toPart_withPart, runs]
      exact frame
    · rw [State.toPart_withPart, runs]
      exact phase
    · rw [State.toPart_withPart, runs]
      exact started
    · obtain ⟨⟨slots, responses⟩, seq, body⟩ := begun.port r
      exact ⟨seq, slots, responses, body⟩

end Sys2Proof.Machine
end


section
/-! The Alignment Tracker's boundary as far as the state derived (R41 to R45; log 28). -/

namespace Sys2Proof.Machine

/-! ## The history and its stability (R42) -/

theorem pushMeasure_of_short (l : List Int) (m : Int) (h : l.length < 5) : pushMeasure l m = l ++ [m] := by
  unfold pushMeasure
  rw [if_neg (by omega)]

theorem pushMeasure_of_full (l : List Int) (m : Int) (h : l.length = 5) : pushMeasure l m = l.tail ++ [m] := by
  unfold pushMeasure
  rw [if_pos (by omega), List.drop_one]

/-- R42: the five most recent of some measurements, with one more. -/
theorem pushMeasure_recent (ms : List Int) (m : Int) :
    pushMeasure (ms.drop (ms.length - 5)) m = (ms ++ [m]).drop ((ms ++ [m]).length - 5) := by
  have longer : (ms ++ [m]).length - 5 = ms.length + 1 - 5 := by simp
  rw [longer, List.drop_append_of_le_length (by omega)]
  by_cases h : ms.length < 5
  · rw [pushMeasure_of_short _ _ (by rw [List.length_drop]; omega), show ms.length - 5 = ms.length + 1 - 5 by omega]
  · rw [pushMeasure_of_full _ _ (by rw [List.length_drop]; omega), List.tail_drop,
      show ms.length - 5 + 1 = ms.length + 1 - 5 by omega]

theorem foldl_pushMeasure (ms : List Int) : ms.foldl pushMeasure [] = ms.drop (ms.length - 5) := by
  induction ms using List.reverseRecOn with
  | nil => rfl
  | append_singleton ms m ih => rw [List.foldl_append, ih]; exact pushMeasure_recent ms m

theorem stableOf_eq_some (l : List Int) (m : Int) : stableOf l = some m ↔ l = [m, m, m, m, m] := by
  constructor
  · intro h
    unfold stableOf at h
    split at h
    next a b c d e =>
      split at h
      next equal =>
        obtain ⟨rfl, rfl, rfl, rfl⟩ := equal
        cases h
        rfl
      next => cases h
    next => cases h
  · rintro rfl
    exact if_pos ⟨rfl, rfl, rfl, rfl⟩

/-! ## The class of a boundary (R41) -/

theorem offerNotPlaying_iff (y : Option Yield) :
    offerNotPlaying y = true ↔ ∃ o, y = some o ∧ o.frame.transport ≠ .play := by
  cases y <;> simp [offerNotPlaying]

section
variable {lockedA lockedB : Bool} {ya yb : Option Yield}

theorem classify_waiting (h : lockedA = false ∨ lockedB = false) :
    classify lockedA lockedB ya yb = .noMeasure .waiting := by
  unfold classify
  rw [if_pos (by rcases h with h | h <;> simp [h])]

theorem classify_stopped {y : Yield} (hy : ya = some y ∨ yb = some y) (h : y.frame.transport ≠ .play) :
    classify true true ya yb = .noMeasure .stopped := by
  have stopped : (offerNotPlaying ya || offerNotPlaying yb) = true :=
    (Bool.or_eq_true _ _).mpr (hy.imp (fun e => (offerNotPlaying_iff _).mpr ⟨y, e, h⟩)
      fun e => (offerNotPlaying_iff _).mpr ⟨y, e, h⟩)
  unfold classify
  rw [if_neg (by simp), if_pos stopped]

/-- R41: no written offer is of another transport than PLAY. -/
theorem offers_playing (h : ∀ y, ya = some y ∨ yb = some y → y.frame.transport = .play) :
    ¬(offerNotPlaying ya || offerNotPlaying yb) = true := by
  rw [Bool.or_eq_true, offerNotPlaying_iff, offerNotPlaying_iff]
  rintro (⟨y, e, stopped⟩ | ⟨y, e, stopped⟩)
  · exact stopped (h y (.inl e))
  · exact stopped (h y (.inr e))

theorem classify_unwritten (playing : ∀ y, ya = some y ∨ yb = some y → y.frame.transport = .play)
    (h : ya = none ∨ yb = none) : classify true true ya yb = .skipped := by
  unfold classify
  rw [if_neg (by simp), if_neg (offers_playing playing)]
  rcases h with rfl | rfl
  · rfl
  · cases ya <;> rfl
end

section
variable {a b : Yield} (playing : ∀ y, some a = some y ∨ some b = some y → y.frame.transport = .play)
include playing

/-- R41: both receivers LOCKED and both offers playing, the cues and then the origins give the class. -/
theorem classify_offers : classify true true (some a) (some b) =
    if a.frame.cue ≠ b.frame.cue then .noMeasure .cueDiff
    else if a.frame.origin = .real ∧ b.frame.origin = .real then .valid (sdiff b.position a.position)
    else .skipped := by
  unfold classify
  rw [if_neg (by simp), if_neg (offers_playing playing)]

theorem classify_cueDiff (h : a.frame.cue ≠ b.frame.cue) :
    classify true true (some a) (some b) = .noMeasure .cueDiff := by
  rw [classify_offers playing, if_pos h]

theorem classify_notReal (cue : a.frame.cue = b.frame.cue) (h : a.frame.origin ≠ .real ∨ b.frame.origin ≠ .real) :
    classify true true (some a) (some b) = .skipped := by
  rw [classify_offers playing, if_neg (not_not.mpr cue), if_neg (not_and_or.mpr h)]

theorem classify_valid (cue : a.frame.cue = b.frame.cue) (realA : a.frame.origin = .real)
    (realB : b.frame.origin = .real) :
    classify true true (some a) (some b) = .valid (sdiff b.position a.position) := by
  rw [classify_offers playing, if_neg (not_not.mpr cue), if_pos ⟨realA, realB⟩]
end

/-! ## What a boundary notes (R41 to R43) -/

theorem cueChanged_iff (last : Option Cue) (y : Option Yield) :
    cueChanged last y = true ↔ ∃ c o, last = some c ∧ y = some o ∧ o.frame.cue ≠ c := by
  cases last <;> cases y <;> simp [cueChanged]

section
variable {t : Tracker} {ya yb : Option Yield} {frame : Word} {m : Int}

/-- R43: no offer is of another cue than the last of its rig. -/
theorem cues_stand
    (h : ∀ c y, (t.lastCue.a = some c ∧ ya = some y) ∨ (t.lastCue.b = some c ∧ yb = some y) → y.frame.cue = c) :
    ¬(cueChanged t.lastCue.a ya || cueChanged t.lastCue.b yb) = true := by
  rw [Bool.or_eq_true, cueChanged_iff, cueChanged_iff]
  rintro (⟨c, y, last, offer, other⟩ | ⟨c, y, last, offer, other⟩)
  · exact other (h c y (.inl ⟨last, offer⟩))
  · exact other (h c y (.inr ⟨last, offer⟩))

/-- R43: an offer is of another cue than the last of its rig. -/
theorem cues_change {c : Cue} {y : Yield}
    (offer : (t.lastCue.a = some c ∧ ya = some y) ∨ (t.lastCue.b = some c ∧ yb = some y)) (h : y.frame.cue ≠ c) :
    (cueChanged t.lastCue.a ya || cueChanged t.lastCue.b yb) = true := by
  rw [Bool.or_eq_true, cueChanged_iff, cueChanged_iff]
  exact offer.imp (fun ⟨last, e⟩ => ⟨c, y, last, e, h⟩) fun ⟨last, e⟩ => ⟨c, y, last, e, h⟩

theorem note_history_skipped : (t.note .skipped ya yb frame).history =
    if cueChanged t.lastCue.a ya || cueChanged t.lastCue.b yb then [] else t.history := rfl

theorem note_history_valid : (t.note (.valid m) ya yb frame).history =
    pushMeasure (if cueChanged t.lastCue.a ya || cueChanged t.lastCue.b yb then [] else t.history) m := rfl

theorem note_history_of_cues_stand
    (h : ∀ c y, (t.lastCue.a = some c ∧ ya = some y) ∨ (t.lastCue.b = some c ∧ yb = some y) → y.frame.cue = c) :
    (t.note .skipped ya yb frame).history = t.history ∧
    (t.note (.valid m) ya yb frame).history = pushMeasure t.history m := by
  rw [note_history_skipped, note_history_valid, if_neg (cues_stand h)]
  exact ⟨rfl, rfl⟩

theorem note_history_of_cues_change {c : Cue} {y : Yield}
    (offer : (t.lastCue.a = some c ∧ ya = some y) ∨ (t.lastCue.b = some c ∧ yb = some y)) (h : y.frame.cue ≠ c) :
    (t.note .skipped ya yb frame).history = [] ∧ (t.note (.valid m) ya yb frame).history = [m] := by
  rw [note_history_skipped, note_history_valid, if_pos (cues_change offer h)]
  exact ⟨rfl, rfl⟩

theorem note_lastCue (cls : OfferClass) :
    (t.note cls ya yb frame).lastCue = ⟨nextCue t.lastCue.a ya, nextCue t.lastCue.b yb⟩ := rfl
end

/-! ## The state derived (R44, R45; log 28) -/

section
variable {t : Tracker} {cls : OfferClass} {tolerance : Half} (measured : ∀ why, cls ≠ .noMeasure why)
include measured

/-- Log 28: a skipped boundary derives as a valid one does. -/
theorem derive_of_measured : t.derive cls tolerance = t.derive .skipped tolerance := by
  cases cls with
  | noMeasure why => exact absurd rfl (measured why)
  | skipped => rfl
  | valid m => rfl

theorem derive_of_unstable (h : stableOf t.history = none) : t.derive cls tolerance =
    { t with state := if t.state = .outOfReach then .outOfReach else .settling, stable := none } := by
  rw [derive_of_measured measured]
  simp only [Tracker.derive, h]

theorem derive_of_stable {m : Int} (h : stableOf t.history = some m) : t.derive cls tolerance =
    if t.state = .outOfReach then
      if m = 0 then { t with state := .aligned, stable := some 0, residual := 0 } else { t with stable := some m }
    else { t with state := stateOf m tolerance, stable := some m } := by
  rw [derive_of_measured measured]
  simp only [Tracker.derive, h]
end

/-- Settles O58. -/
theorem measurementHistory : Obligations.MeasurementHistory := by
  refine ⟨pushMeasure_of_short, pushMeasure_of_full, foldl_pushMeasure, fun l m _ => stableOf_eq_some l m, ?_, ?_, ?_⟩
  · rintro lockedA lockedB ya yb c rfl
    refine ⟨classify_waiting, ?_⟩
    rintro rfl rfl
    refine ⟨fun y hy => classify_stopped hy, fun playing => ⟨classify_unwritten playing, ?_⟩⟩
    rintro a b rfl rfl
    exact ⟨classify_cueDiff playing, classify_notReal playing, classify_valid playing⟩
  · intro t ya yb frame m
    refine ⟨fun _ => rfl, note_history_of_cues_stand, fun c y => note_history_of_cues_change, rfl, rfl, fun cls => ?_⟩
    rw [note_lastCue]
    exact ⟨fun _ => congrArg (nextCue t.lastCue.a), fun _ => congrArg (nextCue t.lastCue.b),
      congrArg (nextCue t.lastCue.a), congrArg (nextCue t.lastCue.b), rfl, rfl, rfl⟩
  · intro t tolerance cls
    refine ⟨?_, fun measured => ⟨fun h out => ?_, fun h out => ?_, fun m h => ⟨fun out => ?_, fun out zero => ?_,
      fun out nonzero => ?_⟩⟩⟩
    · rintro why rfl
      rfl
    · rw [derive_of_unstable measured h, if_neg out]
    · rw [derive_of_unstable measured h, if_pos out, ← out]
    · rw [derive_of_stable measured h, if_neg out]
      rfl
    · rw [derive_of_stable measured h, if_pos out, if_pos zero]
    · rw [derive_of_stable measured h, if_pos out, if_neg nonzero]

end Sys2Proof.Machine
end

section
/-! What a REAL arrival does to the activities of a rig's causes (R57, R58, R60), and the ends of the timers (R58 to R61,
R170; log 1). -/

namespace Sys2Proof.Machine

/-! ## The peak of a frame (R60) -/

theorem foldl_max_lt_iff {α : Type} (f : α → Nat) (l : List α) (m limit : Nat) :
    l.foldl (fun m a => max m (f a)) m < limit ↔ m < limit ∧ ∀ a ∈ l, f a < limit := by
  induction l generalizing m with
  | nil => simp
  | cons a l ih => rw [List.foldl_cons, ih, Nat.max_lt, List.forall_mem_cons, and_assoc]

theorem peak_lt_iff (audio : Audio) (slots : List (Fin 64)) (limit : Nat) : peak audio slots < limit ↔
    0 < limit ∧ ∀ period ∈ audio, ∀ n ∈ slots, magnitude (period.getD n.val 0#24) < limit := by
  have from_start (m : Nat) : audio.foldl (fun m period =>
      slots.foldl (fun m n => max m (magnitude (period.getD n.val 0#24))) m) m < limit ↔
      m < limit ∧ ∀ period ∈ audio, ∀ n ∈ slots, magnitude (period.getD n.val 0#24) < limit := by
    induction audio generalizing m with
    | nil => simp
    | cons period rest ih => rw [List.foldl_cons, ih, foldl_max_lt_iff, List.forall_mem_cons, and_assoc]
  exact from_start 0

/-! ## A REAL arrival (R57, R58, R60) -/

section
variable {h : Health} {rep : Report}

/-- R55: a REAL report without a relock mark is judged on the records as they stand. -/
theorem arrive_of_real (w : WatchRig) (real : rep.origin = .real) (placed : rep.relock = false) :
    (h.arrive rep w).stall = stallAfter h rep ∧ ((h.arrive rep w).jump, (h.arrive rep w).jumpRun) = jumpAfter h rep ∧
      (h.arrive rep w).silenceRun = silenceAfter h rep w := by
  unfold Health.arrive
  rw [real, placed]
  exact ⟨rfl, rfl, rfl⟩

theorem stallAfter_of_idle (idle : rep.transport ≠ .play) : stallAfter h rep = false := if_pos idle

theorem jumpAfter_of_idle (idle : rep.transport ≠ .play) : jumpAfter h rep = (false, 0) := if_pos idle

theorem silenceAfter_of_idle (w : WatchRig) (idle : rep.transport ≠ .play) : silenceAfter h rep w = 0 :=
  if_neg fun k => idle k.1

theorem stallAfter_of_first (first : h.arrival = none) : stallAfter h rep = false := by
  simp [stallAfter, first]

section
variable (playing : rep.transport = .play)
include playing

theorem jumpAfter_of_first (first : h.arrival = none) : jumpAfter h rep = (h.jump, h.jumpRun) := by
  simp [jumpAfter, playing, first]

variable {ref : ArrivalRef} (last : h.arrival = some ref)
include last

/-- R57: an advance of 0 stalls, a normal advance ends the stall, any other leaves it. -/
theorem stallAfter_of_ref : stallAfter h rep =
    if sdiff rep.stamp ref.stamp = 0 then true
    else if sdiff rep.stamp ref.stamp = 24 * ((ref.count : Int) + 1) then false else h.stall := by
  simp [stallAfter, playing, last, advanceOf, normalAdvance]

theorem jumpAfter_of_other_cue (other : ref.cue ≠ rep.cue) : jumpAfter h rep = (false, 0) := by
  simp [jumpAfter, playing, last, other]

variable (cue : ref.cue = rep.cue)
include cue

theorem jumpAfter_of_ref_idle (idle : ref.transport ≠ .play) : jumpAfter h rep = (h.jump, h.jumpRun) := by
  simp [jumpAfter, playing, last, cue, idle]

/-- R58: a jump begins at an advance that is neither 0 nor normal, and the eighth normal advance in a run ends it. -/
theorem jumpAfter_of_ref (going : ref.transport = .play) : jumpAfter h rep =
    if sdiff rep.stamp ref.stamp = 0 then (h.jump, 0)
    else if sdiff rep.stamp ref.stamp ≠ 24 * ((ref.count : Int) + 1) then (true, 0)
    else if h.jump = false then (false, h.jumpRun)
    else if 7 ≤ h.jumpRun then (false, 0) else (true, h.jumpRun + 1) := by
  cases hj : h.jump <;> simp [jumpAfter, playing, last, cue, going, advanceOf, normalAdvance, hj]
end

theorem silenceAfter_of_silent (w : WatchRig) (playing : rep.transport = .play)
    (positive : 0 < (w.causes.get Cause.silence.idx).p1.toNat)
    (silent : ∀ period ∈ rep.audio, ∀ n ∈ w.slots,
      magnitude (period.getD n.val 0#24) < (w.causes.get Cause.silence.idx).p1.toNat) :
    silenceAfter h rep w = min (h.silenceRun + 1) 65535 :=
  if_pos ⟨playing, (peak_lt_iff _ _ _).mpr ⟨positive, silent⟩⟩

theorem silenceAfter_of_loud (w : WatchRig)
    (loud : (w.causes.get Cause.silence.idx).p1.toNat = 0 ∨ ∃ period ∈ rep.audio, ∃ n ∈ w.slots,
      (w.causes.get Cause.silence.idx).p1.toNat ≤ magnitude (period.getD n.val 0#24)) :
    silenceAfter h rep w = 0 := by
  refine if_neg fun ⟨_, below⟩ => ?_
  obtain ⟨positive, silent⟩ := (peak_lt_iff _ _ _).mp below
  rcases loud with zero | ⟨period, hp, n, hn, reached⟩
  · exact absurd positive (by rw [zero]; exact Nat.lt_irrefl 0)
  · exact absurd (silent period hp n hn) (Nat.not_lt.mpr reached)
end

/-! ## The timers' ends (R58 to R61, R170) -/

section
variable (x : Rig) (s : State) (run : s.inReset = false)
include run

theorem exec_beatTimeout (locked : (s.rx.get x).state = .locked)
    (due : (s.health.get x).beatAge + 1 = ((s.tables.watch.get x).causes.get Cause.beatLost.idx).p2.toNat) :
    exec (.beatTimeout x) s =
      .next (s.withPart (s.toPart.setHealth x { s.health.get x with beatAge := (s.health.get x).beatAge + 1 })) := by
  rw [exec_of_running rfl run, if_pos]
  simp [isLocked, locked, due]

theorem exec_silenceTimeReached (locked : (s.rx.get x).state = .locked)
    (due : (s.health.get x).silenceRun + 1 = ((s.tables.watch.get x).causes.get Cause.silence.idx).p2.toNat) :
    exec (.silenceTimeReached x) s =
      .next (s.withPart (s.toPart.setHealth x { s.health.get x with silenceRun := (s.health.get x).silenceRun + 1 })) := by
  rw [exec_of_running rfl run, if_pos]
  simp [isLocked, locked, due]

theorem exec_jumpRunEnd (jumped : (s.health.get x).jump = true) (seven : (s.health.get x).jumpRun = 7) :
    exec (.jumpRunEnd x) s =
      .next (s.withPart (s.toPart.setHealth x { s.health.get x with jump := false, jumpRun := 0 })) := by
  rw [exec_of_running rfl run, if_pos]
  simp [jumped, seven]

theorem exec_slipWindowExpiry (last : (s.health.get x).slipWindow = 1) : exec (.slipWindowExpiry x) s =
    .next (s.withPart (s.toPart.setHealth x { s.health.get x with slipWindow := 0 })) := by
  rw [exec_of_running rfl run, if_pos last]

theorem exec_alarmPulseEnd (last : s.panel.pulse = 1) : exec .alarmPulseEnd s =
    .next (s.withPart { s.toPart with panel := { s.panel with pulse := 0 } }) := by
  rw [exec_of_running rfl run, if_pos last]
end

/-- R170: in PULSE mode ALARM is asserted while the pulse count runs. -/
theorem alarm_of_pulse {s : Part} (run : s.inReset = false) (mode : s.tables.setup.alarm = .pulse) :
    alarm s = decide (0 < s.panel.pulse) := by
  simp [alarm, run, mode]

/-- Settles O46: the timers by their events alone, then a REAL arrival by its transport and its reference. -/
theorem timersEnd : Obligations.TimersEnd := by
  refine ⟨fun x s run => ⟨fun locked due => ?_, fun locked due => ?_, fun jumped seven => ?_, fun last => ?_,
    fun last => ?_⟩, fun h rep w real placed => ?_⟩
  · refine ⟨_, exec_beatTimeout x s run locked due, rfl, ?_⟩
    simp [activity, locked, due]
  · refine ⟨_, exec_silenceTimeReached x s run locked due, rfl, ?_⟩
    simp [activity, due]
  · exact exec_jumpRunEnd x s run jumped seven
  · exact exec_slipWindowExpiry x s run last
  · refine ⟨_, exec_alarmPulseEnd s run last, rfl, fun mode => ⟨?_, alarm_of_pulse run mode⟩⟩
    rw [alarm_of_pulse run mode, last]
    rfl
  · obtain ⟨stall, jump, silence⟩ := arrive_of_real (h := h) w real placed
    rw [Prod.ext_iff] at jump
    obtain ⟨jump, jumpRun⟩ := jump
    dsimp only at jump jumpRun
    rw [stall, jump, jumpRun, silence]
    refine ⟨fun idle => ?_, fun playing => ⟨fun first => ?_, ?_, ?_⟩⟩
    · rw [stallAfter_of_idle idle, jumpAfter_of_idle idle, silenceAfter_of_idle w idle]
      exact ⟨rfl, rfl, rfl, rfl⟩
    · rw [stallAfter_of_first first, jumpAfter_of_first playing first]
      exact ⟨rfl, rfl, rfl⟩
    · rintro ref d normal last rfl rfl
      rw [stallAfter_of_ref playing last]
      refine ⟨fun zero => if_pos zero, fun regular => ?_, fun nonzero irregular => ?_, fun other => ?_, fun cue idle => ?_,
        fun cue going => ?_⟩
      · rw [if_neg (by omega), if_pos regular]
      · rw [if_neg nonzero, if_neg irregular]
      · rw [jumpAfter_of_other_cue playing last other]
        exact ⟨rfl, rfl⟩
      · rw [jumpAfter_of_ref_idle playing last cue idle]
        exact ⟨rfl, rfl⟩
      · rw [jumpAfter_of_ref playing last cue going]
        refine ⟨fun zero => ?_, fun nonzero irregular => ?_, fun regular still => ?_, fun regular jumped few => ?_,
          fun regular jumped seven => ?_⟩
        · simp [zero]
        · simp [nonzero, irregular]
        · have nonzero : sdiff rep.stamp ref.stamp ≠ 0 := by omega
          rw [if_neg nonzero, if_neg (not_not.mpr regular), if_pos still]
          exact ⟨rfl, rfl⟩
        · have nonzero : sdiff rep.stamp ref.stamp ≠ 0 := by omega
          rw [if_neg nonzero, if_neg (not_not.mpr regular), if_neg (by simp [jumped]), if_neg (by omega)]
          exact ⟨rfl, rfl⟩
        · have nonzero : sdiff rep.stamp ref.stamp ≠ 0 := by omega
          rw [if_neg nonzero, if_neg (not_not.mpr regular), if_neg (by simp [jumped]), if_pos (by omega)]
          exact ⟨rfl, rfl⟩
    · rintro limit rfl
      exact ⟨silenceAfter_of_silent w playing, silenceAfter_of_loud w⟩

end Sys2Proof.Machine
end

section
/-! How a message is judged: the range checks of each command in their order (R75, R79, R144, R147 to R149, R153 to R159), and
the checks that come before them (R130, R139, R140). -/

namespace Sys2Proof.Machine

/-! ## A reader and its range checks (R139, step 5) -/

theorem firstFails_nil (index : Nat) : ¬firstFails [] index := by
  rintro ⟨before, after, ok, e, -⟩
  exact absurd e.symm (by simp)

theorem firstFails_cons (i : Nat) (P : Prop) (checks : List (Nat × Prop)) (index : Nat) :
    firstFails ((i, P) :: checks) index ↔ (¬P ∧ i = index) ∨ (P ∧ firstFails checks index) := by
  constructor
  · rintro ⟨before, after, ok, e, fails, passed⟩
    cases before with
    | nil =>
      obtain ⟨⟨rfl, rfl⟩, -⟩ : (i = index ∧ P = ok) ∧ checks = after := by simpa using e
      exact .inl ⟨fails, rfl⟩
    | cons b rest =>
      rw [List.cons_append, List.cons.injEq] at e
      obtain ⟨rfl, e⟩ := e
      rw [List.forall_mem_cons] at passed
      exact .inr ⟨passed.1, rest, after, ok, e, fails, passed.2⟩
  · rintro (⟨fails, rfl⟩ | ⟨passes, before, after, ok, rfl, fails, passed⟩)
    · exact ⟨[], checks, P, rfl, fails, by simp⟩
    · exact ⟨(i, P) :: before, after, ok, rfl, fails, List.forall_mem_cons.mpr ⟨passes, passed⟩⟩

/-- A reader makes these checks in their order: it fails with the index of the first that fails, and else it reads. -/
def Judges {α : Type} (x : Except Nat α) (checks : List (Nat × Prop)) : Prop :=
  (∀ index, x = .error index ↔ firstFails checks index) ∧ ((∃ a, x = .ok a) ↔ ∀ c ∈ checks, c.2)

section
variable {α β : Type} {checks more : List (Nat × Prop)} {i : Nat} {P : Prop}

theorem Judges.done (a : α) : Judges (.ok a) [] :=
  ⟨fun index => iff_of_false nofun (firstFails_nil index), iff_of_true ⟨a, rfl⟩ (by simp)⟩

theorem Judges.pass {x : Except Nat α} (passes : P) (h : Judges x checks) : Judges x ((i, P) :: checks) := by
  obtain ⟨error, ok⟩ := h
  refine ⟨fun index => ?_, ?_⟩
  · rw [error, firstFails_cons]
    simp [passes]
  · rw [ok, List.forall_mem_cons]
    simp [passes]

theorem Judges.fail (fails : ¬P) : Judges (.error i : Except Nat α) ((i, P) :: checks) := by
  refine ⟨fun index => ?_, ?_⟩
  · rw [firstFails_cons]
    simp [fails]
  · rw [List.forall_mem_cons]
    simp [fails]

theorem Judges.require {ok : Bool} {f : Unit → Except Nat α} (e : ok = true ↔ P) (h : P → Judges (f ()) checks) :
    Judges (require i ok >>= f) ((i, P) :: checks) := by
  cases ok with
  | false => exact .fail fun p => absurd (e.mpr p) nofun
  | true => exact .pass (e.mp rfl) (h (e.mp rfl))

theorem Judges.field {o : Option β} {f : β → Except Nat α} (e : o.isSome = true ↔ P)
    (h : ∀ b, o = some b → Judges (f b) checks) : Judges (field i o >>= f) ((i, P) :: checks) := by
  cases o with
  | none => exact .fail fun p => absurd (e.mpr p) nofun
  | some b => exact .pass (e.mp rfl) (h b rfl)

theorem Judges.bind {x : Except Nat β} {f : β → Except Nat α} (h : Judges x checks)
    (k : ∀ b, x = .ok b → Judges (f b) more) : Judges (x >>= f) (checks ++ more) := by
  induction checks with
  | nil =>
    obtain ⟨b, rfl⟩ := h.2.mpr (by simp)
    exact k b rfl
  | cons c rest ih =>
    obtain ⟨error, ok⟩ := h
    by_cases passes : c.2
    · refine .pass passes (ih ⟨fun index => ?_, ?_⟩)
      · rw [error, firstFails_cons]
        simp [passes]
      · rw [ok, List.forall_mem_cons]
        simp [passes]
    · rw [(error c.1).mpr ((firstFails_cons c.1 c.2 rest c.1).mpr (.inl ⟨passes, rfl⟩))]
      exact .fail passes

/-- A reader whose parsed value is only handed on. -/
theorem Judges.map {x : Except Nat β} {f : β → α} (h : Judges x checks) :
    Judges (x >>= fun b => pure (f b)) checks := by
  have handed := h.bind (f := fun b => pure (f b)) (more := []) fun b _ => .done (f b)
  rwa [List.append_nil] at handed
end

/-! ## The values of a byte -/

section
variable {α : Type} (b : Byte)

theorem two_values_isSome (x y : α) :
    (if b = 0#8 then some x else if b = 1#8 then some y else none).isSome = true ↔ b.toNat ≤ 1 := by
  simp only [byte_eq_iff b 0 (by omega), byte_eq_iff b 1 (by omega)]
  split
  · simp_all
  · split
    · simp_all
    · simp only [Option.isSome_none, Bool.false_eq_true, false_iff]
      omega

theorem three_values_isSome (x y z : α) :
    (if b = 0#8 then some x else if b = 1#8 then some y else if b = 2#8 then some z else none).isSome = true ↔
      b.toNat ≤ 2 := by
  simp only [byte_eq_iff b 0 (by omega), byte_eq_iff b 1 (by omega), byte_eq_iff b 2 (by omega)]
  split
  · simp_all
  · split
    · simp_all
    · split
      · simp_all
      · simp only [Option.isSome_none, Bool.false_eq_true, false_iff]
        omega

theorem readRig_isSome : (readRig b).isSome = true ↔ b.toNat ≤ 1 := two_values_isSome b _ _
theorem readBit_isSome : (readBit b).isSome = true ↔ b.toNat ≤ 1 := two_values_isSome b _ _
theorem readLaw_isSome : (readLaw b).isSome = true ↔ b.toNat ≤ 1 := two_values_isSome b _ _
theorem readLastResort_isSome : (readLastResort b).isSome = true ↔ b.toNat ≤ 1 := two_values_isSome b _ _
theorem readAlarm_isSome : (readAlarm b).isSome = true ↔ b.toNat ≤ 1 := two_values_isSome b _ _
theorem readMode_isSome : (readMode b).isSome = true ↔ b.toNat ≤ 2 := three_values_isSome b _ _ _
theorem readPolicy_isSome : (readPolicy b).isSome = true ↔ b.toNat ≤ 2 := three_values_isSome b _ _ _
theorem readLevel_isSome : (readLevel b).isSome = true ↔ b.toNat ≤ 2 := three_values_isSome b _ _ _
theorem readEnd_isSome : (readEnd b).isSome = true ↔ b.toNat ≤ 2 := three_values_isSome b _ _ _

theorem below_isSome (n : Nat) :
    (if h : b.toNat < n then some (⟨b.toNat, h⟩ : Fin n) else none).isSome = true ↔ b.toNat < n := by
  split <;> simp_all

theorem readGroup16_isSome : (readGroup16 b).isSome = true ↔ b.toNat ≤ 15 := (below_isSome b 16).trans Nat.lt_succ_iff
theorem readFade_isSome : (readFade b).isSome = true ↔ b.toNat ≤ 6 := (below_isSome b 7).trans Nat.lt_succ_iff
theorem readSlot64_isSome : (readSlot64 b).isSome = true ↔ b.toNat ≤ 63 := (below_isSome b 64).trans Nat.lt_succ_iff

theorem val_of_readSlot64 (n : Fin 64) (h : readSlot64 b = some n) : n.val = b.toNat := by
  unfold readSlot64 at h
  split at h
  · injection h with e
    rw [← e]
  · exact absurd h nofun

/-- R144: a slot byte is a slot, or 0xFF for NONE. -/
theorem readSlot_isSome : (readSlot b).isSome = true ↔ b.toNat ≤ 63 ∨ b.toNat = 255 := by
  unfold readSlot
  simp only [byte_eq_iff b 255 (by omega)]
  split
  next e => simp [e]
  next e =>
    rw [or_iff_left e, ← Nat.lt_succ_iff]
    split <;> simp_all

theorem readSlot_isNone {slot : Option (Fin 64)} (h : readSlot b = some slot) : slot.isNone = true ↔ b.toNat = 255 := by
  unfold readSlot at h
  simp only [byte_eq_iff b 255 (by omega)] at h
  split at h
  next e =>
    injection h with e'
    simp [← e', e]
  next e =>
    split at h
    · injection h with e'
      simp [← e', e]
    · exact absurd h nofun

theorem getLsbD_7_iff : b.getLsbD 7 = true ↔ 128 ≤ b.toNat := by
  have bound := b.isLt
  rw [BitVec.getLsbD, Nat.testBit_eq_decide_div_mod_eq, decide_eq_true_eq]
  omega

theorem middle_bits_zero_iff : (b.extractLsb' 4 3 == 0#3) = true ↔ b.toNat % 128 < 16 := by
  rw [beq_iff_eq, ← BitVec.toNat_inj, BitVec.extractLsb'_toNat, Nat.shiftRight_eq_div_pow]
  simp only [BitVec.toNat_ofNat]
  omega

theorem high_nibble_zero_iff : (b.extractLsb' 4 4 == 0#4) = true ↔ b.toNat ≤ 15 := by
  have bound := b.isLt
  rw [beq_iff_eq, ← BitVec.toNat_inj, BitVec.extractLsb'_toNat, Nat.shiftRight_eq_div_pow]
  simp only [BitVec.toNat_ofNat]
  omega

theorem high_bits_zero_iff : (b.extractLsb' 1 7 == 0#7) = true ↔ b.toNat ≤ 1 := by
  have bound := b.isLt
  rw [beq_iff_eq, ← BitVec.toNat_inj, BitVec.extractLsb'_toNat, Nat.shiftRight_eq_div_pow]
  simp only [BitVec.toNat_ofNat]
  omega
end

theorem append_byte_toNat {w : Nat} (a : BitVec w) (b : Byte) : (a ++ b).toNat = 256 * a.toNat + b.toNat := by
  rw [BitVec.toNat_append, ← Nat.shiftLeft_add_eq_or_of_lt b.isLt, Nat.shiftLeft_eq, Nat.mul_comm]

theorem half_eq (p : List Byte) (i : Nat) : (half p i).toNat = 256 * (byteAt p i).toNat + (byteAt p (i + 1)).toNat :=
  append_byte_toNat _ _

theorem word24_eq (p : List Byte) (i : Nat) : (word24 p i).toNat =
    65536 * (byteAt p i).toNat + (256 * (byteAt p (i + 1)).toNat + (byteAt p (i + 2)).toNat) := by
  rw [word24, append_byte_toNat, append_byte_toNat]
  ring

/-! ## Routes (R75, R147) -/

section
variable (p : List Byte)

/-- R144: the checks of a span in a table of `n` entries. -/
theorem readSpan_judges (n : Nat) : Judges (readSpan p n) [(1, (byteAt p 0).toNat < n),
    (2, 1 ≤ (byteAt p 1).toNat ∧ (byteAt p 1).toNat ≤ n), (2, (byteAt p 0).toNat + (byteAt p 1).toNat ≤ n)] := by
  refine .require decide_eq_true_iff fun _ => .require ?_ fun _ => .require decide_eq_true_iff fun _ => .done _
  rw [Bool.and_eq_true, decide_eq_true_iff, decide_eq_true_iff]

/-- R147: the checks of the route entry whose first byte has index `i`, one more than `j`. -/
def routeEntryChecks (j : Nat) : List (Nat × Prop) :=
  [(j + 1, (byteAt p j).toNat % 128 < 16), (j + 2, (byteAt p (j + 1)).toNat ≤ 63 ∨ (byteAt p (j + 1)).toNat = 255),
    (j + 3, (byteAt p (j + 2)).toNat ≤ 63 ∨ (byteAt p (j + 2)).toNat = 255),
    (j + 3, ¬(128 ≤ (byteAt p j).toNat ∧ (byteAt p (j + 1)).toNat = 255 ∧ (byteAt p (j + 2)).toNat = 255))]

theorem readRouteEntry_judges (j : Nat) : Judges (readRouteEntry p (j + 1)) (routeEntryChecks p j) := by
  refine .require (middle_bits_zero_iff _) fun _ => .field (readSlot_isSome _) fun slotA readA =>
    .field (readSlot_isSome _) fun slotB readB => .require ?_ fun _ => .done _
  rw [Bool.not_eq_true', Bool.eq_false_iff, ne_eq, Bool.and_eq_true, Bool.and_eq_true, getLsbD_7_iff,
    readSlot_isNone _ readA, readSlot_isNone _ readB, and_assoc]
  rfl

theorem flatMap_range_succ {α : Type} (f : Nat → List α) (n : Nat) :
    (List.range (n + 1)).flatMap f = f 0 ++ (List.range n).flatMap fun k => f (k + 1) := by
  rw [List.range_succ_eq_map, List.flatMap_cons, List.flatMap_map]

theorem readRouteEntries_judges (n j : Nat) : Judges (readRouteEntries p (j + 1) n)
    ((List.range n).flatMap fun k => routeEntryChecks p (j + 3 * k)) := by
  induction n generalizing j with
  | zero => exact .done _
  | succ n ih =>
    rw [flatMap_range_succ]
    refine (readRouteEntry_judges p j).bind fun e _ => .map ?_
    have rest := ih (j + 3)
    have shift : (fun k => routeEntryChecks p (j + 3 + 3 * k)) = fun k => routeEntryChecks p (j + 3 * (k + 1)) :=
      funext fun k => congrArg _ (by ring)
    rwa [shift] at rest

theorem readWriteRoute_judges (cond : Option (Byte × Half)) : Judges (readWriteRoute p) (rangeChecks .writeRoute p cond) := by
  have entries : (fun k : Nat => routeEntryChecks p (2 + 3 * k)) = fun k =>
      [(3 + 3 * k, (byteAt p (3 + 3 * k - 1)).toNat % 128 < 16),
        (4 + 3 * k, (byteAt p (4 + 3 * k - 1)).toNat ≤ 63 ∨ (byteAt p (4 + 3 * k - 1)).toNat = 255),
        (5 + 3 * k, (byteAt p (5 + 3 * k - 1)).toNat ≤ 63 ∨ (byteAt p (5 + 3 * k - 1)).toNat = 255),
        (5 + 3 * k, ¬(128 ≤ (byteAt p (3 + 3 * k - 1)).toNat ∧ (byteAt p (4 + 3 * k - 1)).toNat = 255 ∧
          (byteAt p (5 + 3 * k - 1)).toNat = 255))] := by
    funext k
    have third : 3 + 3 * k = 2 + 3 * k + 1 := by omega
    have fourth : 4 + 3 * k = 2 + 3 * k + 2 := by omega
    have fifth : 5 + 3 * k = 2 + 3 * k + 3 := by omega
    rw [third, fourth, fifth]
    rfl
  have checks := readRouteEntries_judges p (byteAt p 1).toNat 2
  rw [entries] at checks
  refine .require (decide_eq_true_iff) fun _ => .require ?_ fun _ => .require decide_eq_true_iff fun _ => .map checks
  rw [Bool.and_eq_true, decide_eq_true_iff, decide_eq_true_iff]

/-! ## Groups, the Watch Table and the Setup Record (R63, R79, R82, R147, R148) -/

theorem readWriteGroup_judges (cond : Option (Byte × Half)) : Judges (readWriteGroup p) (rangeChecks .writeGroup p cond) :=
  .field (readGroup16_isSome _) fun _ _ => .field (readMode_isSome _) fun _ _ => .field (readRig_isSome _) fun _ _ =>
    .field (readFade_isSome _) fun _ _ => .field (readLaw_isSome _) fun _ _ => .field (readPolicy_isSome _) fun _ _ =>
    .field (readBit_isSome _) fun _ _ => .field (readLastResort_isSome _) fun _ _ => .field (readBit_isSome _) fun _ _ =>
    .field (readBit_isSome _) fun _ _ => .done _

/-- R63: FRAME_ERRORS and SILENCE have a threshold with limits of its own. -/
theorem readP1_isSome (cause : Fin 8) (x : BitVec 24) : (readP1 cause x).isSome = true ↔
    (cause.val = 1 → 8 ≤ x.toNat ∧ x.toNat ≤ 255) ∧ (cause.val = 5 → x.toNat ≤ 8388608) := by
  have errors : cause = Cause.frameErrors.idx ↔ cause.val = 1 := Fin.ext_iff
  have silence : cause = Cause.silence.idx ↔ cause.val = 5 := Fin.ext_iff
  unfold readP1
  simp only [errors, silence]
  by_cases h1 : cause.val = 1
  · rw [if_pos h1]
    split <;> simp_all
  · by_cases h5 : cause.val = 5
    · rw [if_neg h1, if_pos h5]
      split <;> simp_all
    · simp [h1, h5]

/-- R63: BEAT_LOST and SILENCE have a time, which is not 0. -/
theorem readP2_isSome (cause : Fin 8) (x : Half) : (readP2 cause x).isSome = true ↔
    (cause.val = 4 ∨ cause.val = 5 → 1 ≤ x.toNat) := by
  have beat : cause = Cause.beatLost.idx ↔ cause.val = 4 := Fin.ext_iff
  have silence : cause = Cause.silence.idx ↔ cause.val = 5 := Fin.ext_iff
  have zero : x = 0#16 ↔ x.toNat = 0 := BitVec.toNat_inj.symm
  unfold readP2
  simp only [beat, silence, zero]
  split
  next timed =>
    split
    next h => simp [timed, h]
    next h => simp [timed, Nat.one_le_iff_ne_zero, h]
  next other => simp [other]

theorem readWatchCause_judges (rig : Rig) (cause : Fin 8) : Judges (readWatchCause p rig cause)
    [(3, (byteAt p 2).toNat ≤ 1),
      (8, (cause.val = 1 → 8 ≤ (word24 p 7).toNat ∧ (word24 p 7).toNat ≤ 255) ∧
        (cause.val = 5 → (word24 p 7).toNat ≤ 8388608)),
      (11, cause.val = 4 ∨ cause.val = 5 → 1 ≤ (half p 10).toNat)] :=
  .field (readBit_isSome _) fun _ _ => .field (readP1_isSome _ _) fun _ _ => .field (readP2_isSome _ _) fun _ _ => .done _

/-- R148: the checks of place `k` of a slot list. -/
def slotChecks (k : Nat) : List (Nat × Prop) :=
  [(4 + k, (byteAt p (3 + k)).toNat ≤ 63), (4 + k, ∀ j, j < k → (byteAt p (3 + j)).toNat ≠ (byteAt p (3 + k)).toNat)]

/-- R148: the slots from place `k` of a slot list on, `seen` being the slots before them. -/
theorem readSlots_judges (n k : Nat) (seen : List (Fin 64))
    (earlier : ∀ slot : Fin 64, slot ∈ seen ↔ ∃ j, j < k ∧ (byteAt p (3 + j)).toNat = slot.val) :
    Judges (readSlots p (4 + k) seen n) ((List.range n).flatMap fun i => slotChecks p (k + i)) := by
  induction n generalizing k seen with
  | zero => exact .done _
  | succ n ih =>
    have place : 4 + k - 1 = 3 + k := by omega
    rw [flatMap_range_succ, readSlots, place]
    refine .field (readSlot64_isSome _) fun slot read => .require ?_ fun _ => ?_
    · have value := val_of_readSlot64 _ _ read
      rw [Bool.not_eq_true', Bool.eq_false_iff, ne_eq, List.contains_iff_mem, earlier, value]
      push Not
      rfl
    · have rest := ih (k + 1) (seen ++ [slot]) fun other => by
        have value := val_of_readSlot64 _ _ read
        rw [List.mem_append, earlier, List.mem_singleton]
        constructor
        · rintro (⟨j, hj, e⟩ | rfl)
          · exact ⟨j, by omega, e⟩
          · exact ⟨k, by omega, value.symm⟩
        · rintro ⟨j, hj, e⟩
          rcases Nat.lt_succ_iff_lt_or_eq.mp hj with h | rfl
          · exact .inl ⟨j, h, e⟩
          · exact .inr (Fin.ext (e.symm.trans value.symm))
      have shift : (fun i => slotChecks p (k + 1 + i)) = fun i => slotChecks p (k + (i + 1)) :=
        funext fun i => congrArg _ (by ring)
      rwa [shift] at rest

theorem readWriteWatch_judges (cond : Option (Byte × Half)) : Judges (readWriteWatch p) (rangeChecks .writeWatch p cond) := by
  refine .field (readRig_isSome _) fun rig _ => ?_
  by_cases cause : (byteAt p 1).toNat < 8
  · rw [dif_pos cause]
    refine .pass (P := (byteAt p 1).toNat ≤ 8) (by omega) ?_
    have checks := readWatchCause_judges p rig ⟨(byteAt p 1).toNat, cause⟩
    rw [word24_eq, half_eq] at checks
    have other : ¬(byteAt p (2 - 1)).toNat = 8 := Nat.ne_of_lt cause
    rw [if_neg other]
    exact checks
  · rw [dif_neg cause]
    refine .require (P := (byteAt p 1).toNat ≤ 8) ?_ fun low => ?_
    · rw [beq_iff_eq, byte_eq_iff _ 8 (by omega)]
      omega
    · have list : (byteAt p (2 - 1)).toNat = 8 := le_antisymm low (Nat.not_lt.mp cause)
      rw [if_pos list]
      have slots := readSlots_judges p (byteAt p 2).toNat 0 [] (by simp)
      simp only [Nat.zero_add] at slots
      have checks : Judges (readWatchSlots p rig) ([(3, 1 ≤ (byteAt p 2).toNat ∧ (byteAt p 2).toNat ≤ 4)] ++ _) :=
        .require (by rw [Bool.and_eq_true, decide_eq_true_iff, decide_eq_true_iff]) fun _ => .map slots
      have place : ∀ j, 4 + j - 1 = 3 + j := fun j => by omega
      simp only [place]
      exact checks

theorem readWriteSetup_judges (cond : Option (Byte × Half)) : Judges (readWriteSetup p) (rangeChecks .writeSetup p cond) := by
  refine .require ?_ fun _ => .require ?_ fun _ => .field (readRig_isSome _) fun _ _ => .field (readAlarm_isSome _) fun _ _ =>
    .require ?_ fun _ => .done _
  · rw [Bool.and_eq_true, decide_eq_true_iff, decide_eq_true_iff, half_eq]
  · rw [decide_eq_true_iff, half_eq]
  · rw [decide_eq_true_iff, half_eq]

/-! ## Moves and cancels (R129, R149, R155) -/

theorem readMoveGroup_judges (cond : Option (Byte × Half)) :
    Judges (readMoveGroup p cond) (rangeChecks .moveGroup p cond) := by
  refine .require (P := 1 ≤ 256 * (byteAt p 0).toNat + (byteAt p 1).toNat) ?_ fun _ =>
    .field (readEnd_isSome _) fun _ _ => .require (high_bits_zero_iff _) fun _ => .map ?_
  · rw [bne_iff_ne, ne_eq, ← BitVec.toNat_inj, half_eq, Nat.one_le_iff_ne_zero]
    rfl
  · cases cond with
    | none => exact .done _
    | some part => exact .require (high_nibble_zero_iff _) fun _ => .done _

theorem readCancel_judges (cond : Option (Byte × Half)) : Judges (readCancel p) (rangeChecks .cancel p cond) := by
  unfold readCancel
  simp only [byte_eq_iff _ 0 (by omega : 0 < 256), byte_eq_iff _ 1 (by omega : 1 < 256),
    byte_eq_iff _ 2 (by omega : 2 < 256)]
  by_cases h0 : (byteAt p 0).toNat = 0
  · rw [if_pos h0]
    refine .pass (P := (byteAt p 0).toNat ≤ 2) (by omega)
      (.require (P := (byteAt p 0).toNat = 0 → (byteAt p 1).toNat ≠ 255) ?_ fun _ => .done _)
    rw [bne_iff_ne, ne_eq, byte_eq_iff _ 255 (by omega)]
    simp [h0]
  · have free : (byteAt p (1 - 1)).toNat = 0 → (byteAt p (2 - 1)).toNat ≠ 255 := fun h => absurd h h0
    rw [if_neg h0]
    by_cases h1 : (byteAt p 0).toNat = 1
    · rw [if_pos h1]
      exact .pass (P := (byteAt p 0).toNat ≤ 2) (by omega) (.pass free (.done _))
    · rw [if_neg h1]
      by_cases h2 : (byteAt p 0).toNat = 2
      · rw [if_pos h2]
        exact .pass (P := (byteAt p 0).toNat ≤ 2) (by omega) (.pass free (.done _))
      · rw [if_neg h2]
        exact .fail (P := (byteAt p 0).toNat ≤ 2) (by omega)

/-- R139, step 5: each command makes its range checks in their order. -/
theorem readCommand_judges (c : Code) (cond : Option (Byte × Half)) : Judges (readCommand c p cond) (rangeChecks c p cond) := by
  cases c with
  | identify | readStatus | readAlign | restoreDefaults | save | reset => exact .done _
  | readHealth | readWatch => exact .field (readRig_isSome _) fun _ _ => .done _
  | readCounts | markRig => exact .field (readRig_isSome _) fun _ _ => .field (readBit_isSome _) fun _ _ => .done _
  | readRoute =>
    have checks := readSpan_judges p 64
    simp only [Nat.lt_succ_iff (n := 63)] at checks
    exact .map checks
  | readGroup =>
    have checks := readSpan_judges p 16
    simp only [Nat.lt_succ_iff (n := 15)] at checks
    exact .map checks
  | writeRoute => exact readWriteRoute_judges p cond
  | writeGroup => exact readWriteGroup_judges p cond
  | writeWatch => exact readWriteWatch_judges p cond
  | writeSetup => exact readWriteSetup_judges p cond
  | moveGroup => exact readMoveGroup_judges p cond
  | setMode => exact .field (readGroup16_isSome _) fun _ _ => .field (readMode_isSome _) fun _ _ => .done _
  | cancel => exact readCancel_judges p cond
  | setLock => exact .field (readLevel_isSome _) fun _ _ => .done _
  | bypass => exact .field (readBit_isSome _) fun _ _ => .done _
end

/-! ## The table of lengths, levels and commands that wait for the store (R140) -/

/-- R140: the length of WRITE_ROUTE follows its count where the count is in range. -/
theorem routeLengthOk_iff (params : List Byte) : routeLengthOk params = true ↔ 2 ≤ params.length ∧
    (1 ≤ (byteAt params 1).toNat → (byteAt params 1).toNat ≤ 64 → params.length = 2 + 3 * (byteAt params 1).toNat) := by
  unfold routeLengthOk
  simp only [Bool.and_eq_true, Bool.or_eq_true, Bool.not_eq_true', Bool.and_eq_false_iff, decide_eq_true_iff,
    decide_eq_false_iff_not, beq_iff_eq]
  refine and_congr_right fun _ => ⟨?_, fun h => ?_⟩
  · rintro (outside | length) low high
    · exact (outside.elim (absurd low) (absurd high))
    · exact length
  · by_cases inside : 1 ≤ (byteAt params 1).toNat ∧ (byteAt params 1).toNat ≤ 64
    · exact .inr (h inside.1 inside.2)
    · exact .inl (not_and_or.mp inside)

/-- R140: the commands that OPEN alone takes, and SET_MODE, which FROZEN refuses. -/
theorem takenAt_iff (c : Code) (level : LockLevel) : c.takenAt level = true ↔
    (c ∈ [Code.writeRoute, .writeGroup, .writeWatch, .writeSetup, .restoreDefaults, .bypass, .reset] → level = .opened) ∧
      (c = .setMode → level ≠ .frozen) := by
  cases c <;> simp [Code.takenAt]

theorem waitsForStore_iff (c : Code) : c.waitsForStore = true ↔
    c ∈ [Code.writeRoute, .writeGroup, .writeWatch, .writeSetup, .restoreDefaults, .save] := by
  cases c <;> simp [Code.waitsForStore]

/-! ## The checks in their order (R130, R139) -/

/-- R140: a command passes the length check with a good length and with a condition part that it accepts. -/
theorem lengthGate_passes {c : Code} {params : List Byte} {cond : Option (Byte × Half)} (length : c.lengthOk params = true)
    (accepts : cond.isSome = true → c.takesCond = true) :
    (!c.lengthOk params || (cond.isSome && !c.takesCond)) = false := by
  rw [length, Bool.not_true, Bool.false_or]
  cases present : cond.isSome with
  | false => rfl
  | true => simp [accepts present]

section
variable {r : Rig} {id : Nat} {msg : List Byte} {s : Part}

theorem judge_unknown (h : readCode (byteAt msg 1) = none) : judge r id msg s = respond r id .unknownCommand 0 [] s := by
  simp [judge, h]

variable {c : Code} (code : readCode (byteAt msg 1) = some c)
include code

theorem judge_unreadable (h : readMessage msg = none) : judge r id msg s = respond r id .badLength 0 [] s := by
  simp [judge, code, h]

variable {params : List Byte} {cond : Option (Byte × Half)} (read : readMessage msg = some (params, cond))
include read

theorem judge_badLength (h : c.lengthOk params = false ∨ (cond.isSome = true ∧ c.takesCond = false)) :
    judge r id msg s = respond r id .badLength 0 [] s := by
  have gate : (!c.lengthOk params || (cond.isSome && !c.takesCond)) = true := by
    rcases h with short | ⟨carries, refuses⟩
    · simp [short]
    · simp [carries, refuses]
  simp only [judge, code, read, gate, if_true]

variable (length : c.lengthOk params = true) (accepts : cond.isSome = true → c.takesCond = true)
include length accepts

theorem judge_locked (h : c.takenAt s.lock.level = false) : judge r id msg s = respond r id .locked 0 [] s := by
  simp [judge, code, read, lengthGate_passes length accepts, h]

variable (taken : c.takenAt s.lock.level = true)
include taken

theorem judge_busy (h : (c.waitsForStore && storeBusy s) = true) : judge r id msg s = respond r id .busy 0 [] s := by
  simp only [judge, code, read, lengthGate_passes length accepts, taken, h, Bool.not_true, Bool.false_eq_true,
    if_false, if_true]

theorem judge_badParam (idle : (c.waitsForStore && storeBusy s) = false) {index : Nat}
    (h : readCommand c params cond = .error index) : judge r id msg s = respond r id .badParam index [] s := by
  simp only [judge, code, read, lengthGate_passes length accepts, taken, idle, h, Bool.not_true,
    Bool.false_eq_true, if_false]
end

theorem storeBusy_iff (s : Part) : storeBusy s = true ↔ s.store.save = .saving ∨ s.store.reload = true := by
  rw [storeBusy, Bool.or_eq_true, beq_iff_eq]

section
variable {r : Rig} {tag code : Byte} {s : State} {body : List Byte} (can : canTake s.toPart r tag) (hb : body ≠ [])
include can hb

/-- R127, R131: a message that its judgement answers at once. -/
theorem takeMessage_answered {st : Status} {i : Nat} {results : List Byte}
    (h : judge r s.nextId (tag :: code :: body) (occupy r false (tag :: code :: body) s.toPart) =
      respond r s.nextId st i results (occupy r false (tag :: code :: body) s.toPart)) :
    takeMessage r tag code body s = .next (s.withPart (answeredAs s.toPart r tag code st i results)) := by
  obtain ⟨-, -, -, ids⟩ := id can
  rw [takeMessage_eq s r tag code body can hb, h, respond_taken s.toPart r tag code _ _ _ _ ids rfl rfl]

theorem takeMessage_unknown (h : code ∉ commandCodes) :
    takeMessage r tag code body s = .next (s.withPart (answeredAs s.toPart r tag code .unknownCommand 0 [])) :=
  takeMessage_answered can hb (judge_unknown (readCode_of_notMem code (by simpa using h)))
end

/-- R129: a message whose length agrees with neither form. -/
theorem readMessage_of_neither (tag code n : Byte) (params : List Byte) (plain : n.toNat ≠ params.length)
    (conditioned : n.toNat + 3 ≠ params.length) : readMessage (tag :: code :: n :: params) = none := by
  have count : byteAt (tag :: code :: n :: params) 2 = n := rfl
  simp only [readMessage, count, List.length_cons]
  rw [if_neg (by omega), if_neg (by omega)]

theorem byteAt_behind (tag code n : Byte) (params : List Byte) (i : Nat) :
    byteAt (tag :: code :: n :: params) (3 + i) = byteAt params i := byteAt_append_right [tag, code, n] params i

/-- R129: a message that is three bytes longer than its parameters carries a condition part. -/
theorem readMessage_of_longer (tag code n : Byte) (params : List Byte) (h : n.toNat + 3 = params.length) :
    readMessage (tag :: code :: n :: params) = some (params.take n.toNat,
      some (byteAt params n.toNat, half params (n.toNat + 1))) := by
  have count : byteAt (tag :: code :: n :: params) 2 = n := rfl
  have flags := byteAt_behind tag code n params n.toNat
  have later : half (tag :: code :: n :: params) (4 + n.toNat) = half params (n.toNat + 1) := by
    have place : 4 + n.toNat = 3 + (n.toNat + 1) := by omega
    rw [half, half, place, byteAt_behind, Nat.add_assoc 3, byteAt_behind]
  simp only [readMessage, count, List.length_cons, flags, later]
  rw [if_neg (by omega), if_pos (by omega)]
  rfl

section
variable {r : Rig} {tag : Byte} {s : State} {c : Code} {n : Byte} {params : List Byte} (can : canTake s.toPart r tag)
include can

/-- A row of the table that its judgement answers at once. -/
theorem exec_judged {st : Status} {i : Nat} {body : List Byte} (hb : body ≠ [])
    (h : judge r s.nextId (tag :: c.byte :: body) (occupy r false (tag :: c.byte :: body) s.toPart) =
      respond r s.nextId st i [] (occupy r false (tag :: c.byte :: body) s.toPart)) :
    exec (rowOf c r tag body) s = .next (s.withPart (answeredAs s.toPart r tag c.byte st i [])) := by
  rw [exec_rowOf]
  exact takeMessage_answered can hb h

theorem exec_of_neither (plain : n.toNat ≠ params.length) (conditioned : n.toNat + 3 ≠ params.length) :
    exec (rowOf c r tag (n :: params)) s = .next (s.withPart (answeredAs s.toPart r tag c.byte .badLength 0 [])) :=
  exec_judged can (List.cons_ne_nil _ _) (judge_unreadable (readCode_byte c) (readMessage_of_neither _ _ _ _ plain conditioned))

theorem exec_of_longer (longer : n.toNat + 3 = params.length) (h : c ≠ .moveGroup) :
    exec (rowOf c r tag (n :: params)) s = .next (s.withPart (answeredAs s.toPart r tag c.byte .badLength 0 [])) := by
  have refuses : c.takesCond = false := by
    cases c with
    | moveGroup => exact absurd rfl h
    | _ => rfl
  exact exec_judged can (List.cons_ne_nil _ _)
    (judge_badLength (readCode_byte c) (readMessage_of_longer _ _ _ _ longer) (.inr ⟨rfl, refuses⟩))

variable (plain : n.toNat = params.length)
include plain

theorem exec_of_badLength (h : c.lengthOk params = false) :
    exec (rowOf c r tag (n :: params)) s = .next (s.withPart (answeredAs s.toPart r tag c.byte .badLength 0 [])) :=
  exec_judged can (List.cons_ne_nil _ _)
    (judge_badLength (readCode_byte c) (readMessage_plain _ _ _ _ plain) (.inl h))

variable (length : c.lengthOk params = true)
include length

theorem exec_of_locked (h : c.takenAt s.lock.level = false) :
    exec (rowOf c r tag (n :: params)) s = .next (s.withPart (answeredAs s.toPart r tag c.byte .locked 0 [])) :=
  exec_judged can (List.cons_ne_nil _ _)
    (judge_locked (readCode_byte c) (readMessage_plain _ _ _ _ plain) length nofun h)

variable (taken : c.takenAt s.lock.level = true)
include taken

theorem exec_of_busy (waits : c.waitsForStore = true) (busy : s.store.save = .saving ∨ s.store.reload = true) :
    exec (rowOf c r tag (n :: params)) s = .next (s.withPart (answeredAs s.toPart r tag c.byte .busy 0 [])) :=
  exec_judged can (List.cons_ne_nil _ _)
    (judge_busy (readCode_byte c) (readMessage_plain _ _ _ _ plain) length nofun taken
      (Bool.and_eq_true_iff.mpr ⟨waits, (storeBusy_iff _).mpr busy⟩))

theorem exec_of_badParam {index : Nat}
    (idle : c.waitsForStore = false ∨ (s.store.save ≠ .saving ∧ s.store.reload = false))
    (h : readCommand c params none = .error index) :
    exec (rowOf c r tag (n :: params)) s = .next (s.withPart (answeredAs s.toPart r tag c.byte .badParam index [])) := by
  have code : readCode (byteAt (tag :: c.byte :: n :: params) 1) = some c := readCode_byte c
  have free : (c.waitsForStore && storeBusy s.toPart) = false := by
    rw [Bool.and_eq_false_iff]
    refine idle.imp_right fun ⟨saved, loaded⟩ => ?_
    rw [Bool.eq_false_iff, ne_eq, storeBusy_iff]
    exact not_or.mpr ⟨saved, by simpa using loaded⟩
  exact exec_judged can (List.cons_ne_nil _ _)
    (judge_badParam (s := occupy r false _ s.toPart) code (readMessage_plain _ _ _ _ plain) length nofun taken free h)
end

/-- R129, R149: a MOVE_GROUP with a condition part that holds a value out of range. -/
theorem exec_conditioned_badParam {r : Rig} {tag : Byte} {s : State} {params : List Byte} {flags hi lo : Byte} {index : Nat}
    (can : canTake s.toPart r tag) (length : params.length = 4)
    (h : readCommand .moveGroup params (some (flags, hi ++ lo)) = .error index) :
    exec (rowOf .moveGroup r tag (4#8 :: (params ++ [flags, hi, lo]))) s =
      .next (s.withPart (answeredAs s.toPart r tag Code.moveGroup.byte .badParam index [])) := by
  have four : (4#8 : Byte).toNat = 4 := rfl
  have tail (i : Nat) : byteAt (params ++ [flags, hi, lo]) (4 + i) = byteAt [flags, hi, lo] i := by
    rw [← length]
    exact byteAt_append_right params _ i
  have flag : byteAt (params ++ [flags, hi, lo]) 4 = flags := tail 0
  have timeout : half (params ++ [flags, hi, lo]) (4 + 1) = hi ++ lo := by
    rw [half, tail 1, Nat.add_assoc 4, tail 2]
    rfl
  have read := readMessage_of_longer tag Code.moveGroup.byte 4#8 (params ++ [flags, hi, lo]) (by simp [length])
  rw [four, List.take_left' length, timeout, flag] at read
  have code : readCode (byteAt (tag :: Code.moveGroup.byte :: 4#8 :: (params ++ [flags, hi, lo])) 1) = some .moveGroup :=
    readCode_byte .moveGroup
  have accepted : Code.moveGroup.lengthOk params = true := by simp [Code.lengthOk, length]
  exact exec_judged can (List.cons_ne_nil _ _) (judge_badParam code read accepted (fun _ => rfl) rfl rfl h)

/-- Settles O37: the tables of R140, the range checks by the commands' readers, and the checks in their order. -/
theorem judgementOrder : Obligations.JudgementOrder := by
  refine ⟨fun params => ⟨?_, ?_, ?_, ?_, ?_, ?_, ?_, ?_⟩, takenAt_iff, waitsForStore_iff, fun c params cond =>
    readCommand_judges params c cond, fun r tag s => ⟨fun code body can hb unknown => takeMessage_unknown can hb unknown,
    fun c params n can _ => ⟨exec_of_neither can, exec_of_longer can, exec_of_badLength can, exec_of_locked can,
      exec_of_busy can, fun index plain length taken idle h => exec_of_badParam can plain length taken idle h, ?_⟩⟩⟩
  · simp [Code.lengthOk]
  · simp [Code.lengthOk]
  · simp [Code.lengthOk]
  · simp [Code.lengthOk]
  · simp [Code.lengthOk]
  · simp [Code.lengthOk]
  · simp [Code.lengthOk]
  · rintro count rfl
    exact routeLengthOk_iff params
  · rintro flags hi lo index rfl rfl length h
    exact exec_conditioned_badParam can length h

end Sys2Proof.Machine
end

section
/-! What a pending write does as it takes effect: to the working tables (R73, R77, R85), to the groups' records (R81) and to the
causes that it disables (R66). -/

namespace Sys2Proof.Machine

/-! ## Tables -/

theorem replaceFrom_getElem? {α : Type} (l : List α) (n i : Nat) (es : List α) :
    (replaceFrom l n es)[i]? = l[i]?.map fun x => if n ≤ i then es[i - n]?.getD x else x := by
  induction l generalizing n i es with
  | nil => rfl
  | cons x l ih =>
    cases n with
    | zero =>
      cases es with
      | nil => simp [replaceFrom]
      | cons e es => cases i <;> simp [replaceFrom, ih]
    | succ n => cases i <;> simp [replaceFrom, ih]

theorem Tbl.cells_getElem? {n : Nat} {α : Type} (t : Tbl n α) (i : Fin n) : t.cells[i.val]? = some (t.get i) :=
  List.getElem?_eq_getElem _

/-- R77: the entries of a route write stand from its first channel on. -/
theorem Tbl.replace_eq {n : Nat} {α : Type} (t : Tbl n α) (first : Nat) (es : List α) : t.replace first es =
    Tbl.ofFn fun i => if first ≤ i.val then (es[i.val - first]?).getD (t.get i) else t.get i := by
  refine Tbl.ext_get fun i => Option.some.inj ?_
  rw [← Tbl.cells_getElem?, Tbl.get_ofFn]
  exact (replaceFrom_getElem? t.cells first i.val es).trans (by rw [Tbl.cells_getElem?]; rfl)

theorem Tbl.set_set {n : Nat} {α : Type} (t : Tbl n α) (i : Fin n) (x y : α) : (t.set i x).set i y = t.set i y :=
  Tbl.ext_get fun j => by
    rw [Tbl.get_set, Tbl.get_set, Tbl.get_set]
    split <;> rfl

theorem Tbl.set_get_self {n : Nat} {α : Type} (t : Tbl n α) (i : Fin n) : t.set i (t.get i) = t :=
  Tbl.ext_get fun j => by
    rw [Tbl.get_set]
    split
    next h => rw [h]
    next => rfl

theorem foldl_set_get {n : Nat} {α : Type} (t k : Tbl n α) (l : List (Fin n)) (i : Fin n) :
    (l.foldl (fun k g => k.set g (t.get g)) k).get i = if i ∈ l then t.get i else k.get i := by
  induction l generalizing k with
  | nil => rfl
  | cons g l ih =>
    rw [List.foldl_cons, ih, Tbl.get_set]
    by_cases h : i = g <;> simp [h]

/-! ## A rig's causes (R66) -/

theorem Health.drop_none (h : Health) : (h.drop fun _ => false) = h := by
  have stands : (Tbl.ofFn fun i => h.causes.get i) = h.causes := Tbl.ext_get fun i => Tbl.get_ofFn _ _
  exact congrArg (fun causes => { h with causes }) stands

theorem Health.drop_drop (h : Health) (a b : Fin 8 → Bool) : (h.drop a).drop b = h.drop fun i => a i || b i := by
  have both : ((h.drop a).drop b).causes = (h.drop fun i => a i || b i).causes := Tbl.ext_get fun i => by
    rw [Health.drop_causes, Health.drop_causes, Health.drop_causes]
    cases a i <;> cases b i <;> rfl
  exact congrArg (fun causes => { h with causes }) both

theorem dropCauses_health (x y : Rig) (off : Fin 8 → Bool) (s : Part) :
    (dropCauses x off s).health.get y = if y = x then (s.health.get x).drop off else s.health.get y :=
  PerRig.get_set _ _ _ _

/-! ## The writes (R77, R81, R83, R85) -/

theorem writeSetup_tables (new : Setup) (s : Part) : (writeSetup new s).tables = { s.tables with setup := new } := by
  unfold writeSetup
  dsimp only
  split <;> split <;> rfl

theorem foldl_writeGroup_tables (t : Tbl 16 GroupEntry) (l : List (Fin 16)) (s : Part) :
    (l.foldl (fun s g => writeGroup g (t.get g) s) s).tables =
      { s.tables with groups := l.foldl (fun k g => k.set g (t.get g)) s.tables.groups } := by
  induction l generalizing s with
  | nil => rfl
  | cons g l ih =>
    rw [List.foldl_cons, ih]
    rfl

theorem writeGroups_tables (t : Tbl 16 GroupEntry) (s : Part) : (writeGroups t s).tables = { s.tables with groups := t } := by
  have every : allGroups.foldl (fun k g => k.set g (t.get g)) s.tables.groups = t := Tbl.ext_get fun i => by
    rw [foldl_set_get]
    exact if_pos (List.mem_finRange i)
  rw [writeGroups, foldl_writeGroup_tables, every]

/-- R85: a whole set of tables replaces the four in force. -/
theorem writeTables_tables (t : Tables) (s : Part) : (writeTables t s).tables = t := by
  rw [writeTables, writeSetup_tables]
  have before (u : Part) : (dropByTable t.watch .B (dropByTable t.watch .A u)).tables = u.tables :=
    ((dropCauses_same _ _ _).get .tables rfl).trans ((dropCauses_same _ _ _).get .tables rfl)
  rw [before, setTables_tables, writeGroups_tables]

/-- R66: the causes that the new Watch Table disables are CLEAR. -/
theorem writeTables_health (t : Tables) (s : Part) (x : Rig) : (writeTables t s).health.get x =
    (s.health.get x).drop fun i => !((t.watch.get x).causes.get i).enabled := by
  have written : (writeTables t s).health = (dropByTable t.watch .B (dropByTable t.watch .A
      ((writeGroups t.groups s).setTables { (writeGroups t.groups s).tables with
        routes := t.routes, watch := t.watch }))).health := (writeSetup_same _ _).get .health rfl
  have grouped : (writeGroups t.groups s).health = s.health := (writeGroups_same _ _).get .health rfl
  rw [written, dropByTable, dropByTable, dropCauses_health, dropCauses_health, dropCauses_health, setTables_health, grouped]
  cases x <;> rfl

/-- From `s` to `t` the courses, the bindings and the start-pending flags of the groups stand (R81). -/
def RecordsStand (s t : Part) : Prop := ∀ g, (t.groups.get g).course = (s.groups.get g).course ∧
  (t.groups.get g).binding = (s.groups.get g).binding ∧ (t.groups.get g).startPending = (s.groups.get g).startPending

theorem RecordsStand.refl (s : Part) : RecordsStand s s := fun _ => ⟨rfl, rfl, rfl⟩

theorem RecordsStand.trans {s t u : Part} (h : RecordsStand s t) (k : RecordsStand t u) : RecordsStand s u := fun g =>
  ⟨(k g).1.trans (h g).1, (k g).2.1.trans (h g).2.1, (k g).2.2.trans (h g).2.2⟩

theorem Same.recordsStand {F : List Block} {s t : Part} (h : Same F s t) (hF : F.contains .groups = false) :
    RecordsStand s t := by
  have groups : t.groups = s.groups := h.get .groups hF
  intro g
  rw [groups]
  exact ⟨rfl, rfl, rfl⟩

theorem writeGroup_groups (g k : Fin 16) (e : GroupEntry) (s : Part) : (writeGroup g e s).groups.get k =
    if k = g then rehome (groupEntry s g).home e.home (s.groups.get g) else s.groups.get k := Tbl.get_set _ _ _ _

theorem writeGroup_recordsStand (g : Fin 16) (e : GroupEntry) (s : Part) : RecordsStand s (writeGroup g e s) := by
  intro k
  rw [writeGroup_groups]
  split
  next h =>
    subst h
    unfold rehome
    split <;> exact ⟨rfl, rfl, rfl⟩
  next => exact ⟨rfl, rfl, rfl⟩

theorem writeGroups_recordsStand (t : Tbl 16 GroupEntry) (s : Part) : RecordsStand s (writeGroups t s) := by
  have each (l : List (Fin 16)) (s : Part) : RecordsStand s (l.foldl (fun s g => writeGroup g (t.get g) s) s) := by
    induction l generalizing s with
    | nil => exact .refl s
    | cons g l ih => exact (writeGroup_recordsStand g _ s).trans (ih _)
  exact each allGroups s

theorem writeTables_recordsStand (t : Tables) (s : Part) : RecordsStand s (writeTables t s) :=
  (((writeGroups_recordsStand t.groups s).trans ((setTables_same _ _).recordsStand rfl)).trans
    (((dropCauses_same _ _ _).recordsStand rfl).trans ((dropCauses_same _ _ _).recordsStand rfl))).trans
    ((writeSetup_same _ _).recordsStand rfl)

/-! ## The table writes (R73) -/

/-- The part after a table write, before its command completes; the other pending writes write no table. -/
def tableWritten (act : WriteAct) (s : Part) : Part :=
  match act with
  | .route first es => writeRoutes first es s
  | .group g e => writeGroup g e s
  | .watchCause x c e => writeWatchCause x c e s
  | .watchSlots x slots => writeWatchSlots x slots s
  | .setup new => writeSetup new s
  | .defaults => writeTables factoryTables s
  | .setMode _ _ | .bypass _ | .load => s

theorem applyWrite_of_table {w : PendingWrite} (h : w.act.isTable = true) (s : Part) :
    applyWrite w s = respondOwner w.owner .ok (tableWritten w.act s) := by
  obtain ⟨o, act⟩ := w
  cases act with
  | setMode | bypass | load => exact absurd h nofun
  | _ => rfl

theorem tableWritten_same (act : WriteAct) (s : Part) :
    Same [.tables, .groups, .tracker, .panel, .health] s (tableWritten act s) := by
  cases act with
  | route first es => exact (writeRoutes_same _ _ _).mono rfl
  | group g e => exact (writeGroup_same _ _ _).mono rfl
  | watchCause x c e => exact (writeWatchCause_same _ _ _ _).mono rfl
  | watchSlots x slots => exact (writeWatchSlots_same _ _ _).mono rfl
  | setup new => exact (writeSetup_same _ _).mono rfl
  | defaults => exact writeTables_same _ _
  | setMode | bypass | load => exact .refl _ s

theorem tableWritten_tables (act : WriteAct) (s : Part) : (tableWritten act s).tables = tablesAfter act s.tables := by
  cases act with
  | route first es => exact congrArg (fun routes => { s.tables with routes }) (Tbl.replace_eq _ _ _)
  | setup new => exact writeSetup_tables new s
  | defaults => exact writeTables_tables _ s
  | _ => rfl

theorem tableWritten_recordsStand (act : WriteAct) (s : Part) : RecordsStand s (tableWritten act s) := by
  cases act with
  | route first es => exact (writeRoutes_same _ _ _).recordsStand rfl
  | group g e => exact writeGroup_recordsStand g e s
  | watchCause x c e => exact (writeWatchCause_same _ _ _ _).recordsStand rfl
  | watchSlots x slots => exact (writeWatchSlots_same _ _ _).recordsStand rfl
  | setup new => exact (writeSetup_same _ _).recordsStand rfl
  | defaults => exact writeTables_recordsStand _ s
  | setMode | bypass | load => exact .refl s

theorem health_of_same {F : List Block} {s t : Part} (h : Same F s t) (hF : F.contains .health = false) (x : Rig) :
    t.health.get x = (s.health.get x).drop fun _ => false := by
  have health : t.health = s.health := h.get .health hF
  rw [health, Health.drop_none]

/-- R66: a table write takes the causes that it disables to CLEAR, and nothing else of the Health Watch. -/
theorem tableWritten_health (act : WriteAct) (s : Part) (x : Rig) : ∃ off,
    (tableWritten act s).health.get x = (s.health.get x).drop off ∧ ∀ i, off i = true ↔ disables act x i := by
  cases act with
  | watchCause y c e =>
    by_cases h : x = y
    · subst h
      refine ⟨_, PerRig.get_set_self _ _ _, fun i => ?_⟩
      rw [Bool.and_eq_true, beq_iff_eq, Bool.not_eq_true', eq_comm (a := i)]
      simp [disables]
    · refine ⟨fun _ => false, ?_, fun i => by simp [disables, Ne.symm h]⟩
      exact (dropCauses_health _ _ _ _).trans ((if_neg h).trans (Health.drop_none _).symm)
  | defaults => exact ⟨_, writeTables_health _ s x, fun i => by simp [disables]⟩
  | route first es => exact ⟨_, health_of_same (writeRoutes_same _ _ _) rfl x, fun i => by simp [disables]⟩
  | group g e => exact ⟨_, health_of_same (writeGroup_same _ _ _) rfl x, fun i => by simp [disables]⟩
  | watchSlots y slots => exact ⟨_, health_of_same (writeWatchSlots_same _ _ _) rfl x, fun i => by simp [disables]⟩
  | setup new => exact ⟨_, health_of_same (writeSetup_same _ _) rfl x, fun i => by simp [disables]⟩
  | setMode | bypass | load => exact ⟨_, health_of_same (.refl [] s) rfl x, fun i => by simp [disables]⟩

theorem deferredLoad_health (s : Part) (x : Rig) : ∃ off, (deferredLoad s).health.get x = (s.health.get x).drop off := by
  unfold deferredLoad
  dsimp only
  split
  · exact ⟨_, writeTables_health _ _ x⟩
  · have noticed (u : Part) : (defaultsLoaded u).health = u.health := (raise_same _ u).get .health rfl
    rw [noticed]
    exact ⟨_, writeTables_health _ _ x⟩

/-- R66: what one pending write does to the causes of a rig. -/
theorem applyWrite_health (w : PendingWrite) (s : Part) (x : Rig) : ∃ off,
    (applyWrite w s).health.get x = (s.health.get x).drop off ∧
      (w.act ≠ .load → ∀ i, off i = true ↔ disables w.act x i) := by
  by_cases table : w.act.isTable = true
  · obtain ⟨off, health, named⟩ := tableWritten_health w.act s x
    have answered : (applyWrite w s).health = (tableWritten w.act s).health := by
      rw [applyWrite_of_table table]
      exact (respondOwner_same _ _ _).get .health rfl
    exact ⟨off, by rw [answered, health], fun _ => named⟩
  · obtain ⟨o, act⟩ := w
    cases act with
    | setMode g mode =>
      exact ⟨_, health_of_same (applySetMode_same _ _ _ _) rfl x, fun _ i => by simp [disables]⟩
    | bypass e => exact ⟨_, health_of_same (applyBypass_same _ _ _) rfl x, fun _ i => by simp [disables]⟩
    | load =>
      obtain ⟨off, health⟩ := deferredLoad_health s x
      exact ⟨off, health, fun h => absurd rfl h⟩
    | _ => exact absurd rfl table

/-- R66, R73: what the pending writes of a boundary do to the causes of a rig. -/
theorem applyWrites_health (l : List PendingWrite) (s : Part) (x : Rig) : ∃ off,
    (applyWrites l s).health.get x = (s.health.get x).drop off ∧
      ((∀ w ∈ l, w.act ≠ .load) → ∀ i, off i = true ↔ ∃ w ∈ l, disables w.act x i) := by
  induction l generalizing s with
  | nil => exact ⟨_, (Health.drop_none _).symm, fun _ i => by simp⟩
  | cons w l ih =>
    rw [applyWrites]
    split
    next waits =>
      exact ⟨_, (Health.drop_none _).symm, fun noLoad => absurd waits.1 (noLoad w List.mem_cons_self)⟩
    next =>
      obtain ⟨first, health, named⟩ := applyWrite_health w s x
      obtain ⟨rest, health', named'⟩ := ih (applyWrite w s)
      refine ⟨fun i => first i || rest i, by rw [health', health, Health.drop_drop], fun noLoad i => ?_⟩
      rw [List.forall_mem_cons] at noLoad
      rw [Bool.or_eq_true, named noLoad.1, named' noLoad.2, List.exists_mem_cons_iff]

/-- R73: with table writes alone none waits. -/
theorem applyWrites_of_tables {l : List PendingWrite} (h : ∀ w ∈ l, w.act.isTable = true) (s : Part) :
    applyWrites l s = applyTableWrites l s := by
  induction l generalizing s with
  | nil => rfl
  | cons w l ih =>
    rw [List.forall_mem_cons] at h
    have table := h.1
    have stays : ¬(w.act = .load ∧ anyFading s = true) := fun k => by
      rw [k.1] at table
      exact absurd table nofun
    rw [applyWrites, if_neg stays, applyTableWrites, if_pos table]
    exact ih h.2 _

/-- R73: the tables after the table writes of a boundary, in their order. -/
theorem applyTableWrites_tables {l : List PendingWrite} (h : ∀ w ∈ l, w.act.isTable = true) (s : Part) :
    (applyTableWrites l s).tables = l.foldl (fun tables w => tablesAfter w.act tables) s.tables := by
  induction l generalizing s with
  | nil => rfl
  | cons w l ih =>
    rw [List.forall_mem_cons] at h
    have one : (applyWrite w s).tables = tablesAfter w.act s.tables := by
      rw [applyWrite_of_table h.1]
      exact ((respondOwner_same _ _ _).get .tables rfl).trans (tableWritten_tables _ _)
    rw [applyTableWrites, if_pos h.1, ih h.2, one]
    rfl

end Sys2Proof.Machine
end

section
/-! The Health Watch at a boundary (R65, R66, R68 to R70): what its turn makes of a rig, and that the turns after it leave that
as it is; then the activities of the causes and the entries that are sent alone (R56 to R62, R65; log 1). -/

namespace Sys2Proof.Machine

/-! ## The worst state and the sets (R68, R69, R70) -/

section
variable (h : Health)

theorem inState_getLsbD (st : CauseState) (i : Fin 8) :
    (h.inState st).getLsbD i.val = true ↔ (h.causes.get i).state = st := by
  rw [Health.inState, maskOf_getLsbD, beq_iff_eq]

theorem ne_zero_iff_getLsbD (m : BitVec 8) : m ≠ 0#8 ↔ ∃ i : Fin 8, m.getLsbD i.val = true := by
  constructor
  · intro nonzero
    by_contra none
    refine nonzero (BitVec.eq_of_getLsbD_eq fun i hi => ?_)
    rw [BitVec.getLsbD_zero, Bool.eq_false_iff]
    exact fun set => none ⟨⟨i, hi⟩, set⟩
  · rintro ⟨i, set⟩ rfl
    rw [BitVec.getLsbD_zero] at set
    exact absurd set nofun

theorem inState_ne_zero (st : CauseState) : h.inState st ≠ 0#8 ↔ ∃ i, (h.causes.get i).state = st := by
  simp only [ne_zero_iff_getLsbD, inState_getLsbD]

/-- R69. -/
theorem unusable_getLsbD (i : Fin 8) : h.unusable.getLsbD i.val = true ↔
    (h.causes.get i).state = .confirmed ∨ (h.causes.get i).state = .clearing := by
  rw [Health.unusable, BitVec.getLsbD_or, Bool.or_eq_true, inState_getLsbD, inState_getLsbD]

theorem worst_eq_failed : h.worst = .failed ↔ ∃ i, (h.causes.get i).state = .confirmed := by
  rw [← inState_ne_zero, Health.worst]
  split_ifs <;> simp_all

theorem worst_eq_recovering : h.worst = .recovering ↔
    (∀ i, (h.causes.get i).state ≠ .confirmed) ∧ ∃ i, (h.causes.get i).state = .clearing := by
  rw [← inState_ne_zero, ← not_exists, ← inState_ne_zero, Health.worst]
  split_ifs <;> simp_all

theorem worst_eq_suspect : h.worst = .suspect ↔
    (∀ i, (h.causes.get i).state ≠ .confirmed ∧ (h.causes.get i).state ≠ .clearing) ∧
      ∃ i, (h.causes.get i).state = .pending := by
  rw [forall_and, ← inState_ne_zero, ← not_exists, ← inState_ne_zero, ← not_exists, ← inState_ne_zero, Health.worst]
  split_ifs <;> simp_all

theorem worst_eq_good : h.worst = .good ↔ ∀ i, (h.causes.get i).state = .clear := by
  have clear (c : CauseState) : c = .clear ↔ c ≠ .confirmed ∧ c ≠ .clearing ∧ c ≠ .pending := by cases c <;> simp
  simp only [clear]
  rw [forall_and, forall_and, ← not_exists, ← inState_ne_zero, ← not_exists, ← inState_ne_zero, ← not_exists,
    ← inState_ne_zero, Health.worst]
  split_ifs <;> simp_all
end

/-- R70: a cause leaves CLEAR. -/
theorem leftClear_getLsbD (old new : Tbl 8 CauseRec) (i : Fin 8) : (leftClear old new).getLsbD i.val = true ↔
    (old.get i).state = .clear ∧ (new.get i).state ≠ .clear := by
  rw [leftClear, maskOf_getLsbD, Bool.and_eq_true, beq_iff_eq, bne_iff_ne]

theorem withCauses_sticky (h : Health) (causes : Tbl 8 CauseRec) (i : Fin 8) :
    (h.withCauses causes).sticky.getLsbD i.val = true ↔
      h.sticky.getLsbD i.val = true ∨ ((h.causes.get i).state = .clear ∧ (causes.get i).state ≠ .clear) := by
  rw [← leftClear_getLsbD, ← Bool.or_eq_true, ← BitVec.getLsbD_or]
  rfl

/-! ## The evaluation (R65) -/

theorem evaluated_get (h : Health) (rx : Receiver) (w : WatchRig) (c : Cause) : (evaluated h rx w).get c.idx =
    evalCause (w.causes.get c.idx) (activity rx w h c) (h.causes.get c.idx) := by
  rw [evaluated, Tbl.get_ofFn]
  cases c <;> rfl

/-- The activities do not see a receiver's counters. -/
theorem evaluate_of_counters (h : Health) (rx : Receiver) (k : Counters) (w : WatchRig) :
    h.evaluate { rx with counters := k } w = h.evaluate rx w := by
  have active (c : Cause) : activity { rx with counters := k } w h c = activity rx w h c := by cases c <;> rfl
  simp only [Health.evaluate, evaluated, active]

/-- What the evaluation of a boundary decides of a rig: causes, sticky set, health and published set. -/
def Health.outcome (h : Health) : Tbl 8 CauseRec × BitVec 8 × RigHealth × BitVec 8 :=
  (h.causes, h.sticky, h.health, h.published)

/-- From `s` to `t` nothing that the evaluation decides has changed. -/
def OutcomesStand (s t : Part) : Prop := ∀ x, (t.health.get x).outcome = (s.health.get x).outcome

theorem OutcomesStand.refl (s : Part) : OutcomesStand s s := fun _ => rfl

theorem OutcomesStand.trans {s t u : Part} (h : OutcomesStand s t) (k : OutcomesStand t u) : OutcomesStand s u :=
  fun x => (k x).trans (h x)

theorem Same.outcomesStand {F : List Block} {s t : Part} (h : Same F s t) (hF : F.contains .health = false) :
    OutcomesStand s t := by
  have health : t.health = s.health := h.get .health hF
  intro x
  rw [health]

theorem leaveLocked_outcomesStand (r : Rig) (st : RxState) (s : Part) : OutcomesStand s (leaveLocked r st s) := by
  intro x
  rw [leaveLocked_health, PerRig.get_set]
  split
  next h =>
    subst h
    rfl
  next => rfl

/-- R55: a receiver that leaves LOCKED inside a boundary loses its references alone. -/
theorem trackerTurn_outcomesStand (ord : Order) (s : Part) : OutcomesStand s (trackerTurn ord s) := by
  have derived : OutcomesStand s { s with tracker := derivedTracker s } := .refl s
  have lost : OutcomesStand s (requestPart ord s) := derived.trans (lossTurn_keeps OutcomesStand.refl OutcomesStand.trans
    (fun _ _ _ _ => ((setRx_same _ _ _).outcomesStand rfl).trans (leaveLocked_outcomesStand _ _ _)) ord _)
  exact lost.trans ((trackerTurn_same_requested ord s).outcomesStand rfl)

/-! ## A rig's turn (R59, R61, R65) -/

/-- A rig as its evaluation sees it: the repeat slips reported first, where the world's order has it so, and the timers
counted. -/
def Health.onWatch (h : Health) (slipFirst : Bool) (slips : Nat) (locked : Bool) : Health :=
  (if slipFirst = true ∧ 0 < slips then h.slipped else h).advance locked

theorem raiseHealth_health (x : Rig) (old mid new : Health) (s : Part) : (raiseHealth x old mid new s).health = s.health :=
  (raiseHealth_same _ _ _ _ _).get .health rfl

theorem healthTurn_health (x : Rig) (b : Health) (s : Part) : (healthTurn x b s).health = s.health.set x
    (((s.health.get x).advance (isLocked s x)).evaluate (s.rx.get x) (s.tables.watch.get x)) := raiseHealth_health _ _ _ _ _

theorem slipTurn_health (x : Rig) (n : Nat) (s : Part) :
    (slipTurn x n s).health.get x = if 0 < n then (s.health.get x).slipped else s.health.get x := by
  unfold slipTurn
  split
  · exact PerRig.get_set_self _ _ _
  · rfl

theorem watchRig_outcome (x : Rig) (b : Health) (first : Bool) (n : Nat) (s : Part) :
    ((watchRig x b first n s).health.get x).outcome =
      (((s.health.get x).onWatch first n (isLocked s x)).evaluate (s.rx.get x) (s.tables.watch.get x)).outcome := by
  cases first with
  | true =>
    have rx : (slipTurn x n s).rx = s.rx := (slipTurn_same _ _ _).get .rx rfl
    have tables : (slipTurn x n s).tables = s.tables := (slipTurn_same _ _ _).get .tables rfl
    rw [watchRig, if_pos rfl, healthTurn_health, PerRig.get_set_self, slipTurn_health, isLocked, rx, tables]
    simp only [Health.onWatch, true_and]
    rfl
  | false =>
    rw [watchRig, if_neg nofun, slipTurn_health, healthTurn_health, PerRig.get_set_self]
    have unslipped : (s.health.get x).onWatch false n (isLocked s x) = (s.health.get x).advance (isLocked s x) := rfl
    rw [unslipped]
    split <;> rfl

/-- The same of a part in which the rings' checks and the other rig's turn have come before. -/
theorem watchRig_outcome_of {x : Rig} {s u : Part} (b : Health) (first : Bool) (n : Nat)
    (health : u.health.get x = s.health.get x) (tables : u.tables = s.tables)
    (rx : u.rx.get x = { s.rx.get x with counters := (u.rx.get x).counters }) :
    ((watchRig x b first n u).health.get x).outcome =
      (((s.health.get x).onWatch first n (isLocked s x)).evaluate (s.rx.get x) (s.tables.watch.get x)).outcome := by
  have locked : isLocked u x = isLocked s x := by rw [isLocked, isLocked, rx]
  rw [watchRig_outcome, health, locked, tables, rx, evaluate_of_counters]

theorem watchRig_otherStands (x : Rig) (b : Health) (first : Bool) (n : Nat) (s : Part) :
    OtherStands x s (watchRig x b first n s) := by
  have slip (u : Part) : OtherStands x u (slipTurn x n u) := .when (setHealth_otherStands x u _)
  have turn (u : Part) : OtherStands x u (healthTurn x b u) :=
    (setHealth_otherStands x u (((u.health.get x).advance (isLocked u x)).evaluate (u.rx.get x) (u.tables.watch.get x))).trans
      ((raiseHealth_same _ _ _ _ _).otherStands rfl rfl rfl x)
  exact OtherStands.ite ((slip s).trans (turn _)) ((turn s).trans (slip _))

/-- The world's order of a rig's repeat slips and its evaluation (log 3). -/
def slipFirst (ord : Order) : Rig → Bool
  | .A => ord.slipFirstA
  | .B => ord.slipFirstB

theorem watchTurn_outcome (ord : Order) (b : PerRig Health) (s : Part) (x : Rig) :
    ((watchTurn ord b s).health.get x).outcome =
      (((s.health.get x).onWatch (slipFirst ord x) (repeatsOf s x) (isLocked s x)).evaluate (s.rx.get x)
        (s.tables.watch.get x)).outcome := by
  have same : Same [.rx, .ring] s (underrunTurn .B (underrunTurn .A s)) :=
    ((underrunTurn_same .A s).mono rfl).trans ((underrunTurn_same .B _).mono rfl)
  have health : (underrunTurn .B (underrunTurn .A s)).health = s.health := same.get .health rfl
  have tables : (underrunTurn .B (underrunTurn .A s)).tables = s.tables := same.get .tables rfl
  have counted : CountersOnly s (underrunTurn .B (underrunTurn .A s)) := by
    have under (y : Rig) (u : Part) : CountersOnly u (underrunTurn y u) :=
      .when (((setRing_same _ _ _).countersOnly rfl).trans (setRx_countersOnly y _ _))
    exact (under .A s).trans (under .B _)
  have first := watchRig_same .A (b.get .A) ord.slipFirstA (repeatsOf s .A) (underrunTurn .B (underrunTurn .A s))
  cases x with
  | A =>
    have later := (watchRig_otherStands .B (b.get .B) ord.slipFirstB (repeatsOf s .B)
      (watchRig .A (b.get .A) ord.slipFirstA (repeatsOf s .A) (underrunTurn .B (underrunTurn .A s)))).health
    exact (congrArg Health.outcome later).trans
      (watchRig_outcome_of _ _ _ (by rw [health]) tables (counted .A))
  | B =>
    have earlier := (watchRig_otherStands .A (b.get .A) ord.slipFirstA (repeatsOf s .A)
      (underrunTurn .B (underrunTurn .A s))).health
    refine watchRig_outcome_of _ _ _ (earlier.trans (congrArg (fun k => PerRig.get k .B) health))
      ((first.get .tables rfl).trans tables) ?_
    have rx : (watchRig .A (b.get .A) ord.slipFirstA (repeatsOf s .A) (underrunTurn .B (underrunTurn .A s))).rx =
      (underrunTurn .B (underrunTurn .A s)).rx := first.get .rx rfl
    rw [rx]
    exact counted .B

/-! ## The boundary -/

section
variable (l : Lines) (ord : Order) (s : Part) (h : noResetDue s) (x : Rig)
include h

/-- R66: before the Health Watch's turn only the writes of a boundary have touched a rig, and they drop causes alone. -/
theorem clockedPart_health : ∃ off, (clockedPart l ord s).health.get x =
    ({ s.health.get x with inForce := (s.health.get x).published } : Health).drop off ∧
      ((∀ w ∈ s.writes, w.act ≠ .load) → ∀ i, off i = true ↔ ∃ w ∈ s.writes, disables w.act x i) := by
  have keyed : Same [.port, .program, .gang, .lock] (openBoundary l s)
      (keyTurn l.key (framesBefore ord (openBoundary l s))) :=
    ((framesBefore_same ord _).mono rfl).trans ((keyTurn_same _ _).mono rfl)
  have writes : (keyTurn l.key (framesBefore ord (openBoundary l s))).writes = s.writes :=
    (keyed.get .writes rfl).trans ((openBoundary_quiet l s h).get .writes rfl)
  have health : (keyTurn l.key (framesBefore ord (openBoundary l s))).health = (openBoundary l s).health :=
    keyed.get .health rfl
  have after : (clockedPart l ord s).health = (writesTurn (keyTurn l.key (framesBefore ord (openBoundary l s)))).health :=
    ((clockTurn_same _).get .health rfl).trans ((matchTurn_same _).get .health rfl)
  obtain ⟨off, dropped, named⟩ := applyWrites_health s.writes (keyTurn l.key (framesBefore ord (openBoundary l s))) x
  refine ⟨off, ?_, named⟩
  rw [after, writesTurn, writes, dropped, health, (openBoundary_promoted l s h).1, PerRig.get_map]

/-- R65, R68, R69, R70: a boundary leaves of each rig what its evaluation decides. -/
theorem boundary_outcome : ((boundary l ord s).health.get x).outcome =
    ((((clockedPart l ord s).health.get x).onWatch (slipFirst ord x) (repeatsOf (clockedPart l ord s) x)
      (isLocked s x)).evaluate (s.rx.get x) ((clockedPart l ord s).tables.watch.get x)).outcome := by
  have rx := (clockedPart_stands l ord s h).1
  rw [boundary_health, trackedPart, trackerTurn_outcomesStand ord _ x, watchedPart, watchTurn_outcome, isLocked, isLocked, rx]
end

section
variable (h : Health) (first locked : Bool) (n : Nat)

theorem onWatch_causes : (h.onWatch first n locked).causes = h.causes := by
  unfold Health.onWatch
  split <;> rfl

theorem onWatch_sticky : (h.onWatch first n locked).sticky = h.sticky := by
  unfold Health.onWatch
  split <;> rfl

/-- R56 to R62: the activities but that of SLIP see a boundary's count of the beat age alone. -/
theorem activity_onWatch (rx : Receiver) (w : WatchRig) {c : Cause} (hc : c ≠ .slip) :
    activity rx w (h.onWatch first n locked) c =
      activity rx w { h with beatAge := if locked then min (h.beatAge + 1) 65535 else h.beatAge } c := by
  unfold Health.onWatch
  split <;> cases c <;> first | rfl | exact absurd rfl hc
end

theorem inState_congr {h k : Health} (e : h.causes = k.causes) (st : CauseState) : h.inState st = k.inState st := by
  rw [Health.inState, Health.inState, e]

/-- R68, R69, R70: what a rig is left with that has the outcome of new causes. -/
theorem settled_of_outcome {t k : Health} {causes : Tbl 8 CauseRec} (h : t.outcome = (k.withCauses causes).outcome) :
    t.causes = causes ∧ t.health = t.worst ∧ t.published = t.unusable ∧
      ∀ i : Fin 8, t.sticky.getLsbD i.val = true ↔
        k.sticky.getLsbD i.val = true ∨ ((k.causes.get i).state = .clear ∧ (t.causes.get i).state ≠ .clear) := by
  obtain ⟨same, sticky, health, published⟩ : t.causes = causes ∧ t.sticky = (k.withCauses causes).sticky ∧
      t.health = (k.withCauses causes).worst ∧ t.published = (k.withCauses causes).unusable := by
    simp only [Health.outcome, Prod.mk.injEq] at h
    exact h
  have states := inState_congr (h := t) (k := k.withCauses causes) same
  refine ⟨same, ?_, ?_, fun i => ?_⟩
  · rw [health, Health.worst, Health.worst, states, states, states]
  · rw [published, Health.unusable, Health.unusable, states, states]
  · rw [sticky, same, withCauses_sticky]

/-- Settles O19: by the evaluation that each rig's turn ends with. -/
theorem healthFollowsTheCauses : Obligations.HealthFollowsTheCauses := by
  intro l ord s x h
  obtain ⟨off, dropped, named⟩ := clockedPart_health l ord s.toPart h x
  obtain ⟨-, health, published, sticky⟩ := settled_of_outcome (boundary_outcome l ord s.toPart h x)
  refine ⟨_, exec_boundary l ord s h.1, ?_⟩
  rw [State.toPart_withPart]
  generalize (boundary l ord s.toPart).health.get x = t at health published sticky ⊢
  rw [onWatch_causes, onWatch_sticky, dropped] at sticky
  have found (i : Fin 8) : ((({ s.health.get x with inForce := (s.health.get x).published } : Health).drop off).causes.get
      i).state = .clear ↔ off i = true ∨ ((s.health.get x).causes.get i).state = .clear := by
    rw [Health.drop_causes]
    split
    next dropped => simp [dropped]
    next stands => simp [stands]
  simp only [found] at sticky
  refine ⟨fun i => ?_, ?_, ?_, ?_, ?_, fun i => ?_, fun noLoad i => ?_⟩
  · rw [published, unusable_getLsbD]
  · rw [health, worst_eq_failed]
  · rw [health, worst_eq_recovering]
  · rw [health, worst_eq_suspect]
  · rw [health, worst_eq_good]
  · rw [sticky]
    exact Or.imp_right fun ⟨clear, left⟩ => ⟨.inr clear, left⟩
  · rw [sticky, named noLoad, and_comm, or_comm (a := ∃ w ∈ s.writes, _)]
    rfl

end Sys2Proof.Machine
end

section
/-! The causes at a boundary, and the two entries that are sent alone (R56 to R62, R64 to R66, R68 to R70; log 1). -/

namespace Sys2Proof.Machine

/-! ## The tables of a boundary (R73) -/

section
variable (l : Lines) (ord : Order) (s : Part)

theorem boundary_tables : (boundary l ord s).tables = (clockedPart l ord s).tables :=
  (((boundary_same_tracked l ord s).get .tables rfl).trans ((trackerTurn_same ord _).get .tables rfl)).trans
    ((watchTurn_same ord _ _).get .tables rfl)

theorem clockedPart_tables (h : noResetDue s) (table : ∀ w ∈ s.writes, w.act.isTable = true) :
    (clockedPart l ord s).tables = s.writes.foldl (fun tables w => tablesAfter w.act tables) s.tables := by
  have keyed : Same [.port, .program, .gang, .lock] (openBoundary l s)
      (keyTurn l.key (framesBefore ord (openBoundary l s))) :=
    ((framesBefore_same ord _).mono rfl).trans ((keyTurn_same _ _).mono rfl)
  have writes : (keyTurn l.key (framesBefore ord (openBoundary l s))).writes = s.writes :=
    (keyed.get .writes rfl).trans ((openBoundary_quiet l s h).get .writes rfl)
  have tables : (keyTurn l.key (framesBefore ord (openBoundary l s))).tables = s.tables :=
    (keyed.get .tables rfl).trans ((openBoundary_quiet l s h).get .tables rfl)
  have after : (clockedPart l ord s).tables = (writesTurn (keyTurn l.key (framesBefore ord (openBoundary l s)))).tables :=
    ((clockTurn_same _).get .tables rfl).trans ((matchTurn_same _).get .tables rfl)
  rw [after, writesTurn, writes, applyWrites_of_tables table, applyTableWrites_tables table, tables]

/-- R65: a cause after a boundary, SLIP apart, by the tables and the disables of the boundary. -/
theorem boundary_cause (h : noResetDue s) (x : Rig) {c : Cause} (hc : c ≠ .slip) {off : Fin 8 → Bool}
    (dropped : (clockedPart l ord s).health.get x =
      ({ s.health.get x with inForce := (s.health.get x).published } : Health).drop off) {w : WatchRig}
    (watch : (clockedPart l ord s).tables.watch.get x = w) :
    ((boundary l ord s).health.get x).causes.get c.idx = evalCause (w.causes.get c.idx)
      (activity (s.rx.get x) w { s.health.get x with
        beatAge := if (s.rx.get x).state = .locked then min ((s.health.get x).beatAge + 1) 65535
          else (s.health.get x).beatAge } c)
      (if off c.idx then ⟨.clear, 0⟩ else (s.health.get x).causes.get c.idx) := by
  obtain ⟨causes, -⟩ := settled_of_outcome (boundary_outcome l ord s h x)
  rw [causes, evaluated_get, activity_onWatch _ _ _ _ _ _ hc, onWatch_causes, dropped, watch, Health.drop_causes]
  simp only [isLocked, beq_iff_eq]
  have blind (age : Nat) : activity (s.rx.get x) w
      { ({ s.health.get x with inForce := (s.health.get x).published } : Health).drop off with beatAge := age } c =
      activity (s.rx.get x) w { s.health.get x with beatAge := age } c := by
    cases c <;> rfl
  exact congrArg (fun a => evalCause (w.causes.get c.idx) a _) (blind _)
end

/-! ## One cause passes to another state (R65, R68 to R70) -/

section
variable {x : Rig} {c : Cause} {s : Part}

/-- R70: a cause that was not CLEAR joins no sticky set by its next state. -/
theorem withCauses_set_sticky (h : Health) (i : Fin 8) (next : CauseRec) (out : (h.causes.get i).state ≠ .clear) :
    (h.withCauses (h.causes.set i next)).sticky = h.sticky := by
  refine BitVec.eq_of_getLsbD_eq fun k hk => ?_
  rw [Bool.eq_iff_iff, withCauses_sticky h _ ⟨k, hk⟩, Tbl.get_set]
  refine or_iff_left fun ⟨clear, left⟩ => ?_
  split at left
  next e => exact out (e ▸ clear)
  next => exact left clear

/-- R65, R68 to R70: a rig one of whose causes, not CLEAR, has passed to its next state. -/
theorem causeStep_of_passing {src dst : CauseState} (from_src : ((s.health.get x).causes.get c.idx).state = src)
    (to_dst : (causeNext s x c).state = dst) (out : src ≠ .clear) : ∃ new : Health,
      causeStep x c src dst s = raiseHealth x (s.health.get x) (s.health.get x) new (s.setHealth x new) ∧
      (causeStep x c src dst s).health.get x = new ∧ new.causes.get c.idx = causeNext s x c ∧ new.health = new.worst ∧
      new.published = new.unusable ∧ new.sticky = (s.health.get x).sticky := by
  have stepped : causeStep x c src dst s = raiseHealth x (s.health.get x) (s.health.get x)
      ((s.health.get x).withCauses ((s.health.get x).causes.set c.idx (causeNext s x c)))
      (s.setHealth x ((s.health.get x).withCauses ((s.health.get x).causes.set c.idx (causeNext s x c)))) :=
    if_pos ⟨from_src, to_dst⟩
  refine ⟨_, stepped, ?_, Tbl.get_set_self _ _ _, rfl, rfl, withCauses_set_sticky _ _ _ (from_src ▸ out)⟩
  rw [stepped, raiseHealth_health, setHealth_health, PerRig.get_set_self]

/-- R72: a change of the CONFIRMED set is a change. -/
theorem shiftedFrom_of_confirmed (old new : Health) (i : Fin 8) (before : (old.causes.get i).state ≠ .confirmed)
    (after : (new.causes.get i).state = .confirmed) : new.shiftedFrom old = true := by
  have differs : old.inState .confirmed ≠ new.inState .confirmed := fun e =>
    before ((inState_getLsbD old _ i).mp (e ▸ (inState_getLsbD new _ i).mpr after))
  simp [Health.shiftedFrom, differs]

theorem raised_raiseHealth (x : Rig) (old mid new : Health) (s : Part)
    (h : mid.shiftedFrom old = true ∨ new.shiftedFrom mid = true) : raised (raiseHealth x old mid new s)
      (.rigHealth x old.health new.health (new.inState .pending) (new.inState .confirmed) (new.inState .clearing)
        new.sticky) := by
  unfold raiseHealth healthNotice
  rw [if_pos h]
  exact raised_raise _ _
end

section
variable {s : State} {x : Rig} {c : Cause} {n : Nat} (run : s.inReset = false)
  (on : ((s.tables.watch.get x).causes.get c.idx).enabled = true)
include run on

/-- R65: a PENDING cause whose timer reaches its confirm time. -/
theorem exec_causeConfirmed (pending : (s.health.get x).causes.get c.idx = ⟨.pending, n⟩)
    (active : activity (s.rx.get x) (s.tables.watch.get x) (s.health.get x) c = true)
    (due : ((s.tables.watch.get x).causes.get c.idx).confirm.toNat ≤ min (n + 1) 65535) :
    ∃ t, exec (.causeConfirmed x c) s = .next t ∧ (t.health.get x).causes.get c.idx = ⟨.confirmed, 0⟩ ∧
      (t.health.get x).health = .failed ∧ (t.health.get x).published.getLsbD c.idx.val = true ∧
      (t.health.get x).sticky = (s.health.get x).sticky ∧
      ∃ old p q r, raised t.toPart (.rigHealth x old .failed p q r (s.health.get x).sticky) := by
  have next : causeNext s.toPart x c = ⟨.confirmed, 0⟩ := by
    simp [causeNext, pending, active, evalCause, on, evalEnabled, rise, due]
  obtain ⟨new, stepped, health, cause, worst, published, sticky⟩ := causeStep_of_passing (s := s.toPart) (x := x) (c := c)
    (src := .pending) (dst := .confirmed) (by rw [pending]) (by rw [next]) nofun
  rw [next] at cause
  have failed : new.health = .failed := by
    rw [worst, worst_eq_failed]
    exact ⟨c.idx, by rw [cause]⟩
  have shifted : new.shiftedFrom (s.health.get x) = true :=
    shiftedFrom_of_confirmed _ _ c.idx (by simp [pending]) (by rw [cause])
  have notice := raised_raiseHealth x (s.health.get x) (s.health.get x) new (s.toPart.setHealth x new) (.inr shifted)
  rw [failed, sticky, ← stepped] at notice
  refine ⟨_, exec_of_running rfl run, ?_⟩
  rw [State.toPart_withPart, health]
  refine ⟨cause, failed, ?_, sticky, _, _, _, _, notice⟩
  rw [published, unusable_getLsbD, cause]
  exact .inl rfl

/-- R65: a CLEARING cause whose timer reaches its clear time. -/
theorem exec_causeCleared (clearing : (s.health.get x).causes.get c.idx = ⟨.clearing, n⟩)
    (idle : activity (s.rx.get x) (s.tables.watch.get x) (s.health.get x) c = false)
    (due : ((s.tables.watch.get x).causes.get c.idx).clear.toNat ≤ min (n + 1) 65535) :
    ∃ t, exec (.causeCleared x c) s = .next t ∧ (t.health.get x).causes.get c.idx = ⟨.clear, 0⟩ ∧
      (t.health.get x).published.getLsbD c.idx.val = false ∧ (t.health.get x).sticky = (s.health.get x).sticky := by
  have next : causeNext s.toPart x c = ⟨.clear, 0⟩ := by
    simp [causeNext, clearing, idle, evalCause, on, evalEnabled, rise, due]
  obtain ⟨new, -, health, cause, -, published, sticky⟩ := causeStep_of_passing (s := s.toPart) (x := x) (c := c)
    (src := .clearing) (dst := .clear) (by rw [clearing]) (by rw [next]) nofun
  rw [next] at cause
  refine ⟨_, exec_of_running rfl run, ?_⟩
  rw [State.toPart_withPart, health]
  refine ⟨cause, ?_, sticky⟩
  rw [published, Bool.eq_false_iff, ne_eq, unusable_getLsbD, cause]
  simp
end

/-- Settles O20: the activities and R65's table by their definitions, the boundaries by the outcome of each rig's turn. -/
theorem causesAreEvaluated : Obligations.CausesAreEvaluated := by
  refine ⟨fun rx w h => ?_, rfl, fun w active c off => if_neg (by simp [off]), fun w n on => ?_, ?_, ?_, ?_⟩
  · simp [activity]
  · have zero (v : Half) : v.toNat = 0 ↔ v = 0#16 := by rw [← BitVec.toNat_inj, BitVec.toNat_zero]
    simp [evalCause, on, evalEnabled, rise, zero]
  · intro l ord s x c h none hc
    refine ⟨_, exec_boundary l ord s h.1, ?_⟩
    obtain ⟨off, dropped, named⟩ := clockedPart_health l ord s.toPart h x
    have stays : ¬off c.idx = true := by
      rw [named (by simp [none])]
      simp [none]
    have tables := clockedPart_tables l ord s.toPart h (by simp [none])
    rw [State.toPart_withPart, boundary_cause l ord s.toPart h x hc dropped (congrArg (fun t => t.watch.get x) tables), none,
      if_neg stays]
    rfl
  · rintro l ord s x c o o' off on w h hc disabled writes rfl
    refine ⟨_, exec_boundary l ord s h.1, ?_⟩
    obtain ⟨dropped, health, named⟩ := clockedPart_health l ord s.toPart h x
    have clears : dropped c.idx = true := by
      rw [named (by simp [writes])]
      exact ⟨_, by rw [writes]; exact List.mem_cons_self, .inl ⟨off, rfl, disabled⟩⟩
    have tables := clockedPart_tables l ord s.toPart h (by simp [writes, WriteAct.isTable])
    have watch : (clockedPart l ord s.toPart).tables.watch.get x =
        { s.tables.watch.get x with causes := (s.tables.watch.get x).causes.set c.idx on } := by
      rw [tables, writes]
      simp [tablesAfter, Tbl.set_set]
    rw [State.toPart_withPart, boundary_tables, boundary_cause l ord s.toPart h x hc health watch, if_pos clears]
    exact ⟨watch, by rw [Tbl.get_set_self]⟩
  · rintro s x c w n run rfl on
    exact ⟨exec_causeConfirmed run on, exec_causeCleared run on⟩

end Sys2Proof.Machine
end

section
/-! The ports as writes take effect: the response of a command that completes (R131), what a raised notice leaves of a port,
and how long a notice stays in its queue (R135). -/

namespace Sys2Proof.Machine

/-! ## Responses (R131) -/

section
variable (p : Port) (id : Nat) (st : Status) (i : Nat) (results : List Byte)

theorem Port.respond_lane : (p.respond id st i results).lane = p.lane := by
  unfold Port.respond
  repeat' split
  all_goals rfl

/-- R131: the response of a command in progress goes to the back of the queue. -/
theorem Port.respond_responses {h : Held} (found : p.find id = some h) (open' : h.phase ≠ .done) :
    (p.respond id st i results).responses = p.responses ++ [⟨id, h.tag, h.code, st, i, results⟩] := by
  simp [Port.respond, found, open']

theorem Port.respond_grows : p.responses <+: (p.respond id st i results).responses := by
  unfold Port.respond
  repeat' split
  · exact List.prefix_rfl
  · exact List.prefix_rfl
  · exact List.prefix_append _ _

/-- A response to one command leaves the other commands of its port. -/
theorem Port.respond_find {k : Nat} (other : k ≠ id) : (p.respond id st i results).find k = p.find k := by
  have kept (l : List Held) : (l.map fun h => if h.id == id then { h with phase := .done } else h).find? (fun h => h.id == k) =
      l.find? fun h => h.id == k := by
    induction l with
    | nil => rfl
    | cons h l ih =>
      rw [List.map_cons, List.find?_cons, List.find?_cons, ih]
      by_cases own : h.id = id
      · have apart : (h.id == k) = false := beq_eq_false_iff_ne.mpr fun e => other (e.symm.trans own)
        rw [if_pos (beq_iff_eq.mpr own)]
        simp only [apart]
      · rw [if_neg (mt beq_iff_eq.mp own)]
  unfold Port.respond
  repeat' split
  · rfl
  · rfl
  · exact kept p.slots
end

theorem respond_port (r x : Rig) (id : Nat) (st : Status) (i : Nat) (results : List Byte) (s : Part) :
    (respond r id st i results s).port.get x =
      if x = r then (s.port.get x).respond id st i results else s.port.get x := by
  refine (PerRig.get_set _ _ _ _).trans ?_
  split
  next own => rw [own]
  next => rfl

/-- From `s` to `t` the commands and the responses of the two ports stand. -/
def AnswersStand (s t : Part) : Prop := ∀ r, (t.port.get r).slots = (s.port.get r).slots ∧
  (t.port.get r).responses = (s.port.get r).responses

theorem AnswersStand.refl (s : Part) : AnswersStand s s := fun _ => ⟨rfl, rfl⟩

theorem AnswersStand.trans {s t u : Part} (h : AnswersStand s t) (k : AnswersStand t u) : AnswersStand s u := fun r =>
  ⟨(k r).1.trans (h r).1, (k r).2.trans (h r).2⟩

theorem AnswersStand.when {s a : Part} {p : Prop} [Decidable p] (h : AnswersStand s a) :
    AnswersStand s (if p then a else s) := by
  split
  · exact h
  · exact .refl s

theorem Same.answersStand {F : List Block} {s t : Part} (h : Same F s t) (hF : F.contains .port = false) :
    AnswersStand s t := by
  have port : t.port = s.port := h.get .port hF
  intro r
  rw [port]
  exact ⟨rfl, rfl⟩

theorem AnswersStand.find {s t : Part} (h : AnswersStand s t) (r : Rig) (id : Nat) :
    (t.port.get r).find id = (s.port.get r).find id := congrArg (List.find? _) (h r).1

theorem raise_answersStand (b : NoticeBody) (s : Part) : AnswersStand s (raise b s) := fun r => by
  rw [raise, PerRig.get_map]
  exact ⟨rfl, rfl⟩

theorem relayChange_answersStand (c old : Bool) (s : Part) : AnswersStand s (relayChange c old s) :=
  .when (raise_answersStand _ _)

theorem selectBetter_answersStand (s : Part) : AnswersStand s (selectBetter s) :=
  .when (((withClock_same _ _).answersStand rfl).trans (raise_answersStand _ _))

theorem raiseHealth_answersStand (x : Rig) (old mid new : Health) (s : Part) :
    AnswersStand s (raiseHealth x old mid new s) := by
  unfold raiseHealth
  split
  · exact raise_answersStand _ _
  · exact .refl s

theorem settleHealth_answersStand (x : Rig) (h : Health) (s : Part) : AnswersStand s (settleHealth x h s) := by
  unfold settleHealth
  dsimp only
  split
  · exact .refl s
  · exact ((setHealth_same _ _ _).answersStand rfl).trans (raiseHealth_answersStand _ _ _ _ _)

theorem settleWrites_answersStand (before : PerRig Health) (s : Part) : AnswersStand s (settleWrites before s) :=
  ((settleHealth_answersStand _ _ _).trans (settleHealth_answersStand _ _ _)).trans (selectBetter_answersStand _)

/-! ## The notice queues (R135) -/

/-- From `s` to `t` the three notice queues stand. -/
def LanesStand (s t : Part) : Prop := (∀ r, (t.port.get r).lane = (s.port.get r).lane) ∧ t.program.lane = s.program.lane

theorem LanesStand.refl (s : Part) : LanesStand s s := ⟨fun _ => rfl, rfl⟩

theorem LanesStand.trans {s t u : Part} (h : LanesStand s t) (k : LanesStand t u) : LanesStand s u :=
  ⟨fun r => (k.1 r).trans (h.1 r), k.2.trans h.2⟩

theorem Same.lanesStand {F : List Block} {s t : Part} (h : Same F s t) (hport : F.contains .port = false)
    (hprogram : F.contains .program = false) : LanesStand s t := by
  have port : t.port = s.port := h.get .port hport
  have program : t.program = s.program := h.get .program hprogram
  exact ⟨fun r => by rw [port], by rw [program]⟩

theorem respond_lanesStand (r : Rig) (id : Nat) (st : Status) (i : Nat) (results : List Byte) (s : Part) :
    LanesStand s (respond r id st i results s) := by
  refine ⟨fun x => ?_, rfl⟩
  rw [respond_port]
  split
  · exact Port.respond_lane _ _ _ _ _
  · rfl

theorem LanesStand.noNotice {s t : Part} (h : LanesStand s t) : noNotice s t :=
  ⟨congrArg Lane.notices (h.1 .A), congrArg Lane.notices (h.1 .B), congrArg Lane.notices h.2⟩

theorem LanesStand.raised {s t : Part} (h : LanesStand s t) {b : NoticeBody} (clock : t.clock = s.clock)
    (k : raised s b) : raised t b := by
  obtain ⟨a, b', program⟩ := k
  rw [← clock] at a b' program
  exact ⟨(congrArg (·.notices.getLast?) (h.1 .A)).trans a, (congrArg (·.notices.getLast?) (h.1 .B)).trans b',
    (congrArg (·.notices.getLast?) h.2).trans program⟩

/-- A notice stands in a queue with at most `k` newer ones behind it. -/
def Lane.holds (l : Lane) (n : Notice) (k : Nat) : Prop :=
  ∃ older newer, l.notices = older ++ n :: newer ∧ newer.length ≤ k

theorem Lane.holds_of_getLast {l : Lane} {n : Notice} (h : l.notices.getLast? = some n) : l.holds n 0 := by
  obtain ⟨older, e⟩ := List.getLast?_eq_some_iff.mp h
  exact ⟨older, [], e, Nat.le_refl 0⟩

/-- R135: a queue of 8 discards its oldest notice, so a newer one stays. -/
theorem Lane.holds_push {l : Lane} {n : Notice} {k : Nat} (h : l.holds n k) (hk : k < 7) (m : Notice) :
    (l.push m).holds n (k + 1) := by
  obtain ⟨older, newer, e, len⟩ := h
  unfold Lane.push
  split
  next full =>
    cases older with
    | nil =>
      rw [e, List.nil_append, List.length_cons] at full
      omega
    | cons o older => exact ⟨older, newer ++ [m], by simp [e], by simpa using len⟩
  next => exact ⟨older, newer ++ [m], by simp [e], by simpa using len⟩

theorem Lane.holds_mono {l : Lane} {n : Notice} {j k : Nat} (h : l.holds n j) (le : j ≤ k) : l.holds n k := by
  obtain ⟨older, newer, e, len⟩ := h
  exact ⟨older, newer, e, len.trans le⟩

theorem Lane.mem_of_holds {l : Lane} {n : Notice} {k : Nat} (h : l.holds n k) : n ∈ l.notices := by
  obtain ⟨older, newer, e, -⟩ := h
  simp [e]

/-- A notice stands in each of the three queues with at most `k` newer ones behind it. -/
def Noticed (n : Notice) (k : Nat) (s : Part) : Prop :=
  (∀ r, (s.port.get r).lane.holds n k) ∧ s.program.lane.holds n k

theorem noticed_of_raised {s : Part} {b : NoticeBody} (h : raised s b) : Noticed ⟨s.clock.frame, b⟩ 0 s := by
  obtain ⟨a, b', program⟩ := h
  refine ⟨fun r => ?_, Lane.holds_of_getLast program⟩
  cases r
  · exact Lane.holds_of_getLast a
  · exact Lane.holds_of_getLast b'

theorem Noticed.mem {n : Notice} {k : Nat} {s : Part} (h : Noticed n k s) :
    (∀ r, n ∈ (s.port.get r).lane.notices) ∧ n ∈ s.program.lane.notices :=
  ⟨fun r => Lane.mem_of_holds (h.1 r), Lane.mem_of_holds h.2⟩

theorem Noticed.mono {n : Notice} {j k : Nat} {s : Part} (h : Noticed n j s) (le : j ≤ k) : Noticed n k s :=
  ⟨fun r => Lane.holds_mono (h.1 r) le, Lane.holds_mono h.2 le⟩

theorem Noticed.stands {n : Notice} {k : Nat} {s t : Part} (h : Noticed n k s) (e : LanesStand s t) : Noticed n k t :=
  ⟨fun r => by rw [e.1 r]; exact h.1 r, by rw [e.2]; exact h.2⟩

section
variable {n : Notice} {k : Nat} {s : Part} (h : Noticed n k s) (hk : k < 7)
include h hk

theorem raise_noticed (b : NoticeBody) : Noticed n (k + 1) (raise b s) := by
  refine ⟨fun r => ?_, Lane.holds_push h.2 hk _⟩
  rw [raise, PerRig.get_map]
  exact Lane.holds_push (h.1 r) hk _

theorem selectBetter_noticed : Noticed n (k + 1) (selectBetter s) := by
  rw [selectBetter_eq]
  split
  · exact raise_noticed (h.stands ((withClock_same _ _).lanesStand rfl rfl)) hk _
  · exact h.mono (Nat.le_succ k)

theorem raiseHealth_noticed (x : Rig) (old mid new : Health) : Noticed n (k + 1) (raiseHealth x old mid new s) := by
  unfold raiseHealth
  split
  · exact raise_noticed h hk _
  · exact h.mono (Nat.le_succ k)

theorem settleHealth_noticed (x : Rig) (before : Health) : Noticed n (k + 1) (settleHealth x before s) := by
  unfold settleHealth
  dsimp only
  split
  · exact h.mono (Nat.le_succ k)
  · exact raiseHealth_noticed (h.stands ((setHealth_same _ _ _).lanesStand rfl rfl)) hk _ _ _ _
end

/-- R66, R135: what follows the writes pushes three notices at most. -/
theorem settleWrites_noticed {n : Notice} {s : Part} (h : Noticed n 0 s) (before : PerRig Health) :
    Noticed n 3 (settleWrites before s) := by
  have rigA := settleHealth_noticed h (by omega) .A (before.get .A)
  have rigB := settleHealth_noticed rigA (by omega) .B (before.get .B)
  exact selectBetter_noticed rigB (by omega)

end Sys2Proof.Machine
end

section
/-! The pending writes taken on their own (R66, R72, R73, R77, R81, R83, R85, R153, R159; log 1). -/

namespace Sys2Proof.Machine

/-! ## The responses of the table writes (R73, R131) -/

/-- The response of a write's command. -/
def okResponse (id : Nat) (h : Held) : Response := ⟨id, h.tag, h.code, .ok, 0, []⟩

/-- A command is still in progress, or its write's response waits. -/
def Port.answersOk (p : Port) (id : Nat) (h : Held) : Prop := p.find id = some h ∨ okResponse id h ∈ p.responses

theorem respondOwner_grows (o : Option (Rig × Nat)) (st : Status) (s : Part) (r : Rig) :
    (s.port.get r).responses <+: ((respondOwner o st s).port.get r).responses := by
  match o with
  | none => exact List.prefix_rfl
  | some (x, id) =>
    rw [respondOwner, respond_port]
    split
    · exact Port.respond_grows _ _ _ _ _
    · exact List.prefix_rfl

section
variable {s : Part} {r : Rig} {id : Nat} {h : Held}

theorem respondOwner_answered (open' : h.phase ≠ .done) (due : (s.port.get r).answersOk id h) :
    okResponse id h ∈ ((respondOwner (some (r, id)) .ok s).port.get r).responses := by
  rcases due with found | answered
  · rw [respondOwner, respond_port, if_pos rfl, Port.respond_responses _ _ _ _ _ found open']
    exact List.mem_append_right _ List.mem_cons_self
  · exact (respondOwner_grows _ _ _ _).subset answered

theorem respondOwner_answersOk (open' : h.phase ≠ .done) (o : Option (Rig × Nat)) (due : (s.port.get r).answersOk id h) :
    ((respondOwner o .ok s).port.get r).answersOk id h := by
  rcases due with found | answered
  · match o with
    | none => exact .inl found
    | some (x, k) =>
      by_cases own : r = x ∧ id = k
      · obtain ⟨rfl, rfl⟩ := own
        exact .inr (respondOwner_answered open' (.inl found))
      · refine .inl ?_
        rw [respondOwner, respond_port]
        split
        next port => rw [Port.respond_find _ _ _ _ _ fun e => own ⟨port, e⟩, found]
        next => exact found
  · exact .inr ((respondOwner_grows _ _ _ _).subset answered)
end

theorem tableWritten_port (act : WriteAct) (s : Part) : (tableWritten act s).port = s.port :=
  (tableWritten_same act s).get .port rfl

theorem applyTableWrites_grows {l : List PendingWrite} (table : ∀ w ∈ l, w.act.isTable = true) (s : Part) (r : Rig) :
    (s.port.get r).responses <+: ((applyTableWrites l s).port.get r).responses := by
  induction l generalizing s with
  | nil => exact List.prefix_rfl
  | cons w l ih =>
    rw [List.forall_mem_cons] at table
    rw [applyTableWrites, if_pos table.1, applyWrite_of_table table.1]
    refine .trans ?_ (ih table.2 _)
    rw [← tableWritten_port w.act s]
    exact respondOwner_grows _ _ _ _

/-- R73: each of the writes' commands completes. -/
theorem applyTableWrites_answered {l : List PendingWrite} (table : ∀ w ∈ l, w.act.isTable = true) {s : Part} {r : Rig}
    {id : Nat} {h : Held} (open' : h.phase ≠ .done) (due : (s.port.get r).answersOk id h) {w : PendingWrite} (mem : w ∈ l)
    (owner : w.owner = some (r, id)) : okResponse id h ∈ ((applyTableWrites l s).port.get r).responses := by
  induction l generalizing s with
  | nil => exact absurd mem nofun
  | cons v l ih =>
    rw [List.forall_mem_cons] at table
    rw [← tableWritten_port v.act s] at due
    rw [applyTableWrites, if_pos table.1, applyWrite_of_table table.1]
    rcases List.mem_cons.mp mem with rfl | later
    · rw [owner]
      exact (applyTableWrites_grows table.2 _ r).subset (respondOwner_answered open' due)
    · exact ih table.2 (respondOwner_answersOk open' _ due) later

/-! ## The groups' records (R81) -/

theorem applyTableWrites_recordsStand {l : List PendingWrite} (table : ∀ w ∈ l, w.act.isTable = true) (s : Part) :
    RecordsStand s (applyTableWrites l s) := by
  induction l generalizing s with
  | nil => exact (withWrites_same _ _).recordsStand rfl
  | cons w l ih =>
    rw [List.forall_mem_cons] at table
    rw [applyTableWrites, if_pos table.1, applyWrite_of_table table.1]
    exact ((tableWritten_recordsStand w.act s).trans ((respondOwner_same _ _ _).recordsStand rfl)).trans (ih table.2 _)

theorem applyTableWrites_writes {l : List PendingWrite} (table : ∀ w ∈ l, w.act.isTable = true) (s : Part) :
    (applyTableWrites l s).writes = [] := by
  induction l generalizing s with
  | nil => rfl
  | cons w l ih =>
    rw [List.forall_mem_cons] at table
    rw [applyTableWrites, if_pos table.1]
    exact ih table.2 _

/-- The one table write of a queue leaves what its table write does, a block of the answers apart. -/
theorem applyTableWrites_one {o : Option (Rig × Nat)} {act : WriteAct} (table : act.isTable = true) (s : Part) :
    Same [.port, .writes] (tableWritten act s) (applyTableWrites [⟨o, act⟩] s) := by
  rw [applyTableWrites, if_pos table, applyWrite_of_table table]
  exact (respondOwner_same _ _ _).step (withWrites_same _ _) rfl

/-! ## The disables (R66, R72) -/

/-- A rig whose health and published set follow its causes as they stand (R68, R69). -/
def Health.settled (h : Health) : Health := h.withCauses h.causes

theorem settleHealth_of_stands {x : Rig} {before : Health} {s : Part} (h : (s.health.get x).causes = before.causes) :
    settleHealth x before s = s := if_pos h

theorem settleHealth_of_dropped {x : Rig} {before : Health} {s : Part} (h : (s.health.get x).causes ≠ before.causes) :
    settleHealth x before s = raiseHealth x before (s.health.get x).settled (s.health.get x).settled
      (s.setHealth x (s.health.get x).settled) := if_neg h

theorem settleHealth_health (x y : Rig) (before : Health) (s : Part) : (settleHealth x before s).health.get y =
    if y = x ∧ (s.health.get x).causes ≠ before.causes then (s.health.get x).settled else s.health.get y := by
  by_cases h : (s.health.get x).causes = before.causes
  · rw [settleHealth_of_stands h, if_neg fun k => k.2 h]
  · rw [settleHealth_of_dropped h, raiseHealth_health, setHealth_health, PerRig.get_set]
    simp only [ne_eq, h, not_false_eq_true, and_true]

/-- R66: what follows the writes leaves the causes as they are. -/
theorem settleWrites_causes (before : PerRig Health) (s : Part) (x : Rig) :
    ((settleWrites before s).health.get x).causes = (s.health.get x).causes := by
  have settled (y : Rig) (b : Health) (u : Part) :
      ((settleHealth y b u).health.get x).causes = (u.health.get x).causes := by
    rw [settleHealth_health]
    split
    next h => rw [h.1]; rfl
    next => rfl
  have after : (settleWrites before s).health = (settleHealth .B (before.get .B)
    (settleHealth .A (before.get .A) s)).health := (selectBetter_same _).get .health rfl
  rw [after, settled, settled]

/-- R66: writes that leave a rig's causes concern the other rig alone. -/
theorem settleWrites_of_one {x : Rig} {before : PerRig Health} {s : Part}
    (h : (s.health.get x.other).causes = (before.get x.other).causes) :
    settleWrites before s = selectBetter (settleHealth x (before.get x) s) := by
  cases x with
  | A =>
    refine congrArg selectBetter (settleHealth_of_stands ?_)
    rw [settleHealth_health, if_neg fun k => Rig.noConfusion k.1]
    exact h
  | B => exact congrArg (fun u => selectBetter (settleHealth .B (before.get .B) u)) (settleHealth_of_stands h)

/-- R70: causes that stay as they are join no sticky set. -/
theorem settled_sticky (h : Health) : h.settled.sticky = h.sticky := by
  refine BitVec.eq_of_getLsbD_eq fun k hk => ?_
  rw [Bool.eq_iff_iff, Health.settled, withCauses_sticky h _ ⟨k, hk⟩]
  exact or_iff_left fun ⟨clear, left⟩ => left clear

/-- R72: a published cause that becomes CLEAR is a change. -/
theorem shiftedFrom_of_cleared {old new : Health} {c : Fin 8}
    (published : (old.causes.get c).state = .confirmed ∨ (old.causes.get c).state = .clearing)
    (clear : (new.causes.get c).state = .clear) : new.shiftedFrom old = true := by
  have gone {st : CauseState} (out : st ≠ .clear) (in_old : (old.causes.get c).state = st) :
      old.inState st ≠ new.inState st := fun e => by
    have still := (inState_getLsbD new st c).mp (e ▸ (inState_getLsbD old st c).mpr in_old)
    exact out (still.symm.trans clear)
  rcases published with confirmed | clearing
  · simp [Health.shiftedFrom, gone CauseState.noConfusion confirmed]
  · simp [Health.shiftedFrom, gone CauseState.noConfusion clearing]

/-- R66, R68, R69, R72: the outcome of the disable of one cause of one rig. `u` is the part after the writes. -/
theorem settleWrites_of_disable {s u : Part} {x : Rig} {c : Fin 8} (clock : u.clock = s.clock)
    (own : u.health.get x = { s.health.get x with causes := (s.health.get x).causes.set c ⟨.clear, 0⟩ })
    (other : u.health.get x.other = s.health.get x.other) :
    ((settleWrites s.health u).health.get x).causes = (s.health.get x).causes.set c ⟨.clear, 0⟩ ∧
    (settleWrites s.health u).health.get x.other = s.health.get x.other ∧
    (((s.health.get x).causes.get c).state = .confirmed ∨ ((s.health.get x).causes.get c).state = .clearing →
      ((settleWrites s.health u).health.get x).published.getLsbD c.val = false ∧
      ∃ n : Notice, n = ⟨s.clock.frame, .rigHealth x (s.health.get x).health
          ((settleWrites s.health u).health.get x).health (((settleWrites s.health u).health.get x).inState .pending)
          (((settleWrites s.health u).health.get x).inState .confirmed)
          (((settleWrites s.health u).health.get x).inState .clearing) (s.health.get x).sticky⟩ ∧
        (∀ r, n ∈ ((settleWrites s.health u).port.get r).lane.notices) ∧
        n ∈ (settleWrites s.health u).program.lane.notices) := by
  have one := settleWrites_of_one (x := x) (before := s.health) (s := u) (by rw [other])
  have health : (settleWrites s.health u).health = (settleHealth x (s.health.get x) u).health := by
    rw [one]
    exact (selectBetter_same _).get .health rfl
  have noSelf : x.other ≠ x := by cases x <;> nofun
  refine ⟨by rw [settleWrites_causes, own], ?_, fun published => ?_⟩
  · rw [health, settleHealth_health, if_neg fun k => noSelf k.1, other]
  have clear : ((u.health.get x).causes.get c).state = .clear := by
    rw [own]
    exact congrArg CauseRec.state (Tbl.get_set_self _ _ _)
  have dropped : (u.health.get x).causes ≠ (s.health.get x).causes := fun e => by
    rw [e] at clear
    rw [clear] at published
    exact published.elim nofun nofun
  have settled : (settleWrites s.health u).health.get x = (u.health.get x).settled := by
    rw [health, settleHealth_health, if_pos ⟨rfl, dropped⟩]
  have sticky : (u.health.get x).settled.sticky = (s.health.get x).sticky := by rw [settled_sticky, own]
  have notice := noticed_of_raised (raised_raiseHealth x (s.health.get x) (u.health.get x).settled (u.health.get x).settled
    (u.setHealth x (u.health.get x).settled)
    (.inl (shiftedFrom_of_cleared (new := (u.health.get x).settled) published clear)))
  have stamped : (raiseHealth x (s.health.get x) (u.health.get x).settled (u.health.get x).settled
      (u.setHealth x (u.health.get x).settled)).clock = s.clock := ((raiseHealth_same _ _ _ _ _).get .clock rfl).trans clock
  rw [stamped, ← settleHealth_of_dropped dropped, sticky] at notice
  rw [settled]
  refine ⟨?_, _, rfl, ?_⟩
  · refine Bool.eq_false_iff.mpr fun set => ?_
    have stays := (unusable_getLsbD (u.health.get x).settled c).mp set
    exact stays.elim (fun e => nomatch clear.symm.trans e) (fun e => nomatch clear.symm.trans e)
  · rw [one]
    exact (selectBetter_noticed notice (by omega)).mem

/-- The queue holds the disable of one cause, alone or before another write of the same cause. -/
def disablesOne (l : List PendingWrite) (x : Rig) (c : Fin 8) (off : WatchEntry) : Prop :=
  ∃ o o' on, l = [⟨o, .watchCause x c off⟩] ∨ l = [⟨o, .watchCause x c off⟩, ⟨o', .watchCause x c on⟩]

theorem exists_disables {l : List PendingWrite} {x : Rig} {c : Fin 8} {off : WatchEntry} (h : disablesOne l x c off)
    (dis : off.enabled = false) (y : Rig) (i : Fin 8) : (∃ w ∈ l, disables w.act y i) ↔ y = x ∧ i = c := by
  have one (e : WatchEntry) : disables (.watchCause x c e) y i ↔ (y = x ∧ i = c) ∧ e.enabled = false := by
    simp only [disables, WriteAct.watchCause.injEq, reduceCtorEq, false_and, or_false]
    constructor
    · rintro ⟨k, ⟨rfl, rfl, rfl⟩, disabled⟩
      exact ⟨⟨rfl, rfl⟩, disabled⟩
    · rintro ⟨⟨rfl, rfl⟩, disabled⟩
      exact ⟨e, ⟨rfl, rfl, rfl⟩, disabled⟩
  obtain ⟨o, o', on, rfl | rfl⟩ := h
  · simp [one, dis]
  · simp only [List.mem_cons, List.not_mem_nil, or_false, exists_eq_or_imp, exists_eq_left, one, dis, and_true]
    exact or_iff_left_of_imp And.left

theorem drop_eq_set {h : Health} {off : Fin 8 → Bool} {c : Fin 8} (named : ∀ i, off i = true ↔ i = c) :
    h.drop off = { h with causes := h.causes.set c ⟨.clear, 0⟩ } := by
  refine congrArg (fun causes => { h with causes }) (Tbl.ext_get fun i => ?_)
  rw [Tbl.get_ofFn, Tbl.get_set]
  exact if_congr (named i) rfl rfl

theorem drop_of_not {h : Health} {off : Fin 8 → Bool} (named : ∀ i, ¬off i = true) : h.drop off = h := by
  have none : off = fun _ => false := funext fun i => Bool.eq_false_iff.mpr (named i)
  rw [none, Health.drop_none]

/-- R66: the rigs after the writes that disable one cause. -/
theorem applyTableWrites_of_disable {s : Part} {x : Rig} {c : Fin 8} {off : WatchEntry}
    (table : ∀ w ∈ s.writes, w.act.isTable = true) (h : disablesOne s.writes x c off) (dis : off.enabled = false) :
    (applyTableWrites s.writes s).health.get x =
      { s.health.get x with causes := (s.health.get x).causes.set c ⟨.clear, 0⟩ } ∧
    (applyTableWrites s.writes s).health.get x.other = s.health.get x.other := by
  have noLoad (w : PendingWrite) (mem : w ∈ s.writes) : w.act ≠ .load := fun e => by
    have := table w mem
    rw [e] at this
    exact absurd this nofun
  have named (y : Rig) := applyWrites_health s.writes s y
  rw [applyWrites_of_tables table] at named
  constructor
  · obtain ⟨drops, health, which⟩ := named x
    rw [health]
    exact drop_eq_set fun i => (which noLoad i).trans ((exists_disables h dis x i).trans (and_iff_right rfl))
  · obtain ⟨drops, health, which⟩ := named x.other
    rw [health]
    refine drop_of_not fun i set => ?_
    have e := ((exists_disables h dis x.other i).mp ((which noLoad i).mp set)).1
    cases x <;> exact absurd e nofun

/-! ## The one write of a SETUP (R83) -/

theorem writeSetup_tracker (new : Setup) (s : Part) : (writeSetup new s).tracker.history =
    if new.tolerance = s.tables.setup.tolerance ∧ new.reference = s.tables.setup.reference then s.tracker.history else [] := by
  unfold writeSetup
  dsimp only
  by_cases same : new.tolerance = s.tables.setup.tolerance ∧ new.reference = s.tables.setup.reference
  · rw [if_pos same, if_neg (show ¬(_ ∨ _) by simp [same])]
    split <;> rfl
  · rw [if_neg same, if_pos (show _ ∨ _ by
      rwa [ne_comm, ne_comm (b := new.reference), Ne, Ne, ← not_and_or])]
    split <;> rfl

theorem writeSetup_pulse (new : Setup) (s : Part) : (writeSetup new s).panel.pulse =
    if new.alarm = s.tables.setup.alarm then s.panel.pulse else 0 := by
  unfold writeSetup
  dsimp only
  by_cases same : new.alarm = s.tables.setup.alarm
  · rw [if_pos same, if_neg (not_not_intro same.symm)]
    split <;> rfl
  · rw [if_neg same, if_pos (Ne.symm same)]

/-! ## The table writes on their own (R73; log 1) -/

/-- What WRITE_TAKES_EFFECT leaves where all the pending writes write tables. -/
def tableWritesAlone (s : Part) : Part := settleWrites s.health (applyTableWrites s.writes s)

section
variable (s : Part)

theorem tableWritesAlone_same :
    Same [.health, .clock, .port, .program] (applyTableWrites s.writes s) (tableWritesAlone s) := settleWrites_same _ _

theorem tableWritesAlone_group {o : Option (Rig × Nat)} {g : Fin 16} {e : GroupEntry}
    (h : s.writes = [⟨o, .group g e⟩]) : (tableWritesAlone s).groups.get g =
      if (groupEntry s g).home = e.home then s.groups.get g
      else { s.groups.get g with failedOver := false, holdTimer := 0 } := by
  have groups : (tableWritesAlone s).groups = (writeGroup g e s).groups := by
    rw [(tableWritesAlone_same s).get .groups rfl, h]
    exact (applyTableWrites_one rfl s).get .groups rfl
  rw [groups, writeGroup_groups, if_pos rfl, rehome]

theorem tableWritesAlone_setup {o : Option (Rig × Nat)} {new : Setup} (h : s.writes = [⟨o, .setup new⟩]) :
    (tableWritesAlone s).tracker = (writeSetup new s).tracker ∧ (tableWritesAlone s).panel = (writeSetup new s).panel := by
  rw [(tableWritesAlone_same s).get .tracker rfl, (tableWritesAlone_same s).get .panel rfl, h]
  exact ⟨(applyTableWrites_one rfl s).get .tracker rfl, (applyTableWrites_one rfl s).get .panel rfl⟩

variable (table : ∀ w ∈ s.writes, w.act.isTable = true)
include table

theorem tableWritesAlone_recordsStand : RecordsStand s (tableWritesAlone s) :=
  (applyTableWrites_recordsStand table s).trans ((tableWritesAlone_same s).recordsStand rfl)

theorem tableWritesAlone_answered {r : Rig} {id : Nat} {h : Held} (found : (s.port.get r).find id = some h)
    (pending : h.phase = .pendingWrite) {w : PendingWrite} (mem : w ∈ s.writes) (owner : w.owner = some (r, id)) :
    okResponse id h ∈ ((tableWritesAlone s).port.get r).responses := by
  have open' : h.phase ≠ .done := by
    rw [pending]
    nofun
  have settled : AnswersStand (applyTableWrites s.writes s) (tableWritesAlone s) := settleWrites_answersStand _ _
  rw [(settled r).2]
  exact applyTableWrites_answered table open' (.inl found) mem owner
end

/-- R73: the table writes of the queue take effect together. -/
theorem exec_writeTakesEffect (s : State) (run : s.inReset = false) :
    exec .writeTakesEffect s = .next (s.withPart (tableWritesAlone s.toPart)) := exec_of_running rfl run

/-! ## The head of the queue on its own (R153, R159; log 1) -/

theorem applyHead_of_kind {kind : WriteAct → Bool} {w : PendingWrite} {rest : List PendingWrite} {s : Part}
    (h : s.writes = w :: rest) (k : kind w.act = true) : applyHead kind s = applyWrite w { s with writes := rest } := by
  unfold applyHead
  rw [h]
  exact if_pos k

theorem exec_of_head {c : Instr} {kind : WriteAct → Bool} {s : State} {w : PendingWrite} {rest : List PendingWrite}
    (e : exec c s = onPart (unlessReset (applyHead kind)) s) (run : s.inReset = false) (h : s.writes = w :: rest)
    (k : kind w.act = true) : exec c s = .next (s.withPart (applyWrite w { s.toPart with writes := rest })) := by
  rw [exec_of_running e run, applyHead_of_kind h k]

theorem respondOwner_responses {s : Part} {r : Rig} {id : Nat} {h : Held} (st : Status)
    (found : (s.port.get r).find id = some h) (pending : h.phase = .pendingWrite) :
    ((respondOwner (some (r, id)) st s).port.get r).responses =
      (s.port.get r).responses ++ [⟨id, h.tag, h.code, st, 0, []⟩] := by
  have open' : h.phase ≠ .done := by
    rw [pending]
    nofun
  rw [respondOwner, respond_port, if_pos rfl, Port.respond_responses _ _ _ _ _ found open']

section
variable {s : State} {r : Rig} {id : Nat} {h : Held} {rest : List PendingWrite} (run : s.inReset = false)
  (found : (s.port.get r).find id = some h) (pending : h.phase = .pendingWrite)
include run found pending

theorem exec_setModeTakesEffect {g : Fin 16} {mode : Mode} (head : s.writes = ⟨some (r, id), .setMode g mode⟩ :: rest) :
    (setModeCheck (groupEntry s.toPart g) (s.groups.get g) mode = none →
      ∃ t, exec .setModeTakesEffect s = .next t ∧ t.writes = rest ∧
        t.tables = { s.tables with groups := s.tables.groups.set g { groupEntry s.toPart g with mode } } ∧
        (t.port.get r).responses = (s.port.get r).responses ++ [⟨id, h.tag, h.code, .ok, 0, []⟩]) ∧
    (∀ st, setModeCheck (groupEntry s.toPart g) (s.groups.get g) mode = some st →
      ∃ t, exec .setModeTakesEffect s = .next t ∧ t.writes = rest ∧ t.tables = s.tables ∧
        (t.port.get r).responses = (s.port.get r).responses ++ [⟨id, h.tag, h.code, st, 0, []⟩]) := by
  have effect : exec .setModeTakesEffect s = .next (s.withPart
      (applyWrite ⟨some (r, id), .setMode g mode⟩ { s.toPart with writes := rest })) :=
    exec_of_head rfl run head rfl
  have writes : (applyWrite ⟨some (r, id), .setMode g mode⟩ { s.toPart with writes := rest }).writes = rest :=
    (applySetMode_same _ _ _ _).get .writes rfl
  constructor
  · intro passes
    have applied : applyWrite ⟨some (r, id), .setMode g mode⟩ { s.toPart with writes := rest } =
        respondOwner (some (r, id)) .ok (writeMode g mode { s.toPart with writes := rest }) := by
      rw [applyWrite]
      dsimp only
      have check : setModeCheck (groupEntry { s.toPart with writes := rest } g) (s.groups.get g) mode = none := passes
      rw [check]
    refine ⟨_, effect, writes, ?_, ?_⟩ <;> rw [State.toPart_withPart, applied]
    · exact (respondOwner_same _ _ _).get .tables rfl
    · exact respondOwner_responses (s := writeMode g mode { s.toPart with writes := rest }) .ok found pending
  · intro st fails
    have applied : applyWrite ⟨some (r, id), .setMode g mode⟩ { s.toPart with writes := rest } =
        respondOwner (some (r, id)) st { s.toPart with writes := rest } := by
      rw [applyWrite]
      dsimp only
      have check : setModeCheck (groupEntry { s.toPart with writes := rest } g) (s.groups.get g) mode = some st := fails
      rw [check]
    refine ⟨_, effect, writes, ?_, ?_⟩ <;> rw [State.toPart_withPart, applied]
    · exact (respondOwner_same _ _ _).get .tables rfl
    · exact respondOwner_responses (s := { s.toPart with writes := rest }) st found pending

/-- R159, R168: the mark is set, and the relay follows. -/
theorem exec_bypassTakesEffect {engage : Bool} (head : s.writes = ⟨some (r, id), .bypass engage⟩ :: rest) :
    ∃ t, exec .bypassTakesEffect s = .next t ∧ t.writes = rest ∧ t.panel = { s.panel with bypass := engage } ∧
      (t.port.get r).responses = (s.port.get r).responses ++ [⟨id, h.tag, h.code, .ok, 0, []⟩] ∧
      (s.takeover.done = true → s.panel.bypass ≠ engage → raised t.toPart (.relay (!engage) true)) ∧
      (s.takeover.done = false ∨ s.panel.bypass = engage → noNotice s.toPart t.toPart) := by
  have effect : exec .bypassTakesEffect s = .next (s.withPart
      (applyWrite ⟨some (r, id), .bypass engage⟩ { s.toPart with writes := rest })) :=
    exec_of_head rfl run head rfl
  have changed : setBypass engage { s.toPart with writes := rest } = relayChange true (relay s.toPart)
    { s.toPart with writes := rest, panel := { s.panel with bypass := engage } } := rfl
  have answers : AnswersStand s.toPart (setBypass engage { s.toPart with writes := rest }) :=
    relayChange_answersStand true (relay s.toPart)
      { s.toPart with writes := rest, panel := { s.panel with bypass := engage } }
  have lanes : LanesStand (setBypass engage { s.toPart with writes := rest })
      (applyWrite ⟨some (r, id), .bypass engage⟩ { s.toPart with writes := rest }) := respond_lanesStand _ _ _ _ _ _
  have relays : (relay { s.toPart with writes := rest, panel := { s.panel with bypass := engage } } ≠ relay s.toPart) ↔
      s.takeover.done = true ∧ s.panel.bypass ≠ engage := by
    simp only [relay]
    cases s.takeover.done <;> cases s.panel.bypass <;> cases engage <;> decide
  refine ⟨_, effect, (applyBypass_same _ _ _).get .writes rfl, ?_, ?_, fun done differs => ?_, fun stands => ?_⟩
    <;> rw [State.toPart_withPart]
  · exact ((respondOwner_same _ _ _).get .panel rfl).trans ((relayChange_same _ _ _).get .panel rfl)
  · rw [← (answers r).2]
    exact respondOwner_responses (s := setBypass engage { s.toPart with writes := rest }) .ok
      ((answers.find r id).trans found) pending
  · refine lanes.raised ((respondOwner_same _ _ _).get .clock rfl) ?_
    rw [changed, relayChange, if_pos (relays.mpr ⟨done, differs⟩)]
    have follows : relay { s.toPart with writes := rest, panel := { s.panel with bypass := engage } } = !engage := by
      simp [relay, done]
    rw [follows]
    exact raised_raise _ _
  · have still : LanesStand s.toPart (setBypass engage { s.toPart with writes := rest }) := by
      rw [changed, relayChange, if_neg]
      · exact .refl s.toPart
      · rw [relays]
        rintro ⟨done, differs⟩
        rcases stands with early | same
        · exact nomatch done.symm.trans early
        · exact differs same
    exact (still.trans lanes).noNotice
end

/-- Settles O51: the table writes by what each leaves, then what follows them in their boundary; SET_MODE and BYPASS by the
head of the queue. -/
theorem writesTakeEffect : Obligations.WritesTakeEffect := by
  refine ⟨fun s run table => ?_, fun s r id h rest run found pending => ⟨?_, ?_⟩⟩
  · refine ⟨_, exec_writeTakesEffect s run, ?_⟩
    rw [State.toPart_withPart]
    refine ⟨?_, ?_, tableWritesAlone_recordsStand s.toPart table, ?_, ?_, ?_, ?_⟩
    · exact ((tableWritesAlone_same s.toPart).get .writes rfl).trans (applyTableWrites_writes table s.toPart)
    · exact ((tableWritesAlone_same s.toPart).get .tables rfl).trans (applyTableWrites_tables table s.toPart)
    · exact fun w mem r id h owner found pending => tableWritesAlone_answered s.toPart table found pending mem owner
    · exact fun o g e one => tableWritesAlone_group s.toPart one
    · intro o new one
      obtain ⟨tracker, panel⟩ := tableWritesAlone_setup s.toPart one
      rw [tracker, panel, writeSetup_tracker, writeSetup_pulse]
      exact ⟨rfl, rfl⟩
    · intro o o' x c off on shape dis
      obtain ⟨own, other⟩ := applyTableWrites_of_disable table ⟨o, o', on, shape⟩ dis
      exact settleWrites_of_disable ((applyTableWrites_same _ _).get .clock rfl) own other
  · exact fun g mode head => exec_setModeTakesEffect run found pending head
  · exact fun engage head => exec_bypassTakesEffect run found pending head

end Sys2Proof.Machine
end

section
/-! The end of a save, and the load that a reset has deferred (R66, R158, R164, R165, R166). -/

namespace Sys2Proof.Machine

/-! ## The end of a save (R158, R164) -/

/-- The SAVE command of a port, where one is in progress. -/
def savingOn (s : Part) (r : Rig) (h : Held) : Prop :=
  (s.port.get r).slots.find? isSaving = some h ∧ (s.port.get r).find h.id = some h

theorem AnswersStand.savingOn {s t : Part} (e : AnswersStand s t) {r : Rig} {h : Held} (saving : savingOn s r h) :
    savingOn t r h := by
  obtain ⟨first, found⟩ := saving
  refine ⟨?_, (e.find r h.id).trans found⟩
  rw [(e r).1, first]

theorem respondSave_port_other {r x : Rig} (apart : x ≠ r) (st : Status) (s : Part) :
    (respondSave r st s).port.get x = s.port.get x := by
  unfold respondSave
  split
  · rw [respond_port, if_neg apart]
  · rfl

/-- R158: the SAVE command completes with the store-valid flag. -/
theorem respondSave_responses {s : Part} {r : Rig} {h : Held} (saving : savingOn s r h) (st : Status) :
    ((respondSave r st s).port.get r).responses =
      (s.port.get r).responses ++ [⟨h.id, h.tag, h.code, st, 0, be8 (bit s.store.storeValid)⟩] := by
  obtain ⟨first, found⟩ := saving
  have open' : h.phase ≠ .done := fun done => by
    have isSave : isSaving h = true := List.find?_some first
    rw [isSaving, done] at isSave
    exact absurd isSave nofun
  rw [respondSave, first]
  dsimp only
  rw [respond_port, if_pos rfl, Port.respond_responses _ _ _ _ _ found open']

theorem respondSave_lanesStand (r : Rig) (st : Status) (s : Part) : LanesStand s (respondSave r st s) := by
  unfold respondSave
  split
  · exact respond_lanesStand _ _ _ _ _ _
  · exact .refl s

/-- The status of a SAVE. -/
def saveStatus (verified : Bool) : Status := if verified then .ok else .storeFailed

/-- The part after the notice of a save's end. -/
def saveRaised (verified : Bool) (s : Part) : Part :=
  raise (.store (if verified then 0 else 1) verified) { s with store := s.store.complete verified }

/-- The part after a save has ended, before the load that a reset has deferred is queued. -/
def saveAnswered (verified : Bool) (s : Part) : Part :=
  respondSave .B (saveStatus verified) (respondSave .A (saveStatus verified) (saveRaised verified s))

section
variable (verified : Bool) (s : Part)

theorem saveDone_eq : saveDone verified s =
    if s.store.reload then { saveAnswered verified s with writes := (saveAnswered verified s).writes ++ [⟨none, .load⟩] }
    else saveAnswered verified s := rfl

theorem saveDone_same_answered : Same [.writes] (saveAnswered verified s) (saveDone verified s) := by
  rw [saveDone_eq]
  exact Same.when (withWrites_same _ _)

theorem saveAnswered_same : Same [.store, .port, .program] s (saveAnswered verified s) :=
  (((withStore_same _ _).step (raise_same _ _) (K := [.store, .port, .program]) rfl).step
    (respondSave_same _ _ _) (K := [.store, .port, .program]) rfl).step (respondSave_same _ _ _) rfl

theorem saveAnswered_store : (saveAnswered verified s).store = s.store.complete verified :=
  ((respondSave_same _ _ _).get .store rfl).trans (((respondSave_same _ _ _).get .store rfl).trans
    ((raise_same _ _).get .store rfl))

theorem saveAnswered_raised : raised (saveAnswered verified s) (.store (if verified then 0 else 1) verified) := by
  have lanes : LanesStand (saveRaised verified s) (saveAnswered verified s) :=
    (respondSave_lanesStand _ _ _).trans (respondSave_lanesStand _ _ _)
  exact lanes.raised (((respondSave_same _ _ _).get .clock rfl).trans ((respondSave_same _ _ _).get .clock rfl))
    (raised_raise _ _)

theorem saveAnswered_responses {r : Rig} {h : Held} (saving : savingOn s r h) :
    ((saveAnswered verified s).port.get r).responses = (s.port.get r).responses ++
      [⟨h.id, h.tag, h.code, saveStatus verified, 0, [if verified then 1#8 else 0#8]⟩] := by
  have begun : AnswersStand s (saveRaised verified s) :=
    ((withStore_same _ _).answersStand rfl).trans (raise_answersStand _ _)
  have result : be8 (bit (saveRaised verified s).store.storeValid) = [if verified then 1#8 else 0#8] := by
    cases verified <;> rfl
  rw [← (begun r).2, ← result]
  cases r with
  | A =>
    rw [saveAnswered, respondSave_port_other (x := .A) (r := .B) nofun]
    exact respondSave_responses (begun.savingOn saving) _
  | B =>
    have untouched : (respondSave .A (saveStatus verified) (saveRaised verified s)).port.get .B =
        (saveRaised verified s).port.get .B := respondSave_port_other Rig.noConfusion _ _
    have later : savingOn (respondSave .A (saveStatus verified) (saveRaised verified s)) .B h := by
      unfold savingOn
      rw [untouched]
      exact begun.savingOn saving
    have store : (respondSave .A (saveStatus verified) (saveRaised verified s)).store = (saveRaised verified s).store :=
      (respondSave_same _ _ _).get .store rfl
    refine (respondSave_responses later _).trans ?_
    rw [untouched, store]
end

theorem exec_saveComplete (verified : Bool) {s : State} (saving : s.store.save = .saving) :
    exec (.saveComplete verified) s = .next (s.withPart (saveDone verified s.toPart)) :=
  congrArg (fun p => Host.Outcome.next (s.withPart p)) (if_pos saving)

/-! ## The deferred load (R66, R165, R166) -/

section
variable (s : Part)

/-- The tables that the load puts in force. -/
def loadedTables : Tables := if s.store.valid then softened s s.store.image else factoryTables

/-- The store as the load leaves it. -/
def loadedStore : Part := { s with store := { s.store with reload := false, storeValid := s.store.valid } }

theorem deferredLoad_of_valid (valid : s.store.valid = true) :
    deferredLoad s = writeTables (softened s s.store.image) (loadedStore s) := if_pos valid

theorem deferredLoad_of_invalid (invalid : s.store.valid = false) :
    deferredLoad s = raise (.store 2 false) (writeTables factoryTables (loadedStore s)) :=
  if_neg (by rw [invalid]; exact Bool.false_ne_true)

/-- But for the notice the load writes a whole set of tables. -/
theorem deferredLoad_same_written :
    Same [.port, .program] (writeTables (loadedTables s) (loadedStore s)) (deferredLoad s) := by
  unfold loadedTables
  cases valid : s.store.valid with
  | true =>
    rw [deferredLoad_of_valid s valid]
    exact .refl _ _
  | false =>
    rw [deferredLoad_of_invalid s valid]
    exact raise_same _ _

theorem deferredLoad_tables : (deferredLoad s).tables = loadedTables s :=
  ((deferredLoad_same_written s).get .tables rfl).trans (writeTables_tables _ _)

theorem deferredLoad_store : (deferredLoad s).store = { s.store with reload := false, storeValid := s.store.valid } :=
  ((deferredLoad_same_written s).get .store rfl).trans ((writeTables_same _ _).get .store rfl)

/-- R66: a cause that the loaded Watch Table disables is CLEAR. -/
theorem deferredLoad_disabled {x : Rig} {c : Fin 8}
    (off : (((deferredLoad s).tables.watch.get x).causes.get c).enabled = false) :
    ((deferredLoad s).health.get x).causes.get c = ⟨.clear, 0⟩ := by
  have health : (deferredLoad s).health = (writeTables (loadedTables s) (loadedStore s)).health :=
    (deferredLoad_same_written s).get .health rfl
  rw [deferredLoad_tables] at off
  rw [health, writeTables_health, Health.drop_causes, if_pos (by rw [off]; rfl)]
end

theorem anyFading_of_fading {s : Part} {g : Fin 16} (h : (s.groups.get g).course.isFading = true) : anyFading s = true :=
  List.any_eq_true.mpr ⟨g, List.mem_finRange g, h⟩

theorem anyFading_of_none {s : Part} (h : ∀ g, (s.groups.get g).course.isFading = false) : anyFading s = false :=
  List.any_eq_false.mpr fun g _ => by
    rw [h g]
    exact Bool.false_ne_true

/-- What DEFERRED_LOAD leaves where the load may take effect. -/
def loadAlone (rest : List PendingWrite) (s : Part) : Part := settleWrites s.health (deferredLoad { s with writes := rest })

section
variable {o : Option (Rig × Nat)} {rest : List PendingWrite} {s : State} (run : s.inReset = false)
  (head : s.writes = ⟨o, .load⟩ :: rest)
include run head

/-- R166: the load waits while a group is fading. -/
theorem exec_deferredLoad_fading {g : Fin 16} (fading : (s.groups.get g).course.isFading = true) :
    exec .deferredLoad s = .next s := by
  refine (exec_of_running rfl run).trans ?_
  rw [head]
  dsimp only
  rw [if_neg]
  · rfl
  · rw [anyFading_of_fading fading]
    exact fun k => Bool.noConfusion k.2

theorem exec_deferredLoad (steady : ∀ g, (s.groups.get g).course.isFading = false) :
    exec .deferredLoad s = .next (s.withPart (loadAlone rest s.toPart)) := by
  refine (exec_of_running rfl run).trans ?_
  rw [head]
  dsimp only
  rw [if_pos ⟨rfl, anyFading_of_none steady⟩, applyHead_of_kind head rfl]
  rfl
end

section
variable (rest : List PendingWrite) (s : Part)

theorem loadAlone_same : Same [.health, .clock, .port, .program] (deferredLoad { s with writes := rest })
    (loadAlone rest s) := settleWrites_same _ _

theorem loadAlone_tables : (loadAlone rest s).tables = loadedTables s :=
  ((loadAlone_same rest s).get .tables rfl).trans (deferredLoad_tables _)

/-- R165: the DEFAULTS_LOADED notice, and at most three newer ones behind it. -/
theorem loadAlone_noticed (invalid : s.store.valid = false) :
    Noticed ⟨s.clock.frame, .store 2 false⟩ 3 (loadAlone rest s) := by
  have raisedLast : raised (deferredLoad { s with writes := rest }) (.store 2 false) := by
    rw [deferredLoad_of_invalid { s with writes := rest } invalid]
    exact raised_raise _ _
  have clock : (deferredLoad { s with writes := rest }).clock = s.clock := (deferredLoad_same _).get .clock rfl
  have notice := noticed_of_raised raisedLast
  rw [clock] at notice
  exact settleWrites_noticed notice s.health

/-- R166: an entry of the loaded image. -/
theorem loadAlone_groupEntry (valid : s.store.valid = true) (g : Fin 16) : groupEntry (loadAlone rest s) g =
    softenFixed (s.groups.get g) (s.store.image.groups.get g) := by
  rw [groupEntry, loadAlone_tables, loadedTables, if_pos valid]
  exact Tbl.get_ofFn _ _
end

/-- Settles O52: the save by its notice and its answer; the load by the whole set of tables that it writes. -/
theorem savesAndDeferredLoad : Obligations.SavesAndDeferredLoad := by
  refine ⟨fun verified s saving => ?_, fun o rest s run head => ⟨?_, fun steady => ?_⟩⟩
  · have same := saveDone_same_answered verified s.toPart
    refine ⟨_, exec_saveComplete verified saving, ?_, ?_, ?_, ?_, fun r h first found => ?_⟩ <;> rw [State.toPart_withPart]
    · exact (same.get .store rfl).trans (saveAnswered_store verified s.toPart)
    · exact (same.get .tables rfl).trans ((saveAnswered_same verified s.toPart).get .tables rfl)
    · exact (same.lanesStand rfl rfl).raised (same.get .clock rfl) (saveAnswered_raised verified s.toPart)
    · have writes : (saveAnswered verified s.toPart).writes = s.writes :=
        (saveAnswered_same verified s.toPart).get .writes rfl
      rw [saveDone_eq, ← writes]
      split <;> rfl
    · rw [(same.answersStand rfl r).2]
      exact saveAnswered_responses verified s.toPart ⟨first, found⟩
  · rintro ⟨g, fading⟩
    exact exec_deferredLoad_fading run head fading
  · have store : (loadAlone rest s.toPart).store = { s.store with reload := false, storeValid := s.store.valid } :=
      ((loadAlone_same rest s.toPart).get .store rfl).trans (deferredLoad_store _)
    refine ⟨_, exec_deferredLoad run head steady, ?_, ?_, ?_, fun x c off => ?_, fun invalid => ⟨?_, ?_⟩, fun valid => ?_⟩
      <;> rw [State.toPart_withPart]
    · exact ((loadAlone_same rest s.toPart).get .writes rfl).trans ((deferredLoad_same _).get .writes rfl)
    · rw [store]
    · rw [store]
    · rw [loadAlone, settleWrites_causes]
      rw [State.toPart_withPart, (loadAlone_same rest s.toPart).get .tables rfl] at off
      exact deferredLoad_disabled _ off
    · rw [loadAlone_tables, loadedTables, invalid]
      rfl
    · exact (loadAlone_noticed rest s.toPart invalid).mem
    · have tables : (loadAlone rest s.toPart).tables = softened s.toPart s.store.image := by
        rw [loadAlone_tables, loadedTables, if_pos valid]
      rw [tables]
      exact ⟨rfl, rfl, rfl, loadAlone_groupEntry rest s.toPart valid⟩

end Sys2Proof.Machine
end

section
/-! The turns of a boundary by what they leave of one group that nothing asks and that nothing moves (R88, R89, R118): its
record but for the binding, the presses and its pending MOVE, and that no port holds a command. -/

namespace Sys2Proof.Machine

/-- A group's record but for its binding, which a command that ends takes from it (R102, R103). -/
def GroupRec.unbound (r : GroupRec) : GroupRec := { r with binding := none }

/-- What the Gang Port asks of a group: the part's role, the waiting presses, and the pending MOVE (R118, R120). -/
def Gang.asks (k : Gang) (g : Fin 16) : Role × List Press × Option MoveMsg := (k.role, k.presses, k.pending.get g)

/-- From `s` to `t` a group's record stands but for its binding, nothing has come to ask it, and a port without commands
stays without. -/
structure Undisturbed (g : Fin 16) (s t : Part) : Prop where
  record : (t.groups.get g).unbound = (s.groups.get g).unbound
  asks : t.gang.asks g = s.gang.asks g
  slots : ∀ r, (s.port.get r).slots = [] → (t.port.get r).slots = []

section
variable {g : Fin 16}

theorem Undisturbed.refl (s : Part) : Undisturbed g s s := ⟨rfl, rfl, fun _ => id⟩

theorem Undisturbed.trans {s t u : Part} (h : Undisturbed g s t) (k : Undisturbed g t u) : Undisturbed g s u :=
  ⟨k.record.trans h.record, k.asks.trans h.asks, fun r => k.slots r ∘ h.slots r⟩

theorem Undisturbed.foldl {α : Type} {f : Part → α → Part} {l : List α} (h : ∀ a ∈ l, ∀ s, Undisturbed g s (f s a))
    (s : Part) : Undisturbed g s (l.foldl f s) := by
  induction l generalizing s with
  | nil => exact .refl s
  | cons a l ih =>
    rw [List.forall_mem_cons] at h
    exact (h.1 s).trans (ih h.2 _)

theorem Undisturbed.ite {s a b : Part} {p : Prop} [Decidable p] (ha : Undisturbed g s a) (hb : Undisturbed g s b) :
    Undisturbed g s (if p then a else b) := by
  split
  · exact ha
  · exact hb

theorem Undisturbed.when {s a : Part} {p : Prop} [Decidable p] (ha : Undisturbed g s a) :
    Undisturbed g s (if p then a else s) := .ite ha (.refl s)

theorem Undisturbed.role {s t : Part} (h : Undisturbed g s t) : t.gang.role = s.gang.role := congrArg Prod.fst h.asks

theorem Undisturbed.presses {s t : Part} (h : Undisturbed g s t) : t.gang.presses = s.gang.presses :=
  congrArg (fun k => k.2.1) h.asks

theorem Undisturbed.pending {s t : Part} (h : Undisturbed g s t) : t.gang.pending.get g = s.gang.pending.get g :=
  congrArg (fun k => k.2.2) h.asks

theorem Same.undisturbed {F : List Block} {s t : Part} (h : Same F s t)
    (hF : [Block.groups, .gang, .port].all (fun b => !F.contains b) = true) : Undisturbed g s t := by
  simp only [List.all_cons, List.all_nil, Bool.and_eq_true, Bool.not_eq_true', Bool.and_true] at hF
  obtain ⟨hgroups, hgang, hport⟩ := hF
  have groups : t.groups = s.groups := h.get .groups hgroups
  have gang : t.gang = s.gang := h.get .gang hgang
  have port : t.port = s.port := h.get .port hport
  exact ⟨by rw [groups], by rw [gang], fun r => by rw [port]; exact id⟩

/-! ## Ports, notices, gang and groups -/

theorem setPort_undisturbed {r : Rig} {p : Port} {s : Part} (h : (s.port.get r).slots = [] → p.slots = []) :
    Undisturbed g s (s.setPort r p) := by
  refine ⟨rfl, rfl, fun x => ?_⟩
  rw [setPort_port, PerRig.get_set]
  split
  next own => rw [own]; exact h
  next => exact id

theorem withGang_undisturbed {k : Gang} {s : Part} (h : k.asks g = s.gang.asks g) :
    Undisturbed g s { s with gang := k } := ⟨rfl, h, fun _ => id⟩

theorem setGroup_undisturbed {k : Fin 16} {r : GroupRec} {s : Part} (h : k = g → r.unbound = (s.groups.get g).unbound) :
    Undisturbed g s (s.setGroup k r) := by
  refine ⟨?_, rfl, fun _ => id⟩
  have found : (s.setGroup k r).groups.get g = if g = k then r else s.groups.get g := Tbl.get_set _ _ _ _
  rw [found]
  split
  next own => exact h own.symm
  next => rfl

theorem raise_undisturbed (n : NoticeBody) (s : Part) : Undisturbed g s (raise n s) :=
  ⟨rfl, rfl, fun r none => ((raise_answersStand n s r).1).trans none⟩

theorem setPhase_undisturbed (r : Rig) (id : Nat) (ph : Phase) (s : Part) : Undisturbed g s (setPhase r id ph s) :=
  setPort_undisturbed fun none => by simp [Port.setPhase, none]

theorem respond_undisturbed (r : Rig) (id : Nat) (st : Status) (i : Nat) (results : List Byte) (s : Part) :
    Undisturbed g s (respond r id st i results s) := by
  refine setPort_undisturbed fun none => ?_
  have free : (s.port.get r).find id = .none := by simp [Port.find, none]
  rwa [Port.respond, free]

theorem queueMove_undisturbed (m : MoveMsg) (s : Part) : Undisturbed g s (queueMove m s) := withGang_undisturbed rfl

theorem unbind_undisturbed (o : Owner) (s : Part) : Undisturbed g s (unbind o s) := by
  refine ⟨?_, rfl, fun _ => id⟩
  have found : (unbind o s).groups.get g =
      if (s.groups.get g).binding = some o then { s.groups.get g with binding := none } else s.groups.get g :=
    Tbl.get_map _ _ _
  rw [found]
  split <;> rfl

/-! ## Owners (R102, R103) -/

theorem setStage_undisturbed (o : Owner) (st : Stage) (s : Part) : Undisturbed g s (setStage o st s) := by
  cases o with
  | command r id ganged =>
    unfold setStage
    dsimp only
    split
    · split
      · exact setPhase_undisturbed _ _ _ _
      · exact .refl s
    · exact .refl s
  | proposal ref =>
    unfold setStage
    dsimp only
    split
    · exact withGang_undisturbed rfl
    all_goals exact .refl s

theorem endOwner_undisturbed (o : Owner) (st : Status) (results : List Byte) (s : Part) :
    Undisturbed g s (endOwner o st results s) := by
  have ended (r : Rig) (id : Nat) (m : MoveCmd) : Undisturbed g s (unbind o (setPhase r id (.move m) s)) :=
    (setPhase_undisturbed _ _ _ _).trans (unbind_undisturbed _ _)
  cases o with
  | command r id ganged =>
    unfold endOwner
    dsimp only
    split
    · exact .refl s
    · split
      · exact .refl s
      · exact .ite (.refl s) (.ite ((ended _ _ _).trans (respond_undisturbed _ _ _ _ _ _)) (ended _ _ _))
  | proposal ref =>
    unfold endOwner
    dsimp only
    split
    · exact (withGang_undisturbed (by rfl)).trans (unbind_undisturbed _ _)
    all_goals exact .refl s

theorem supersede_undisturbed (o : Owner) (k : Fin 16) (s : Part) : Undisturbed g s (supersede o k s) := by
  unfold supersede
  split
  · exact endOwner_undisturbed _ _ _ _
  · exact .refl s

theorem settleArrivals_undisturbed (s : Part) : Undisturbed g s (settleArrivals s) := by
  refine .foldl (fun o _ u => ?_) s
  unfold settleArrival
  refine .when ?_
  split
  · exact endOwner_undisturbed _ _ _ _
  · exact .refl u

theorem supersedeIfElsewhere_undisturbed (k : Fin 16) (s : Part) : Undisturbed g s (supersedeIfElsewhere k s) := by
  unfold supersedeIfElsewhere
  split
  · exact .refl s
  · split
    · exact .when (supersede_undisturbed _ _ _)
    · exact .refl s

/-- R89: the requests of one group are refused. -/
theorem refuseRequests_undisturbed {k : Fin 16} (other : k ≠ g) (st : Status) (s : Part) :
    Undisturbed g s (refuseRequests st k s) :=
  (setGroup_undisturbed fun own => absurd own other).trans (.foldl (fun _ _ => endOwner_undisturbed _ _ _) _)

theorem settleBinding_undisturbed (k : Fin 16) (q : List Request) (s : Part) : Undisturbed g s (settleBinding k q s) :=
  (Undisturbed.foldl (fun o _ u => supersede_undisturbed o k u) s).trans (supersedeIfElsewhere_undisturbed _ _)

/-- R102: a binding is not part of what stands of a record. -/
theorem bindGroup_undisturbed (o : Owner) (k : Fin 16) (s : Part) : Undisturbed g s (bindGroup o k s) := by
  unfold bindGroup
  dsimp only
  refine Undisturbed.trans ?_ (setGroup_undisturbed fun own => by rw [own]; rfl)
  split
  · exact .ite (.refl s) (supersede_undisturbed _ _ _)
  · exact .refl s

/-! ## The requests of a boundary (R89, R104, R120, R150) -/

/-- R120: on a SOLO unit no group is matched, so a proposal that names a group fails. -/
theorem isLeading_of_solo {s : Part} (solo : s.gang.role = .solo) (k : Fin 16) : isLeading s k = false := by
  simp [isLeading, matchedAs, solo]

theorem isLed_of_solo {s : Part} (solo : s.gang.role = .solo) (k : Fin 16) : isLed s k = false := by
  simp [isLed, matchedAs, solo]

theorem inMask_of_checkMatched {s : Part} (solo : s.gang.role = .solo) {ref : Fin 8} {mask : Half}
    (passes : checkMatched s (.proposal ref) mask = none) (k : Fin 16) : inMask mask k = false := by
  rw [checkMatched, Option.map_eq_none_iff, firstFailing, List.find?_eq_none] at passes
  have fails := passes k (List.mem_finRange k)
  simpa [isLeading_of_solo solo] using fails

theorem orCheck_eq_none {a b : Option (Status × Fin 16)} (h : orCheck a b = none) : a = none ∧ b = none := by
  cases a with
  | none => exact ⟨rfl, h⟩
  | some x => cases h

/-- R150, R151: what executes has passed the check of the matched set. -/
theorem checkMatched_of_execute {s : Part} {o : Owner} {req : MoveReq} {p : MovePart} (h : evalRun s o req p = .execute) :
    checkMatched s o p.mask = none := by
  unfold evalRun at h
  dsimp only at h
  split at h
  · split at h
    · cases h
    next passes => exact (orCheck_eq_none (orCheck_eq_none passes).1).1
  · split at h
    · cases h
    next passes => exact (orCheck_eq_none (orCheck_eq_none passes).1).1
  all_goals cases h

theorem executeRun_undisturbed (o : Owner) (req : MoveReq) {mask : Half} (s : Part) (none : ∀ k, inMask mask k = false) :
    Undisturbed g s (executeRun o req mask s) := by
  have noRequest : (allGroups.filter fun k => inMask mask k) = [] :=
    List.filter_eq_nil_iff.mpr fun k _ => by rw [none k]; exact Bool.false_ne_true
  have bound : Undisturbed g s ((allGroups.filter fun k => inMask (toBind s mask req.target) k).foldl
      (fun t k => bindGroup o k t) (setStage o (.executed (toBind s mask req.target) s.clock.frame) s)) :=
    (setStage_undisturbed _ _ _).trans (.foldl (fun k _ u => bindGroup_undisturbed o k u) _)
  unfold executeRun
  dsimp only
  rw [noRequest]
  exact .ite (bound.trans (endOwner_undisturbed _ _ _ _)) bound

/-- R120: on a SOLO unit a held proposal asks no group. -/
theorem runOwner_undisturbed {s : Part} (solo : s.gang.role = .solo) (ref : Fin 8) :
    Undisturbed g s (runOwner (.proposal ref) s) := by
  unfold runOwner
  split
  · exact .refl s
  next req p _ =>
    cases run : evalRun s (.proposal ref) req p with
    | fail st k => exact endOwner_undisturbed _ _ _ _
    | execute => exact executeRun_undisturbed _ _ _ (inMask_of_checkMatched solo (checkMatched_of_execute run))
    | timeout => exact endOwner_undisturbed _ _ _ _
    | wait n => exact setStage_undisturbed _ _ _
    | idle => exact .refl s

theorem runOwners_undisturbed {l : List Owner} (proposals : ∀ o ∈ l, ∃ ref, o = .proposal ref) {s : Part}
    (solo : s.gang.role = .solo) : Undisturbed g s (l.foldl (fun t o => runOwner o t) s) := by
  induction l generalizing s with
  | nil => exact .refl s
  | cons o l ih =>
    rw [List.forall_mem_cons] at proposals
    obtain ⟨⟨ref, rfl⟩, later⟩ := proposals
    have first : Undisturbed g s (runOwner (.proposal ref) s) := runOwner_undisturbed solo ref
    exact first.trans (ih later (first.role.trans solo))

/-- R89: where no port holds a command, the runs of a boundary are those of the proposals. -/
theorem runMoves_undisturbed (ord : Order) {s : Part} (solo : s.gang.role = .solo) (bare : ∀ r, (s.port.get r).slots = []) :
    Undisturbed g s (runMoves ord s) := by
  refine runOwners_undisturbed (fun o mem => ?_) solo
  have noCommand (r : Rig) : portOwners s r = [] := by rw [portOwners, bare, List.flatMap_nil]
  simp only [allOwners, noCommand, List.append_nil, List.nil_append, ite_self, List.mem_map] at mem
  obtain ⟨ref, -, rfl⟩ := mem
  exact ⟨ref, rfl⟩

/-- R171: a released button presses nothing. -/
theorem buttonTurn_undisturbed (x : Rig) (s : Part) : Undisturbed g s (buttonTurn x false s) := by
  have released : (s.panel.buttons.get x).pressed false = false := rfl
  unfold buttonTurn
  dsimp only
  rw [if_neg (by rw [released]; exact Bool.false_ne_true)]
  exact (withPanel_same _ s).undisturbed rfl

theorem applyPresses_undisturbed {s : Part} (none : s.gang.presses = []) : Undisturbed g s (applyPresses s) := by
  unfold applyPresses
  rw [none]
  exact withGang_undisturbed (by rw [Gang.asks, Gang.asks, none])

/-- R104: with the buttons released and no press waiting no request is handed. -/
theorem pressTurn_undisturbed {l : Lines} (releasedA : l.btnA = false) (releasedB : l.btnB = false) (ord : Order) {s : Part}
    (none : s.gang.presses = []) : Undisturbed g s (pressTurn l ord s) := by
  have buttons (u : Part) : Undisturbed g u (buttonsTurn l ord.bFirst u) := by
    unfold buttonsTurn
    rw [releasedA, releasedB]
    exact .ite ((buttonTurn_undisturbed _ _).trans (buttonTurn_undisturbed _ _))
      ((buttonTurn_undisturbed _ _).trans (buttonTurn_undisturbed _ _))
  have sampled := buttons s
  exact .ite (sampled.trans (applyPresses_undisturbed (sampled.presses.trans none)))
    ((applyPresses_undisturbed none).trans (buttons _))

/-- R89: no request reaches the group. -/
theorem requestTurn_undisturbed {l : Lines} (releasedA : l.btnA = false) (releasedB : l.btnB = false) (ord : Order)
    {s : Part} (solo : s.gang.role = .solo) (none : s.gang.presses = []) (bare : ∀ r, (s.port.get r).slots = []) :
    Undisturbed g s (requestTurn l ord s) := by
  have pressed : Undisturbed g s (pressTurn l ord s) := pressTurn_undisturbed releasedA releasedB ord none
  have run : Undisturbed g s (runMoves ord s) := runMoves_undisturbed ord solo bare
  exact .ite (pressed.trans (runMoves_undisturbed ord (pressed.role.trans solo) fun r => pressed.slots r (bare r)))
    (run.trans (pressTurn_undisturbed releasedA releasedB ord (run.presses.trans none)))

/-! ## The MOVEs that start (R118) -/

theorem startMove_undisturbed {m : MoveMsg} (other : m.group ≠ g) (s : Part) : Undisturbed g s (startMove m s) := by
  have taken : Undisturbed g s { s with gang := { s.gang with pending := s.gang.pending.set m.group none } } :=
    withGang_undisturbed (by
      have stands : (s.gang.pending.set m.group none).get g = s.gang.pending.get g := by rw [Tbl.get_set, if_neg other.symm]
      simp only [Gang.asks, stands])
  have moved (r : GroupRec) : Undisturbed g s
      (Part.setGroup { s with gang := { s.gang with pending := s.gang.pending.set m.group none } } m.group r) :=
    taken.trans (setGroup_undisturbed fun own => absurd own other)
  unfold startMove
  dsimp only
  split
  · exact ((moved _).trans (raise_undisturbed _ _)).trans (supersedeIfElsewhere_undisturbed _ _)
  · exact (Undisturbed.ite (moved _) ((moved _).trans (raise_undisturbed _ _))).trans (supersedeIfElsewhere_undisturbed _ _)

/-- R118: the MOVE of another group starts. -/
theorem startPendingMove_undisturbed (k : Fin 16) {s : Part} (none : s.gang.pending.get g = .none) :
    Undisturbed g s (startPendingMove k s) := by
  by_cases own : k = g
  · subst own
    rw [startPendingMove, none]
    exact .refl s
  · unfold startPendingMove
    split
    · exact .when (startMove_undisturbed own _)
    · exact .refl s

theorem startMoves_undisturbed (l : List (Fin 16)) {s : Part} (none : s.gang.pending.get g = .none) :
    Undisturbed g s (l.foldl (fun t k => startPendingMove k t) s) := by
  induction l generalizing s with
  | nil => exact .refl s
  | cons k l ih =>
    have first : Undisturbed g s (startPendingMove k s) := startPendingMove_undisturbed k none
    exact first.trans (ih (first.pending.trans none))

/-! ## The Gang Port and the frames (R1, R111, R128) -/

/-- R109: the Gang Port of a SOLO unit takes no turn. -/
theorem gangTurn_of_solo {s : Part} (solo : s.gang.role = .solo) : gangTurn s = s := by
  have notFollower : s.gang.role ≠ .follower := by rw [solo]; nofun
  have notLeader : s.gang.role ≠ .leader := by rw [solo]; nofun
  have compared : mismatchTurn s = s := if_neg fun h => notLeader h.1
  have resend (l : List (Fin 8)) : l.foldl (fun t ref => resendOne ref t) s = s := by
    induction l with
    | nil => rfl
    | cons ref l ih =>
      have one : resendOne ref s = s := if_neg fun h => notFollower h.1
      rw [List.foldl_cons, one, ih]
  rw [gangTurn, compared, resendTurn, resend, silenceTurn, if_pos solo]

theorem beginReturn_undisturbed (r : Rig) (s : Part) : Undisturbed g s (beginReturn r s) := by
  have chosen : Undisturbed g s (sendChunk r s).2 := setPort_undisturbed id
  exact chosen.trans (setPort_undisturbed id)

theorem beginFrames_undisturbed (s : Part) : Undisturbed g s (beginFrames s) :=
  ((beginReturn_undisturbed _ _).trans (beginReturn_undisturbed _ _)).trans ((programLane_same _).undisturbed rfl)

theorem beginGang_undisturbed (s : Part) : Undisturbed g s (beginGang s) := by
  have noted (p : ProposeMsg) (u : Part) : Undisturbed g u (noteSent p u) := by
    unfold noteSent
    split
    · exact withGang_undisturbed rfl
    · exact .refl u
  have message : Undisturbed g s (takeGangMsg s).2 := by
    unfold takeGangMsg
    repeat' split
    · exact withGang_undisturbed rfl
    · exact withGang_undisturbed rfl
    · exact (withGang_undisturbed (by rfl)).trans (noted _ _)
    · exact .refl s
  exact message.trans (withGang_undisturbed rfl)

theorem framesBefore_undisturbed (ord : Order) (s : Part) : Undisturbed g s (framesBefore ord s) := by
  have frames : Undisturbed g s (if ord.framesFirst then beginFrames s else s) := .when (beginFrames_undisturbed s)
  exact frames.trans (.when (beginGang_undisturbed _))

theorem framesAfter_undisturbed (ord : Order) (s : Part) : Undisturbed g s (framesAfter ord s) := by
  have frames : Undisturbed g s (if ord.framesFirst then s else beginFrames s) := .ite (.refl s) (beginFrames_undisturbed s)
  have gang : Undisturbed g s (if ord.gangFirst then (if ord.framesFirst then s else beginFrames s)
      else beginGang (if ord.framesFirst then s else beginFrames s)) :=
    .ite frames (frames.trans (beginGang_undisturbed _))
  exact gang.trans ((programHeader_same _).undisturbed rfl)

theorem endReturn_undisturbed (r : Rig) (s : Part) : Undisturbed g s (endReturn r s) := by
  have freed (id : Nat) (requested : Bool) : Undisturbed g s
      { s.setPort r (Port.freeSlot { s.port.get r with out := none, lane := (s.port.get r).lane.sent } id) with
        resetRequested := requested } :=
    (setPort_undisturbed fun none => by simp [Port.freeSlot, none]).trans ⟨rfl, rfl, fun _ none => none⟩
  unfold endReturn
  dsimp only
  split
  · exact .refl s
  · split
    · exact setPort_undisturbed id
    · refine .ite ?_ (setPort_undisturbed id)
      split
      · exact freed _ _
      · exact setPort_undisturbed id

/-! ## The opening and the turns before the groups' (R23, R25, R50, R114, R162) -/

theorem openBoundary_undisturbed (l : Lines) {s : Part} (h : noResetDue s) : Undisturbed g s (openBoundary l s) := by
  have ended : Undisturbed g s (endFrames s) :=
    ((endReturn_undisturbed _ _).trans (endReturn_undisturbed _ _)).trans ((endProgram_same _).undisturbed rfl)
  have adopted (u : Part) : Undisturbed g u (adoptTurn u) := by
    refine .when ?_
    unfold adoptCount
    split <;> exact ⟨rfl, rfl, fun _ => id⟩
  have owed (u : Part) : Undisturbed g u (owedTurn u) :=
    .when (((withStore_same _ u).undisturbed rfl).trans (raise_undisturbed _ _))
  rw [openBoundary_of_noReset l s h]
  exact (((ended.trans ((countTurn_same _).undisturbed rfl)).trans (adopted _)).trans (owed _)).trans
    ((promote_same _).undisturbed rfl)

theorem keyTurn_undisturbed (line : Bool) (s : Part) : Undisturbed g s (keyTurn line s) := by
  have locked (k : ShowLock) (u : Part) : Undisturbed g u { u with lock := k } := (withLock_same k u).undisturbed rfl
  have level (v : LockLevel) (k : Bool) (u : Part) : Undisturbed g u (setLevel v k u) :=
    .ite (.refl u) ((locked _ u).trans (raise_undisturbed _ _))
  exact .ite (locked _ s) (.ite (.ite ((locked _ s).trans (level _ _ _)) (locked _ s)) (locked _ s))

theorem clockTurn_undisturbed (s : Part) : Undisturbed g s (clockTurn s) := by
  have counted (k : FrameClock) (u : Part) : Undisturbed g u { u with clock := k } := (withClock_same k u).undisturbed rfl
  exact (counted _ s).trans (.when ((counted _ _).trans (raise_undisturbed _ _)))

theorem watchTurn_undisturbed (ord : Order) (b : PerRig Health) (s : Part) : Undisturbed g s (watchTurn ord b s) := by
  have noticed (x : Rig) (o m n : Health) (v : Part) : Undisturbed g v (raiseHealth x o m n v) := by
    unfold raiseHealth
    split
    · exact raise_undisturbed _ _
    · exact .refl v
  have judged (x : Rig) (h : Health) (u : Part) : Undisturbed g u (healthTurn x h u) :=
    ((setHealth_same x _ u).undisturbed rfl).trans (noticed _ _ _ _ _)
  have slip (x : Rig) (n : Nat) (u : Part) : Undisturbed g u (slipTurn x n u) := (slipTurn_same _ _ _).undisturbed rfl
  have watch (x : Rig) (h : Health) (first : Bool) (n : Nat) (u : Part) : Undisturbed g u (watchRig x h first n u) :=
    .ite ((slip _ _ _).trans (judged _ _ _)) ((judged _ _ _).trans (slip _ _ _))
  exact ((((underrunTurn_same .A s).undisturbed rfl).trans ((underrunTurn_same .B _).undisturbed rfl)).trans
    (watch .A _ _ _ _)).trans (watch .B _ _ _ _)

theorem handLoss_undisturbed (r : Rig) (s : Part) : Undisturbed g s (handLoss r s) := by
  have refused (why : RefuseReason) (u : Part) : Undisturbed g u (refuseGathered r why u) := by
    unfold refuseGathered
    split
    · exact setPort_undisturbed id
    all_goals exact .refl u
  unfold handLoss
  split
  · exact (refused _ s).trans (setPort_undisturbed id)
  all_goals exact .refl s

theorem leaveLocked_undisturbed (r : Rig) (st : RxState) (s : Part) : Undisturbed g s (leaveLocked r st s) := by
  have counted (k : FrameClock) (u : Part) : Undisturbed g u { u with clock := k } := (withClock_same k u).undisturbed rfl
  have lost (src : Source) (u : Part) : Undisturbed g u (sourceLost src u) :=
    .ite ((counted _ u).trans ((counted _ _).trans (raise_undisturbed _ _))) (counted _ u)
  exact (((((setRx_same _ _ _).undisturbed rfl).trans ((flushRing_same _ _).undisturbed rfl)).trans
    ((setHealth_same _ _ _).undisturbed rfl)).trans (handLoss_undisturbed _ _)).trans (lost _ _)

theorem trackerTurn_undisturbed (ord : Order) (s : Part) : Undisturbed g s (trackerTurn ord s) := by
  have requested : Undisturbed g s (requestPart ord s) := ((withTracker_same _ s).undisturbed rfl).trans
    (lossTurn_keeps Undisturbed.refl Undisturbed.trans
      (fun _ _ _ _ => ((setRx_same _ _ _).undisturbed rfl).trans (leaveLocked_undisturbed _ _ _)) ord _)
  have align (o n : Tracker) (c : Option Correction) (t : Tracker) (u : Part) :
      Undisturbed g u (raiseAlign o n c { u with tracker := t }) :=
    ((withTracker_same t u).undisturbed rfl).trans (.when (raise_undisturbed _ _))
  cases h : (derivedTracker s).side s.tables.setup.reference with
  | none =>
    rw [trackerTurn_of_none ord s h]
    exact requested.trans (align _ _ _ _ _)
  | some side =>
    rw [trackerTurn_of_some ord s side.1 side.2 h]
    exact (requested.trans ((moveRing_same _ _ _).undisturbed rfl)).trans (align _ _ _ _ _)

/-- The turns of a boundary without writes, up to the groups'. -/
theorem trackedPart_undisturbed (l : Lines) (ord : Order) {s : Part} (h : noResetDue s) (noWrite : s.writes = []) :
    Undisturbed g s (trackedPart l ord s) := by
  have keyed : Undisturbed g s (keyTurn l.key (framesBefore ord (openBoundary l s))) :=
    ((openBoundary_undisturbed l h).trans (framesBefore_undisturbed ord _)).trans (keyTurn_undisturbed _ _)
  have writes : (keyTurn l.key (framesBefore ord (openBoundary l s))).writes = [] :=
    ((keyTurn_same _ _).get .writes rfl).trans (((framesBefore_same ord _).get .writes rfl).trans
      (((openBoundary_quiet l s h).get .writes rfl).trans noWrite))
  have written : Undisturbed g s (writesTurn (keyTurn l.key (framesBefore ord (openBoundary l s)))) := by
    rw [writesTurn_of_none _ writes]
    exact keyed.trans ((withWrites_same _ _).undisturbed rfl)
  have matched (u : Part) : Undisturbed g u (matchTurn u) := .when (withGang_undisturbed rfl)
  exact (((written.trans (matched _)).trans (clockTurn_undisturbed _)).trans (watchTurn_undisturbed ord _ _)).trans
    (trackerTurn_undisturbed ord _)
end

end Sys2Proof.Machine
end

section
/-! The failover of a group at a boundary (R69, R88, R90, R91, R96, R98, R107, R170). -/

namespace Sys2Proof.Machine

/-! ## What the decision sees (R50, R69) -/

section
variable (l : Lines) (ord : Order) (s : Part) (h : noResetDue s)
include h

theorem trackedPart_tables (noWrite : s.writes = []) : (trackedPart l ord s).tables = s.tables := by
  have written : (clockedPart l ord s).tables = s.tables := by
    rw [clockedPart_tables l ord s h (by rw [noWrite]; exact List.forall_mem_nil _), noWrite]
    rfl
  have watched : (watchedPart l ord s).tables = (clockedPart l ord s).tables := (watchTurn_same ord _ _).get .tables rfl
  have tracked : (trackedPart l ord s).tables = (watchedPart l ord s).tables := (trackerTurn_same ord _).get .tables rfl
  rw [tracked, watched, written]

/-- R50, R69: the groups' turn sees what the boundary before has published. -/
theorem trackedPart_inForce : (trackedPart l ord s).tracker.inForce = s.tracker.computed ∧
    ∀ x, ((trackedPart l ord s).health.get x).inForce = (s.health.get x).published := by
  have stands := boundary_forceStands l ord s
  obtain ⟨health, tracker⟩ := openBoundary_promoted l s h
  constructor
  · have verdict : (boundary l ord s).tracker.inForce = (trackedPart l ord s).tracker.inForce := by rw [boundary_tracker]
    rw [← verdict, stands.verdict, tracker]
  · intro x
    rw [← boundary_health, stands.unusable x, health, PerRig.get_map]

theorem trackedPart_done : (trackedPart l ord s).takeover = s.takeover :=
  (trackedPart_stands l ord s).1.trans ((openBoundary_quiet l s h).get .takeover rfl)
end

/-! ## The decision (R88, R90, R96, R98) -/

/-- R90, R107: the fade of a failover. -/
def failoverFade (s : Part) (e : GroupEntry) (kind : FadeKind) : Fade where
  kind := kind
  q := 0
  len := fadeLength e.fade
  law := e.law
  reason := .autoFailover
  unaligned := kind.crossesRigs && e.requireAlign && !alignMet s
  q0 := 0

/-- R98: the record of a group that fails over from a rig. -/
def failedOverRecord (s : Part) (e : GroupEntry) (r : GroupRec) (kind : FadeKind) (x : Rig) : GroupRec :=
  { r with
    requests := []
    course := .fading (failoverFade s e kind)
    failedOver := End.rig x.other == End.rig e.home.other
    holdTimer := 0
    darkByRequest := false }

theorem between_other (x : Rig) : ∃ kind, FadeKind.between (.rig x) (.rig x.other) = some kind ∧ kind.src = .rig x ∧
    kind.dst = .rig x.other ∧ kind.crossesRigs = true := by
  cases x
  · exact ⟨.aToB, rfl, rfl, rfl, rfl⟩
  · exact ⟨.bToA, rfl, rfl, rfl, rfl⟩

theorem rigUsable_of_solo {s : Part} (solo : s.gang.role = .solo) (g : Fin 16) (x : Rig) :
    rigUsable s g x = localUsable s (groupEntry s g).mask x := by
  rw [rigUsable, isLeading_of_solo solo, Bool.not_false, Bool.true_or, Bool.and_true]

/-- R88, R96: an AUTO group that nothing asks and whose destination has failed. -/
theorem decide88_of_failed {s : Part} {g : Fin 16} {t : End} (auto : (groupEntry s g).mode = .auto)
    (unasked : (s.groups.get g).requests = []) (target : failoverTarget s g (s.groups.get g).course.dest = some t)
    (away : t ≠ (s.groups.get g).course.dest) :
    decide88 s g = transition s g { s.groups.get g with requests := [] } t .autoFailover := by
  have noneAsked : askedFor (s.groups.get g) = none := by rw [askedFor, unasked]; rfl
  simp only [decide88, auto, noneAsked, decideAuto, target, if_neg away]

/-- R90, R98: the transition that takes a group from one rig to the other. -/
theorem transition_to_other {s : Part} {g : Fin 16} {r : GroupRec} {x : Rig} {kind : FadeKind}
    (way : FadeKind.between (.rig x) (.rig x.other) = some kind) (steady : r.course = .steady (.rig x)) :
    transition s g { r with requests := [] } (.rig x.other) .autoFailover =
      ⟨failedOverRecord s (groupEntry s g) r kind x, some (failoverFade s (groupEntry s g) kind)⟩ := by
  have turned : turn r.course (.rig x.other) (fadeLength (groupEntry s g).fade) (groupEntry s g).law =
      some (kind, 0, fadeLength (groupEntry s g).fade, (groupEntry s g).law) := by rw [steady, turn, way]; rfl
  unfold transition
  dsimp only
  rw [turned]
  rfl

/-- R69, R96: a group of a SOLO unit is AUTO, nothing asks it, and the set in force makes the rig it is steady on unusable,
the other rig not. -/
structure FailoverDue (s : Part) (g : Fin 16) (e : GroupEntry) (x : Rig) : Prop where
  solo : s.gang.role = .solo
  entry : groupEntry s g = e
  auto : e.mode = .auto
  started : (s.groups.get g).startPending = false
  unasked : (s.groups.get g).requests = []
  steady : (s.groups.get g).course = .steady (.rig x)
  failed : (s.health.get x).inForce &&& e.mask ≠ 0#8
  spare : (s.health.get x.other).inForce &&& e.mask = 0#8

theorem unbound_fields {q r : GroupRec} (h : q.unbound = r.unbound) : q.course = r.course ∧ q.failedOver = r.failedOver ∧
    q.holdTimer = r.holdTimer ∧ q.startPending = r.startPending ∧ q.requests = r.requests := by
  simp only [GroupRec.unbound, GroupRec.mk.injEq] at h
  obtain ⟨course, -, failedOver, holdTimer, -, startPending, requests⟩ := h
  exact ⟨course, failedOver, holdTimer, startPending, requests⟩

section
variable {s : Part} {g : Fin 16} {e : GroupEntry} {x : Rig} (due : FailoverDue s g e x)
include due

theorem FailoverDue.undisturbed {t : Part} (h : Undisturbed g s t) (tables : t.tables = s.tables)
    (force : ∀ y, (t.health.get y).inForce = (s.health.get y).inForce) : FailoverDue t g e x := by
  obtain ⟨course, -, -, startPending, requests⟩ := unbound_fields h.record
  have entry : groupEntry t g = groupEntry s g := by rw [groupEntry, groupEntry, tables]
  exact ⟨h.role.trans due.solo, entry.trans due.entry, due.auto, startPending.trans due.started,
    requests.trans due.unasked, course.trans due.steady, by rw [force]; exact due.failed, by rw [force]; exact due.spare⟩

/-- R88, R96: the group goes to the other rig. -/
theorem FailoverDue.decide88 {kind : FadeKind} (way : FadeKind.between (.rig x) (.rig x.other) = some kind) :
    decide88 s g = ⟨failedOverRecord s e (s.groups.get g) kind x, some (failoverFade s e kind)⟩ := by
  have dest : (s.groups.get g).course.dest = .rig x := by rw [due.steady]; rfl
  have unusable : ¬rigUsable s g x = true := by
    rw [rigUsable_of_solo due.solo, localUsable, due.entry, beq_iff_eq]
    exact due.failed
  have usable : rigUsable s g x.other = true := by
    rw [rigUsable_of_solo due.solo, localUsable, due.entry, beq_iff_eq]
    exact due.spare
  have target : failoverTarget s g (.rig x) = some (.rig x.other) := by rw [failoverTarget, if_neg unusable, if_pos usable]
  have away : End.rig x.other ≠ End.rig x := by cases x <;> nofun
  rw [decide88_of_failed (by rw [due.entry, due.auto]) due.unasked (by rw [dest, target]) (by rwa [dest]),
    transition_to_other way due.steady, due.entry]
end

/-! ## All the groups decide (R86, R88, R107, R170) -/

/-- The part after the requests that are refused (R89, R101), on which the groups decide. -/
def refusedPart (w : Fin 16 → Bool) (s : Part) : Part :=
  ((allGroups.filter fun g => decides s w g).filter fun g => (groupEntry s g).mode == .fixed).foldl
    (fun s g => refuseRequests .badTarget g s)
    ((allGroups.filter fun g => !decides s w g).foldl (fun s g => refuseRequests .busy g s) s)

theorem refusedPart_same (w : Fin 16 → Bool) (s : Part) : Same [.port, .gang, .groups] s (refusedPart w s) :=
  (Same.foldl (fun _ _ => refuseRequests_same _ _ _) _ _).trans (Same.foldl (fun _ _ => refuseRequests_same _ _ _) _ _)

section
variable {w : Fin 16 → Bool} {s : Part} {g : Fin 16}

theorem refusedPart_undisturbed (deciding : decides s w g = true) (open' : (groupEntry s g).mode ≠ .fixed) :
    Undisturbed g s (refusedPart w s) := by
  refine Undisturbed.trans (.foldl (fun k mem u => refuseRequests_undisturbed ?_ _ u) s)
    (.foldl (fun k mem u => refuseRequests_undisturbed ?_ _ u) _)
  · rintro rfl
    obtain ⟨-, not⟩ := List.mem_filter.mp mem
    rw [deciding] at not
    cases not
  · rintro rfl
    obtain ⟨-, fixed⟩ := List.mem_filter.mp mem
    exact open' (beq_iff_eq.mp fixed)

/-- A group's record as it has decided, or as it was. -/
def decidedRecord (w : Fin 16 → Bool) (s : Part) (g : Fin 16) : GroupRec :=
  if decides s w g then (decide88 (refusedPart w s) g).after else (refusedPart w s).groups.get g

def decidedPart (w : Fin 16 → Bool) (s : Part) : Part :=
  { refusedPart w s with groups := Tbl.ofFn (decidedRecord w s) }

/-- The part after the notices, the MOVEs and the supersessions of the decisions. -/
def announcedPart (w : Fin 16 → Bool) (s : Part) : Part :=
  (allGroups.filter fun g => decides s w g).foldl
    (fun t g => settleBinding g ((refusedPart w s).groups.get g).requests t)
    ((allGroups.filter fun g => decides s w g).foldl
      (fun t g => match (decide88 (refusedPart w s) g).begun with | some f => announce g f t | none => t) (decidedPart w s))

/-- A decided group begins an automatic failover. -/
def failsOver (w : Fin 16 → Bool) (s : Part) : Bool := (allGroups.filter fun g => decides s w g).any fun g =>
  match (decide88 (refusedPart w s) g).begun with | some f => f.reason == .autoFailover | none => false

theorem decideGroups_eq (w : Fin 16 → Bool) (s : Part) : decideGroups w s = { announcedPart w s with
    panel := { (announcedPart w s).panel with
      pulse := if (announcedPart w s).tables.setup.alarm = .pulse ∧ failsOver w s then 200
        else (announcedPart w s).panel.pulse - 1 } } := rfl

theorem announcedPart_undisturbed (w : Fin 16 → Bool) (s : Part) (g : Fin 16) :
    Undisturbed g (decidedPart w s) (announcedPart w s) := by
  refine Undisturbed.trans (.foldl (fun k _ u => ?_) _) (.foldl (fun k _ u => settleBinding_undisturbed _ _ u) _)
  split
  · exact .ite ((raise_undisturbed _ _).trans (queueMove_undisturbed _ _)) (raise_undisturbed _ _)
  · exact .refl u

/-- R88: a group that decides goes on with the record that it has decided. -/
theorem decideGroups_record (deciding : decides s w g = true) :
    ((decideGroups w s).groups.get g).unbound = (decide88 (refusedPart w s) g).after.unbound := by
  have decided : (decidedPart w s).groups.get g = (decide88 (refusedPart w s) g).after :=
    (Tbl.get_ofFn _ _).trans (if_pos deciding)
  rw [decideGroups_eq, ← decided]
  exact (announcedPart_undisturbed w s g).record

theorem decideGroups_asks (deciding : decides s w g = true) (open' : (groupEntry s g).mode ≠ .fixed) :
    (decideGroups w s).gang.asks g = s.gang.asks g := by
  rw [decideGroups_eq]
  exact (announcedPart_undisturbed w s g).asks.trans (refusedPart_undisturbed deciding open').asks

/-- R170: a failover begins the ALARM pulse. -/
theorem decideGroups_pulse (deciding : decides s w g = true) {f : Fade}
    (begun : (decide88 (refusedPart w s) g).begun = some f) (reason : f.reason = .autoFailover)
    (alarm : s.tables.setup.alarm = .pulse) : (decideGroups w s).panel.pulse = 200 := by
  have tables : (announcedPart w s).tables = s.tables := (decideGroups_same w s).get .tables rfl
  have failed : failsOver w s = true := List.any_eq_true.mpr
    ⟨g, List.mem_filter.mpr ⟨List.mem_finRange g, deciding⟩, by simp only [begun, reason]; rfl⟩
  rw [decideGroups_eq, tables]
  exact if_pos ⟨alarm, failed⟩
end

/-! ## The groups' turn of a SOLO unit (R86, R88, R105, R118) -/

/-- The part on which the groups decide. -/
def decidingPart (l : Lines) (ord : Order) (s : Part) : Part := takeoverTurn (startStrayMoves (requestTurn l ord s))

theorem decidingPart_same (l : Lines) (ord : Order) (s : Part) :
    Same [.panel, .groups, .gang, .port, .program, .takeover] s (decidingPart l ord s) :=
  (((requestTurn_same l ord s).mono rfl).trans ((startStrayMoves_same _).mono rfl)).trans ((takeoverTurn_same _).mono rfl)

/-- R105: after takeover the start states are taken no more. -/
theorem decidingPart_undisturbed {l : Lines} (releasedA : l.btnA = false) (releasedB : l.btnB = false) (ord : Order)
    {s : Part} {g : Fin 16} (solo : s.gang.role = .solo) (noPress : s.gang.presses = [])
    (bare : ∀ r, (s.port.get r).slots = []) (noMove : s.gang.pending.get g = none) (done : s.takeover.done = true) :
    Undisturbed g s (decidingPart l ord s) := by
  have requested : Undisturbed g s (requestTurn l ord s) :=
    requestTurn_undisturbed releasedA releasedB ord solo noPress bare
  have started : Undisturbed g s (startStrayMoves (requestTurn l ord s)) :=
    requested.trans (startMoves_undisturbed _ (requested.pending.trans noMove))
  have takeover : (startStrayMoves (requestTurn l ord s)).takeover = s.takeover :=
    ((startStrayMoves_same _).get .takeover rfl).trans ((requestTurn_same l ord s).get .takeover rfl)
  rw [decidingPart, takeoverTurn, if_pos (by rw [takeover, done])]
  exact started

/-- What follows the decisions of a boundary. -/
def afterDecisions (ord : Order) (s : Part) : Part :=
  framesAfter ord (gangTurn (publishOnAir (settleArrivals (startPendingMoves s))))

theorem boundary_decided (l : Lines) (ord : Order) (s : Part) : boundary l ord s = afterDecisions ord
    (decideGroups (takenUpAt (trackedPart l ord s)) (decidingPart l ord (trackedPart l ord s))) := rfl

theorem afterDecisions_same (ord : Order) (s : Part) :
    Same [.gang, .groups, .port, .program, .tracker, .clock] s (afterDecisions ord s) :=
  ((((startPendingMoves_same s).mono rfl).trans ((settleArrivals_same _).mono rfl)).trans
    ((publishOnAir_same _).mono rfl)).trans (((gangTurn_same _).mono rfl).trans ((framesAfter_same ord _).mono rfl))

theorem afterDecisions_undisturbed (ord : Order) {s : Part} {g : Fin 16} (solo : s.gang.role = .solo)
    (noMove : s.gang.pending.get g = none) : Undisturbed g s (afterDecisions ord s) := by
  have published : Undisturbed g s (publishOnAir (settleArrivals (startPendingMoves s))) :=
    ((startMoves_undisturbed _ noMove).trans (settleArrivals_undisturbed _)).trans ((publishOnAir_same _).undisturbed rfl)
  rw [afterDecisions, gangTurn_of_solo (published.role.trans solo)]
  exact published.trans (framesAfter_undisturbed ord _)

/-! ## The failover -/

/-- R88, R90, R98, R170: what the decisions leave of the group's record, and the ALARM pulse. -/
theorem decideGroups_failsOver {w : Fin 16 → Bool} {s : Part} {g : Fin 16} {e : GroupEntry} {x : Rig} {kind : FadeKind}
    (due : FailoverDue s g e x) (way : FadeKind.between (.rig x) (.rig x.other) = some kind)
    (deciding : decides s w g = true) :
    ((decideGroups w s).groups.get g).course = .fading (failoverFade s e kind) ∧
      ((decideGroups w s).groups.get g).failedOver = (End.rig x.other == End.rig e.home.other) ∧
      ((decideGroups w s).groups.get g).holdTimer = 0 ∧
      (s.tables.setup.alarm = .pulse → (decideGroups w s).panel.pulse = 200) := by
  have open' : (groupEntry s g).mode ≠ .fixed := by
    rw [due.entry, due.auto]
    nofun
  have same := refusedPart_same w s
  have tracker : (refusedPart w s).tracker = s.tracker := same.get .tracker rfl
  have health : (refusedPart w s).health = s.health := same.get .health rfl
  have aligned : failoverFade (refusedPart w s) e kind = failoverFade s e kind := by
    rw [failoverFade, failoverFade, alignMet, alignMet, tracker]
  have decided := (due.undisturbed (refusedPart_undisturbed deciding open') (same.get .tables rfl)
    fun y => by rw [health]).decide88 way
  have record := decideGroups_record (w := w) deciding
  rw [decided] at record
  obtain ⟨course, failedOver, holdTimer, -⟩ := unbound_fields record
  rw [← aligned]
  exact ⟨course, failedOver, holdTimer, decideGroups_pulse deciding (by rw [decided]) rfl⟩

/-- A part with what it has published in force, as a boundary's turns see it (R69). -/
def publishedInForce (s : Part) : Part := { s with health := s.health.map fun h => { h with inForce := h.published } }

/-- R69: what is due by the published sets is due as the groups decide. -/
theorem decidingPart_due {l : Lines} (releasedA : l.btnA = false) (releasedB : l.btnB = false) (ord : Order) {s : Part}
    {g : Fin 16} {e : GroupEntry} {x : Rig} (h : noResetDue s) (noWrite : s.writes = []) (done : s.takeover.done = true)
    (noPress : s.gang.presses = []) (noMove : s.gang.pending.get g = none) (bare : ∀ r, (s.port.get r).slots = [])
    (due : FailoverDue (publishedInForce s) g e x) : FailoverDue (decidingPart l ord (trackedPart l ord s)) g e x ∧
      decides (decidingPart l ord (trackedPart l ord s)) (takenUpAt (trackedPart l ord s)) g = true ∧
      (decidingPart l ord (trackedPart l ord s)).gang.pending.get g = none := by
  have opened : Undisturbed g s (trackedPart l ord s) := trackedPart_undisturbed l ord h noWrite
  have promoted : Undisturbed g (publishedInForce s) (trackedPart l ord s) := ⟨opened.record, opened.asks, opened.slots⟩
  obtain ⟨-, inForce⟩ := trackedPart_inForce l ord s h
  have dueTracked : FailoverDue (trackedPart l ord s) g e x :=
    due.undisturbed promoted (trackedPart_tables l ord s h noWrite) fun y => by
      rw [inForce, publishedInForce, PerRig.get_map]
  have requested : Undisturbed g (trackedPart l ord s) (decidingPart l ord (trackedPart l ord s)) :=
    decidingPart_undisturbed releasedA releasedB ord dueTracked.solo (opened.presses.trans noPress)
      (fun r => opened.slots r (bare r)) (opened.pending.trans noMove) (by rw [trackedPart_done l ord s h, done])
  have same := decidingPart_same l ord (trackedPart l ord s)
  have health : (decidingPart l ord (trackedPart l ord s)).health = (trackedPart l ord s).health := same.get .health rfl
  have dueDeciding := dueTracked.undisturbed requested (same.get .tables rfl) fun y => by rw [health]
  refine ⟨dueDeciding, ?_, requested.pending.trans (opened.pending.trans noMove)⟩
  rw [decides, takenUpAt, strayMove_of_none _ g (opened.pending.trans noMove), dueTracked.started,
    isLed_of_solo dueDeciding.solo]
  rfl

/-- Settles O57: what was published is in force as the groups decide; nothing asks or moves the group before its decision, and
nothing changes the fade after it. -/
theorem boundaryFailsOver : Obligations.BoundaryFailsOver := by
  intro l ord s g e x h solo noWrite done noPress noMove bare releasedA releasedB entry auto started unasked steady failed spare
  obtain ⟨kind, way, src, dst, crosses⟩ := between_other x
  have published (y : Rig) : ((publishedInForce s.toPart).health.get y).inForce = (s.health.get y).published := by
    rw [publishedInForce, PerRig.get_map]
  obtain ⟨due, deciding, pending⟩ := decidingPart_due (l := l) releasedA releasedB ord h noWrite done noPress noMove bare
    ⟨solo, entry, auto, started, unasked, steady, by rwa [published], by rwa [published]⟩
  obtain ⟨course, failedOver, holdTimer, pulse⟩ := decideGroups_failsOver due way deciding
  have asks := decideGroups_asks deciding (by rw [due.entry, auto]; nofun)
  have settled := afterDecisions_undisturbed ord ((congrArg Prod.fst asks).trans due.solo)
    ((congrArg (fun k => k.2.2) asks).trans pending)
  rw [← boundary_decided] at settled
  obtain ⟨course', failedOver', holdTimer', -⟩ := unbound_fields settled.record
  have tracker : (decidingPart l ord (trackedPart l ord s.toPart)).tracker = (trackedPart l ord s.toPart).tracker :=
    (decidingPart_same l ord _).get .tracker rfl
  have tables : (decidingPart l ord (trackedPart l ord s.toPart)).tables = s.tables :=
    ((decidingPart_same l ord _).get .tables rfl).trans (trackedPart_tables l ord s.toPart h noWrite)
  refine ⟨_, _, exec_boundary l ord s h.1, course'.trans course, src, dst, rfl, rfl, rfl, rfl, ?_, ?_, holdTimer'.trans
    holdTimer, fun alarm => ?_⟩
  · have verdict : alignMet (decidingPart l ord (trackedPart l ord s.toPart)) = s.tracker.computed.met := by
      rw [alignMet, tracker, (trackedPart_inForce l ord s.toPart h).1]
    simp [failoverFade, crosses, verdict]
  · rw [State.toPart_withPart, failedOver', failedOver]
    cases x <;> cases e.home <;> decide
  · have panel : (boundary l ord s.toPart).panel = (decideGroups (takenUpAt (trackedPart l ord s.toPart))
        (decidingPart l ord (trackedPart l ord s.toPart))).panel := (afterDecisions_same ord _).get .panel rfl
    rw [State.toPart_withPart, panel]
    exact pulse (by rw [tables, alarm])

end Sys2Proof.Machine
end


section
/-! Table writes as they are taken: what their own checks say of the groups, and whether the command waits among the pending
writes or ends at once (R73, R76, R80, R85, R146 to R148). -/

namespace Sys2Proof.Machine

/-! ## The own checks (R76, R80, R85) -/

section
variable {s : Part}

/-- R76: the groups of a route write are the new groups and the groups in force of its channels. -/
theorem routeFading_iff {first : Nat} {es : List RouteEntry} : routeFading s first es = true ↔
    (∃ e ∈ es, (s.groups.get e.group).course.isFading = true) ∨
      ∃ k : Fin 64, first ≤ k.val ∧ k.val < first + es.length ∧
        (s.groups.get (s.tables.routes.get k).group).course.isFading = true := by
  rw [routeFading, cells_eq_map, ← List.map_drop, ← List.map_take, finRange_span, Bool.or_eq_true, or_comm]
  simp [groupFading, and_assoc]

/-- R80: FIXED is for the rig that a group plays, unless its start is pending. -/
theorem fixesOffHome_iff {g : Fin 16} {mode : Mode} {home : Rig} : fixesOffHome s g mode home = true ↔
    mode = .fixed ∧ (s.groups.get g).startPending = false ∧ (s.groups.get g).course ≠ .steady (.rig home) := by
  simp [fixesOffHome, and_assoc]

section
variable {first : Nat} {es : List RouteEntry}

theorem writeCheck_route_busy
    (fading : (∃ e ∈ es, (s.groups.get e.group).course.isFading = true) ∨
      ∃ k : Fin 64, first ≤ k.val ∧ k.val < first + es.length ∧
        (s.groups.get (s.tables.routes.get k).group).course.isFading = true) :
    writeCheck s (.route first es) = some .busy := if_pos (routeFading_iff.mpr fading)

theorem writeCheck_route_passes
    (inForce : ∀ k : Fin 64, first ≤ k.val → k.val < first + es.length →
      (s.groups.get (s.tables.routes.get k).group).course.isFading = false)
    (new : ∀ e ∈ es, (s.groups.get e.group).course.isFading = false) : writeCheck s (.route first es) = none := by
  refine if_neg fun fading => ?_
  rcases routeFading_iff.mp fading with ⟨e, mem, he⟩ | ⟨k, low, high, hk⟩
  · exact Bool.false_ne_true ((new e mem).symm.trans he)
  · exact Bool.false_ne_true ((inForce k low high).symm.trans hk)
end

section
variable {g : Fin 16} {e : GroupEntry}

theorem writeCheck_group_busy (fading : (s.groups.get g).course.isFading = true) :
    writeCheck s (.group g e) = some .busy := if_pos fading

variable (steady : (s.groups.get g).course.isFading = false)
include steady

theorem writeCheck_group_steady :
    writeCheck s (.group g e) = if fixesOffHome s g e.mode e.home then some .badTarget else none :=
  if_neg (Bool.not_eq_true _ ▸ steady)

theorem writeCheck_group_badTarget (fixed : e.mode = .fixed) (started : (s.groups.get g).startPending = false)
    (off : (s.groups.get g).course ≠ .steady (.rig e.home)) : writeCheck s (.group g e) = some .badTarget := by
  rw [writeCheck_group_steady steady, if_pos (fixesOffHome_iff.mpr ⟨fixed, started, off⟩)]

theorem writeCheck_group_passes
    (home : e.mode = .fixed → (s.groups.get g).startPending = true ∨ (s.groups.get g).course = .steady (.rig e.home)) :
    writeCheck s (.group g e) = none := by
  rw [writeCheck_group_steady steady, if_neg]
  intro off
  obtain ⟨fixed, started, elsewhere⟩ := fixesOffHome_iff.mp off
  rcases home fixed with pending | plays
  · exact Bool.false_ne_true (started.symm.trans pending)
  · exact elsewhere plays
end

theorem writeCheck_defaults_busy {g : Fin 16} (fading : (s.groups.get g).course.isFading = true) :
    writeCheck s .defaults = some .busy := if_pos (anyFading_of_fading fading)

theorem writeCheck_defaults_passes (steady : ∀ g, (s.groups.get g).course.isFading = false) :
    writeCheck s .defaults = none := if_neg (by rw [anyFading_of_none steady]; exact Bool.false_ne_true)
end

/-! ## The command (R73, R127, R139, R146) -/

/-- The slot that a write takes is nothing to its own checks. -/
theorem writeCheck_occupy (r : Rig) (reserved : Bool) (msg : List Byte) (s : Part) (act : WriteAct) :
    writeCheck (occupy r reserved msg s) act = writeCheck s act := by cases act <;> rfl

/-- R73: a write that is accepted as it takes its slot. -/
theorem acceptWrite_taken (s : Part) (r : Rig) (tag code : Byte) (msg : List Byte) (act : WriteAct)
    (ids : ∀ k ∈ (s.port.get r).slots, k.id < s.nextId) (h0 : byteAt msg 0 = tag) (h1 : byteAt msg 1 = code) :
    acceptWrite r s.nextId act (occupy r false msg s) =
      { heldAs s r tag code .pendingWrite with writes := s.writes ++ [⟨some (r, s.nextId), act⟩] } :=
  setPhase_taken { s with writes := s.writes ++ [⟨some (r, s.nextId), act⟩] } r tag code msg .pendingWrite ids h0 h1

/-- R140: OPEN takes every command. -/
theorem takenAt_opened (c : Code) : c.takenAt .opened = true := (takenAt_iff c .opened).mpr ⟨fun _ => rfl, fun _ => nofun⟩

section
variable {r : Rig} {tag n : Byte} {params : List Byte} {act : WriteAct} {c : Code} {s : State}
  (can : canTake s.toPart r tag) (plain : n.toNat = params.length) (length : c.lengthOk params = true)
  (opened : s.lock.level = .opened) (saved : s.store.save ≠ .saving) (loaded : s.store.reload = false)
  (read : readCommand c params none = .ok (.write act))
include can plain length opened saved loaded read

/-- R139: a write that no gate refuses comes to its own checks. -/
theorem exec_write : exec (rowOf c r tag (n :: params)) s =
    .next (s.withPart (takeWrite r s.nextId act (occupy r false (tag :: c.byte :: n :: params) s.toPart))) := by
  have idle : storeBusy s.toPart = false := by
    rw [Bool.eq_false_iff, ne_eq, storeBusy_iff, loaded]
    exact not_or.mpr ⟨saved, Bool.false_ne_true⟩
  rw [exec_rowOf, takeMessage_eq s r tag c.byte (n :: params) can (List.cons_ne_nil _ _)]
  rw [judge_passes (occupy r false (tag :: c.byte :: n :: params) s.toPart) r s.nextId tag n c params (.write act) plain length
    (opened ▸ takenAt_opened c) (Bool.and_eq_false_iff.mpr (.inr idle)) read]
  rfl

theorem exec_write_accepted (passes : writeCheck s.toPart act = none) : exec (rowOf c r tag (n :: params)) s =
    .next (s.withPart { heldAs s.toPart r tag c.byte .pendingWrite with
      writes := s.writes ++ [⟨some (r, s.nextId), act⟩] }) := by
  obtain ⟨-, -, -, ids⟩ := id can
  rw [exec_write can plain length opened saved loaded read, takeWrite, writeCheck_occupy, passes]
  dsimp only
  rw [acceptWrite_taken s.toPart r tag c.byte _ act ids rfl rfl]

theorem exec_write_refused {st : Status} (fails : writeCheck s.toPart act = some st) :
    exec (rowOf c r tag (n :: params)) s = .next (s.withPart (answeredAs s.toPart r tag c.byte st 0 [])) := by
  obtain ⟨-, -, -, ids⟩ := id can
  rw [exec_write can plain length opened saved loaded read, takeWrite, writeCheck_occupy, fails]
  dsimp only
  rw [respond_taken s.toPart r tag c.byte _ st 0 [] ids rfl rfl]
end

/-- Settles O39: each write's own check passes, so the command waits among the pending writes. -/
theorem writesArePending : Obligations.WritesArePending := by
  intro r tag n params act s t c i can plain length row opened saved loaded read ht
  have instr : i = rowOf c r tag (n :: params) := by
    rcases row with ⟨rfl, rfl⟩ | ⟨rfl, rfl⟩ | ⟨rfl, rfl⟩ | ⟨rfl, rfl⟩ | ⟨rfl, rfl⟩ <;> rfl
  have accepted (passes : writeCheck s.toPart act = none) : exec i s = .next (s.withPart t) := by
    rw [instr, ht]
    exact exec_write_accepted can plain length opened saved loaded read passes
  refine ⟨?watchCause, ?watchSlots, ?setup, ?defaults, ?group, ?route⟩
  case watchCause =>
    rintro x k e rfl
    exact accepted rfl
  case watchSlots =>
    rintro x l rfl
    exact accepted rfl
  case setup =>
    rintro e rfl
    exact accepted rfl
  case defaults =>
    rintro rfl steady
    exact accepted (writeCheck_defaults_passes steady)
  case group =>
    rintro g e rfl steady home
    exact accepted (writeCheck_group_passes steady home)
  case route =>
    rintro first es rfl inForce new
    exact accepted (writeCheck_route_passes inForce new)

/-- Settles O40: each write passes the gates, and its own check answers. -/
theorem writesThatAreRefused : Obligations.WritesThatAreRefused := by
  intro r tag params act s can opened saved loaded
  refine ⟨?group, ?route, ?defaults⟩
  case group =>
    rintro thirteen read g e rfl
    have refused {st : Status} := exec_write_refused (c := .writeGroup) (n := 13#8) (st := st) can thirteen.symm
      (beq_iff_eq.mpr thirteen) opened saved loaded read
    exact ⟨fun fading => refused (writeCheck_group_busy fading),
      fun steady fixed started off => refused (writeCheck_group_badTarget steady fixed started off)⟩
  case route =>
    rintro n plain length read first es rfl fading
    exact exec_write_refused can plain length opened saved loaded read (writeCheck_route_busy fading)
  case defaults =>
    rintro ⟨g, fading⟩
    exact exec_write_refused (c := .restoreDefaults) can rfl rfl opened saved loaded rfl (writeCheck_defaults_busy fading)

end Sys2Proof.Machine
end


section
/-! The gains of a fade and the mix of its two sources (R92, R93). -/

namespace Sys2Proof.Machine

/-! ## The gains (R92) -/

theorem fadePosition_le {q len : Nat} (pos : 0 < len) (h : q ≤ len) : fadePosition q len ≤ 65536 := by
  rw [fadePosition, Nat.div_le_iff_le_mul_add_pred pos]
  calc q * 65536 ≤ len * 65536 := Nat.mul_le_mul_right _ h
    _ ≤ len * 65536 + (len - 1) := Nat.le_add_right _ _

theorem fadePosition_zero (len : Nat) : fadePosition 0 len = 0 := by rw [fadePosition, Nat.zero_mul, Nat.zero_div]

theorem fadePosition_self {len : Nat} (pos : 0 < len) : fadePosition len len = 65536 := Nat.mul_div_cancel_left _ pos

theorem fadePosition_full {q len : Nat} (pos : 0 < len) (h : q ≤ len) : fadePosition q len = 65536 ↔ q = len := by
  refine ⟨fun full => Nat.le_antisymm h ?_, fun e => by rw [e, fadePosition_self pos]⟩
  have reached : 65536 * len ≤ q * 65536 := (Nat.le_div_iff_mul_le pos).mp full.ge
  omega

theorem fadePosition_mono {q q' : Nat} (len : Nat) (h : q ≤ q') : fadePosition q len ≤ fadePosition q' len :=
  Nat.div_le_div_right (Nat.mul_le_mul_right _ h)

/-- R92: the cubic of the SMOOTH law, before its division. -/
def smoothCubic (p : Nat) : Nat := 3 * p ^ 2 * 65536 - 2 * p ^ 3

theorem smoothCubic_sub {p : Nat} (h : p ≤ 65536) : 2 * p ^ 3 ≤ 3 * p ^ 2 * 65536 := by
  calc 2 * p ^ 3 = 2 * p ^ 2 * p := by ring
    _ ≤ 3 * p ^ 2 * 65536 := Nat.mul_le_mul (Nat.mul_le_mul_right _ (by omega)) h

/-- R92: over the position's range the cubic never falls: it grows by `d` times a form that is not negative there. -/
theorem smoothCubic_mono {p p' : Nat} (h : p ≤ p') (h' : p' ≤ 65536) : smoothCubic p ≤ smoothCubic p' := by
  obtain ⟨d, rfl⟩ := Nat.exists_eq_add_of_le h
  have slope : (2 * p * d + d ^ 2) * (p + d) ≤ (2 * p * d + d ^ 2) * 65536 := Nat.mul_le_mul_left _ h'
  have grows : 3 * p ^ 2 * 65536 + 2 * (p + d) ^ 3 ≤ 3 * (p + d) ^ 2 * 65536 + 2 * p ^ 3 := by nlinarith
  have sub := smoothCubic_sub (h.trans h')
  have sub' := smoothCubic_sub h'
  unfold smoothCubic
  omega

theorem gainTo_smooth (q len : Nat) : gainTo .smooth q len = smoothCubic (fadePosition q len) / 2 ^ 32 := rfl

theorem gainTo_smooth_mono {q q' len : Nat} (pos : 0 < len) (h : q ≤ q') (h' : q' ≤ len) :
    gainTo .smooth q len ≤ gainTo .smooth q' len :=
  Nat.div_le_div_right (smoothCubic_mono (fadePosition_mono len h) (fadePosition_le pos h'))

theorem gainTo_self (law : Law) {len : Nat} (pos : 0 < len) : gainTo law len len = 65536 := by
  cases law with
  | linear => exact fadePosition_self pos
  | smooth => rw [gainTo_smooth, fadePosition_self pos]; rfl

theorem gainTo_le (law : Law) {q len : Nat} (pos : 0 < len) (h : q ≤ len) : gainTo law q len ≤ 65536 := by
  cases law with
  | linear => exact fadePosition_le pos h
  | smooth => exact (gainTo_smooth_mono pos h (Nat.le_refl len)).trans (gainTo_self .smooth pos).le

/-- Settles O21. -/
theorem fadeGains : Obligations.FadeGains := by
  refine ⟨fun q len pos h => ⟨?_, fun law => ⟨gainTo_le law pos h, rfl⟩⟩, fun len pos => ⟨?_, gainTo_self .smooth pos⟩,
    fun q q' len pos h h' => gainTo_smooth_mono pos h h', by decide⟩
  · rintro p rfl
    exact ⟨fadePosition_le pos h, fadePosition_full pos h, rfl, rfl, smoothCubic_sub (fadePosition_le pos h)⟩
  · rw [gainTo_smooth, fadePosition_zero]
    rfl

/-! ## The mix (R93) -/

/-- R93: the rounded mean of two values by weights that sum to 65536 lies between them. -/
theorem mixInt_between (a b : Int) {gFrom gTo : Nat} (sum : gFrom + gTo = 65536) :
    min a b ≤ mixInt a b gFrom gTo ∧ mixInt a b gFrom gTo ≤ max a b := by
  have weights : (gFrom : Int) + gTo = 65536 := by exact_mod_cast sum
  have low : min a b * 65536 ≤ a * gFrom + b * gTo := by
    rw [← weights, mul_add]
    gcongr
    · exact min_le_left a b
    · exact min_le_right a b
  have high : a * gFrom + b * gTo ≤ max a b * 65536 := by
    rw [← weights, mul_add]
    gcongr
    · exact le_max_left a b
    · exact le_max_right a b
  unfold mixInt
  omega

/-- R93: a mix needs no saturation. -/
theorem mix_toInt (a b : Sample) {gFrom gTo : Nat} (sum : gFrom + gTo = 65536) :
    (mix a b gFrom gTo).toInt = mixInt a.toInt b.toInt gFrom gTo := by
  obtain ⟨low, high⟩ := mixInt_between a.toInt b.toInt sum
  have rangeA := a.toInt_lt
  have rangeB := b.toInt_lt
  have rangeA' := a.le_toInt
  have rangeB' := b.le_toInt
  rw [mix, BitVec.toInt_ofInt_eq_self (by decide)] <;> omega

theorem mixInt_full (a b : Int) : mixInt a b 0 65536 = b := by
  unfold mixInt
  omega

/-- Settles O22. -/
theorem fadeMix : Obligations.FadeMix := by
  intro law q len a b pos h
  have sum : gainFrom law q len + gainTo law q len = 65536 := Nat.sub_add_cancel (gainTo_le law pos h)
  obtain ⟨low, high⟩ := mixInt_between a.toInt b.toInt sum
  rw [mix_toInt a b sum]
  refine ⟨sum, ?_, low, high, ?_⟩
  · rw [Int.fdiv_eq_ediv_of_nonneg _ (by decide)]
    rfl
  · rw [gainFrom, gainTo_self law pos]
    apply BitVec.eq_of_toInt_eq
    rw [mix_toInt a b (by rfl), mixInt_full]

end Sys2Proof.Machine
end


section
/-! The parts of the MOVE_GROUPs and the proposals as they end (R102, R103, R119, R120): what any ending leaves of the groups,
the ports and the Gang Port, which endings leave a given owner alone, and what ending that owner answers. -/

namespace Sys2Proof.Machine

/-! ## What an ending leaves (R102, R103) -/

/-- From `s` to `t` parts and proposals may have come further or have ended: groups may have lost bindings, ports may have
gained responses, and the board may show answers. -/
structure Ending (s t : Part) : Prop where
  same : Same [.port, .gang, .groups] s t
  lanes : LanesStand s t
  responses : ∀ r, (s.port.get r).responses <+: (t.port.get r).responses
  record : ∀ g, (t.groups.get g).unbound = (s.groups.get g).unbound
  binding : ∀ g o, (t.groups.get g).binding = some o → (s.groups.get g).binding = some o
  gang : t.gang = { s.gang with board := t.gang.board, answers := t.gang.answers }

theorem Ending.refl (s : Part) : Ending s s :=
  ⟨.refl _ s, .refl s, fun _ => List.prefix_rfl, fun _ => rfl, fun _ _ => id, rfl⟩

theorem Ending.trans {s t u : Part} (h : Ending s t) (k : Ending t u) : Ending s u :=
  ⟨h.same.trans k.same, h.lanes.trans k.lanes, fun r => (h.responses r).trans (k.responses r),
    fun g => (k.record g).trans (h.record g), fun g o => h.binding g o ∘ k.binding g o, k.gang.trans (by rw [h.gang])⟩

theorem Ending.foldl {α : Type} {f : Part → α → Part} (h : ∀ s a, Ending s (f s a)) (l : List α) (s : Part) :
    Ending s (l.foldl f s) := by
  induction l generalizing s with
  | nil => exact .refl s
  | cons a l ih => exact (h s a).trans (ih _)

theorem Ending.when {s a : Part} {p : Prop} [Decidable p] (ha : Ending s a) : Ending s (if p then a else s) := by
  split
  · exact ha
  · exact .refl s

section
variable {s t : Part} (h : Ending s t)
include h

theorem Ending.clock : t.clock = s.clock := h.same.get .clock rfl

theorem Ending.course (g : Fin 16) : (t.groups.get g).course = (s.groups.get g).course := (unbound_fields (h.record g)).1

theorem Ending.requests (g : Fin 16) : (t.groups.get g).requests = (s.groups.get g).requests :=
  (unbound_fields (h.record g)).2.2.2.2

theorem Ending.moves : t.gang.moves = s.gang.moves := by rw [h.gang]

theorem Ending.raised {b : NoticeBody} (k : raised s b) : raised t b := h.lanes.raised h.clock k
end

theorem unbind_binding (o : Owner) (s : Part) (g : Fin 16) : ((unbind o s).groups.get g).binding =
    if (s.groups.get g).binding = some o then none else (s.groups.get g).binding := by
  rw [unbind, Tbl.get_map]
  split <;> rfl

theorem unbind_ending (o : Owner) (s : Part) : Ending s (unbind o s) := by
  refine ⟨(unbind_same o s).mono rfl, (unbind_same o s).lanesStand rfl rfl, fun _ => List.prefix_rfl,
    fun _ => (unbind_undisturbed o s).record, fun g p bound => ?_, rfl⟩
  rw [unbind_binding] at bound
  split at bound
  · cases bound
  · exact bound

theorem respond_ending (r : Rig) (id : Nat) (st : Status) (i : Nat) (results : List Byte) (s : Part) :
    Ending s (respond r id st i results s) := by
  refine ⟨(respond_same r id st i results s).mono rfl, respond_lanesStand _ _ _ _ _ _, fun x => ?_, fun _ => rfl,
    fun _ _ bound => bound, rfl⟩
  rw [respond_port]
  split
  · exact Port.respond_grows _ _ _ _ _
  · exact List.prefix_rfl

theorem setPhase_port (r x : Rig) (id : Nat) (ph : Phase) (s : Part) : (setPhase r id ph s).port.get x =
    if x = r then (s.port.get x).setPhase id ph else s.port.get x := by
  refine (PerRig.get_set _ _ _ _).trans ?_
  split
  next own => rw [own]
  next => rfl

theorem setPhase_ending (r : Rig) (id : Nat) (ph : Phase) (s : Part) : Ending s (setPhase r id ph s) := by
  refine ⟨(setPhase_same r id ph s).mono rfl, ⟨fun x => ?_, rfl⟩, fun x => ?_, fun _ => rfl,
    fun _ _ bound => bound, rfl⟩ <;>
    · rw [setPhase_port]
      split <;> rfl

theorem board_ending (b : Tbl 8 BoardEntry) (a : List AnswerMsg) (s : Part) :
    Ending s { s with gang := { s.gang with board := b, answers := a } } :=
  ⟨(withGang_same _ s).mono rfl, (withGang_same _ s).lanesStand rfl rfl, fun _ => List.prefix_rfl, fun _ => rfl,
    fun _ _ => id, rfl⟩

theorem setStage_ending (o : Owner) (st : Stage) (s : Part) : Ending s (setStage o st s) := by
  cases o with
  | command r id ganged =>
    unfold setStage
    dsimp only
    split
    · split
      · exact setPhase_ending _ _ _ _
      · exact .refl s
    · exact .refl s
  | proposal ref =>
    unfold setStage
    dsimp only
    split
    · exact board_ending _ _ _
    all_goals exact .refl s

theorem endOwner_ending (o : Owner) (st : Status) (results : List Byte) (s : Part) : Ending s (endOwner o st results s) := by
  have ended (r : Rig) (id : Nat) (m : MoveCmd) : Ending s (unbind o (setPhase r id (.move m) s)) :=
    (setPhase_ending _ _ _ _).trans (unbind_ending _ _)
  cases o with
  | command r id ganged =>
    unfold endOwner
    dsimp only
    split
    · exact .refl s
    · split
      · exact .refl s
      · split
        · exact .refl s
        · split
          · exact (ended _ _ _).trans (respond_ending _ _ _ _ _ _)
          · exact ended _ _ _
  | proposal ref =>
    unfold endOwner
    dsimp only
    split
    · exact (board_ending _ _ s).trans (unbind_ending _ _)
    all_goals exact .refl s

theorem supersede_ending (o : Owner) (g : Fin 16) (s : Part) : Ending s (supersede o g s) := by
  unfold supersede
  split
  · exact endOwner_ending _ _ _ _
  · exact .refl s

theorem settleArrival_ending (o : Owner) (s : Part) : Ending s (settleArrival o s) := by
  unfold settleArrival
  refine .when ?_
  split
  · exact endOwner_ending _ _ _ _
  · exact .refl s

theorem settleArrivals_ending (s : Part) : Ending s (settleArrivals s) := .foldl (fun u o => settleArrival_ending o u) _ s

theorem supersedeIfElsewhere_ending (g : Fin 16) (s : Part) : Ending s (supersedeIfElsewhere g s) := by
  unfold supersedeIfElsewhere
  split
  · exact .refl s
  · split
    · exact .when (supersede_ending _ _ _)
    · exact .refl s

theorem supersedeReplaced_ending (g : Fin 16) (q : List Request) (s : Part) : Ending s (supersedeReplaced g q s) :=
  .foldl (fun u o => supersede_ending o g u) _ s

theorem settleBinding_ending (g : Fin 16) (q : List Request) (s : Part) : Ending s (settleBinding g q s) :=
  (supersedeReplaced_ending g q s).trans (supersedeIfElsewhere_ending g _)

/-! ## Owners and what they stand for (R119, R120) -/

/-- The slot or the board entry that an owner belongs to. -/
def ownerEntry (s : Part) : Owner → Option Held ⊕ BoardEntry
  | .command r id _ => .inl ((s.port.get r).find id)
  | .proposal ref => .inr (s.gang.board.get ref)

/-- Two owners that belong to different slots or board entries. -/
def Owner.apart : Owner → Owner → Prop
  | .command r id _, .command x k _ => ¬(r = x ∧ id = k)
  | .proposal ref, .proposal k => ref ≠ k
  | .command _ _ _, .proposal _ => True
  | .proposal _, .command _ _ _ => True

theorem moveOf_of_find {s : Part} {r : Rig} {id : Nat} {h : Held} {m : MoveCmd} (found : (s.port.get r).find id = some h)
    (phase : h.phase = .move m) : moveOf s r id = some m := by
  obtain ⟨_, _, _, _, ph⟩ := h
  cases phase
  rw [moveOf, found]

theorem ownerRun_of_find {s : Part} {r : Rig} {id : Nat} {h : Held} {m : MoveCmd} (found : (s.port.get r).find id = some h)
    (phase : h.phase = .move m) (ganged : Bool) :
    ownerRun s (.command r id ganged) = (m.part ganged).map fun p => (m.req, p) := by
  rw [ownerRun, moveOf_of_find found phase]

theorem ownerRun_of_board {s : Part} {ref : Fin 8} {round : Bool} {req : MoveReq} {part : MovePart}
    (held : s.gang.board.get ref = ⟨round, .held req part⟩) : ownerRun s (.proposal ref) = some (req, part) := by
  rw [ownerRun, held]

/-- Owners of one slot or entry run alike where it stands. -/
theorem ownerRun_congr {s t : Part} {o p : Owner} (sibling : ¬p.apart o) (entry : ownerEntry t o = ownerEntry s o) :
    ownerRun t p = ownerRun s p := by
  cases p with
  | command r id ganged =>
    cases o with
    | command x k other =>
      obtain ⟨rfl, rfl⟩ := not_not.mp sibling
      have found : (t.port.get r).find id = (s.port.get r).find id := Sum.inl.inj entry
      rw [ownerRun, ownerRun, moveOf, moveOf, found]
    | proposal k => exact absurd trivial sibling
  | proposal ref =>
    cases o with
    | command x k other => exact absurd trivial sibling
    | proposal k =>
      obtain rfl := not_not.mp sibling
      have board : t.gang.board.get ref = s.gang.board.get ref := Sum.inr.inj entry
      rw [ownerRun, ownerRun, board]

theorem Owner.not_apart_self (o : Owner) : ¬o.apart o := by
  cases o with
  | command r id ganged => exact not_not.mpr ⟨rfl, rfl⟩
  | proposal ref => exact not_not.mpr rfl

theorem supersede_of_none {s : Part} {o : Owner} (none : ownerRun s o = .none) (g : Fin 16) : supersede o g s = s := by
  rw [supersede, ownerStage, none]
  rfl

theorem supersede_of_run {s : Part} {o : Owner} {req : MoveReq} {p : MovePart} (run : ownerRun s o = some (req, p))
    (g : Fin 16) : supersede o g s = endOwner o .superseded (executionBytes p.stage ++ be8 g.val) s := by
  rw [supersede, ownerStage, run]
  rfl

theorem settleArrival_of_none {s : Part} {o : Owner} (none : ownerRun s o = .none) : settleArrival o s = s := by
  rw [settleArrival, if_neg]
  rw [hasArrived, none]
  exact Bool.false_ne_true

/-! ## Endings that leave an owner alone -/

/-- From `s` to `t` an owner's slot or entry stands, and the groups are bound to it as before. -/
structure Spares (o : Owner) (s t : Part) : Prop where
  entry : ownerEntry t o = ownerEntry s o
  binding : ∀ g, (s.groups.get g).binding = some o → (t.groups.get g).binding = some o

theorem Spares.refl (o : Owner) (s : Part) : Spares o s s := ⟨rfl, fun _ => id⟩

theorem Spares.trans {o : Owner} {s t u : Part} (h : Spares o s t) (k : Spares o t u) : Spares o s u :=
  ⟨k.entry.trans h.entry, fun g => k.binding g ∘ h.binding g⟩

theorem Spares.ite {o : Owner} {s a b : Part} {c : Prop} [Decidable c] (ha : Spares o s a) (hb : Spares o s b) :
    Spares o s (if c then a else b) := by
  split
  · exact ha
  · exact hb

theorem Spares.find {r : Rig} {id : Nat} {ganged : Bool} {s t : Part} (h : Spares (.command r id ganged) s t) :
    (t.port.get r).find id = (s.port.get r).find id := Sum.inl.inj h.entry

theorem Port.find_setPhase (p : Port) (id : Nat) (ph : Phase) :
    (p.setPhase id ph).find id = (p.find id).map fun h => { h with phase := ph } := by
  unfold Port.find Port.setPhase
  induction p.slots with
  | nil => rfl
  | cons h l ih =>
    by_cases own : h.id = id
    · simp [own]
    · simpa [own] using ih

theorem Port.find_setPhase_other (p : Port) {id k : Nat} (ph : Phase) (other : k ≠ id) :
    (p.setPhase id ph).find k = p.find k := by
  unfold Port.find Port.setPhase
  induction p.slots with
  | nil => rfl
  | cons h l ih =>
    by_cases own : h.id = id
    · simpa [own, other.symm] using ih
    · by_cases hit : h.id = k
      · simp [hit, other]
      · simpa [own, hit] using ih

theorem setPhase_find {s : Part} {r : Rig} {id : Nat} {h : Held} (found : (s.port.get r).find id = some h) (ph : Phase) :
    ((setPhase r id ph s).port.get r).find id = some { h with phase := ph } := by
  rw [setPhase_port, if_pos rfl, Port.find_setPhase, found]
  rfl

theorem unbind_spares {o p : Owner} (other : p ≠ o) (s : Part) : Spares o s (unbind p s) := by
  refine ⟨by cases o <;> rfl, fun g bound => ?_⟩
  rw [unbind_binding, bound, if_neg (fun e => other (Option.some.inj e).symm)]

theorem setPhase_spares {o : Owner} {r : Rig} {id : Nat} {ganged : Bool} (apart : (Owner.command r id ganged).apart o)
    (ph : Phase) (s : Part) : Spares o s (setPhase r id ph s) := by
  refine ⟨?_, fun _ bound => bound⟩
  cases o with
  | proposal ref => rfl
  | command x k other =>
    rw [ownerEntry, ownerEntry, setPhase_port]
    split
    next own => rw [Port.find_setPhase_other _ _ fun e => apart ⟨own.symm, e.symm⟩]
    next => rfl

theorem respond_spares {o : Owner} {r : Rig} {id : Nat} {ganged : Bool} (apart : (Owner.command r id ganged).apart o)
    (st : Status) (i : Nat) (results : List Byte) (s : Part) : Spares o s (respond r id st i results s) := by
  refine ⟨?_, fun _ bound => bound⟩
  cases o with
  | proposal ref => rfl
  | command x k other =>
    rw [ownerEntry, ownerEntry, respond_port]
    split
    next own => rw [Port.respond_find _ _ _ _ _ fun e => apart ⟨own.symm, e.symm⟩]
    next => rfl

theorem board_spares {o : Owner} {ref : Fin 8} (apart : (Owner.proposal ref).apart o) (e : BoardEntry)
    (a : List AnswerMsg) (s : Part) :
    Spares o s { s with gang := { s.gang with board := s.gang.board.set ref e, answers := a } } := by
  refine ⟨?_, fun _ => id⟩
  cases o with
  | command r id ganged => rfl
  | proposal k => exact congrArg Sum.inr (Tbl.get_set_other _ _ (Ne.symm apart))

theorem Owner.ne_of_apart {p o : Owner} (h : p.apart o) : p ≠ o := fun e => o.not_apart_self (e ▸ h)

theorem endOwner_spares {o p : Owner} (apart : p.apart o) (st : Status) (results : List Byte) (s : Part) :
    Spares o s (endOwner p st results s) := by
  have other : p ≠ o := Owner.ne_of_apart apart
  cases p with
  | command r id ganged =>
    have ended (m : MoveCmd) : Spares o s (unbind (.command r id ganged) (setPhase r id (.move m) s)) :=
      (setPhase_spares apart _ s).trans (unbind_spares other _)
    unfold endOwner
    dsimp only
    split
    · exact .refl o s
    · split
      · exact .refl o s
      · exact .ite (.refl o s) (.ite ((ended _).trans (respond_spares apart _ _ _ _)) (ended _))
  | proposal ref =>
    unfold endOwner
    dsimp only
    split
    · exact (board_spares apart _ _ s).trans (unbind_spares other _)
    all_goals exact .refl o s

/-- Ending `p` leaves `o` alone: they are apart, or nothing of `p` is there to end. -/
def Harmless (s : Part) (o p : Owner) : Prop := p.apart o ∨ ownerRun s p = none

theorem Spares.harmless {o p : Owner} {s t : Part} (h : Spares o s t) (k : Harmless s o p) : Harmless t o p := by
  by_cases apart : p.apart o
  · exact .inl apart
  · rcases k with k | k
    · exact absurd k apart
    · exact .inr ((ownerRun_congr apart h.entry).trans k)

theorem supersede_spares {s : Part} {o p : Owner} (h : Harmless s o p) (g : Fin 16) : Spares o s (supersede p g s) := by
  rcases h with apart | none
  · unfold supersede
    split
    · exact endOwner_spares apart _ _ _
    · exact .refl o s
  · rw [supersede_of_none none]
    exact .refl o s

theorem settleArrival_spares {s : Part} {o p : Owner} (h : Harmless s o p) : Spares o s (settleArrival p s) := by
  rcases h with apart | none
  · unfold settleArrival
    refine .ite ?_ (.refl o s)
    split
    · exact endOwner_spares apart _ _ _
    · exact .refl o s
  · rw [settleArrival_of_none none]
    exact .refl o s

/-- No other owner is there in the slot of `o`. -/
def Lone (s : Part) (o : Owner) : Prop := ∀ p, p ≠ o → Harmless s o p

/-- R119: a command that has not been split. -/
theorem lone_command {s : Part} {r : Rig} {id : Nat} {h : Held} {req : MoveReq} {own : Option MovePart}
    {first : Option (Status × List Byte)} (found : (s.port.get r).find id = some h)
    (phase : h.phase = .move ⟨req, own, none, first⟩) : Lone s (.command r id false) := by
  intro p other
  cases p with
  | proposal ref => exact .inl trivial
  | command x k ganged =>
    by_cases sibling : x = r ∧ k = id
    · obtain ⟨rfl, rfl⟩ := sibling
      cases ganged with
      | false => exact absurd rfl other
      | true => exact .inr (ownerRun_of_find found phase true)
    · exact .inl sibling

theorem lone_proposal (s : Part) (ref : Fin 8) : Lone s (.proposal ref) := by
  intro p other
  cases p with
  | command r id ganged => exact .inl trivial
  | proposal k => exact .inl fun e => other (congrArg _ e)

/-! ## The owner that ends (R102, R103, R131) -/

theorem Port.find_respond (p : Port) {id : Nat} {h : Held} (found : p.find id = some h) (open' : h.phase ≠ .done)
    (st : Status) (i : Nat) (results : List Byte) : (p.respond id st i results).find id = some { h with phase := .done } := by
  have slots : (p.respond id st i results).slots = (p.setPhase id .done).slots := by simp [Port.respond, found, open']
  rw [Port.find, slots]
  exact (p.find_setPhase id .done).trans (by rw [found]; rfl)

theorem unbind_free (o : Owner) (s : Part) (g : Fin 16) : ((unbind o s).groups.get g).binding ≠ some o := by
  rw [unbind_binding]
  split
  · nofun
  · assumption

/-- An owner's command is answered, and no group is bound to it. -/
def Answered (r : Rig) (a : Response) (o : Owner) (s : Part) : Prop :=
  a ∈ (s.port.get r).responses ∧ ∀ g, (s.groups.get g).binding ≠ some o

theorem Ending.answered {s t : Part} {r : Rig} {a : Response} {o : Owner} (h : Ending s t) (k : Answered r a o s) :
    Answered r a o t := ⟨(h.responses r).subset k.1, fun g bound => k.2 g (h.binding g o bound)⟩

/-- R152: the outcome of a command whose one part ends. -/
theorem endPart_outcome (req : MoveReq) (part : MovePart) (st : Status) (results : List Byte) :
    (MoveCmd.endPart ⟨req, some part, none, none⟩ false part st results).outcome = (st, results) := by
  by_cases ok : st = .ok <;> simp [MoveCmd.endPart, MoveCmd.setPart, MoveCmd.outcome, partResults, ok]

theorem endPart_ended (req : MoveReq) (part : MovePart) (st : Status) (results : List Byte) :
    (partEnded (MoveCmd.endPart ⟨req, some part, none, none⟩ false part st results).own &&
      partEnded (MoveCmd.endPart ⟨req, some part, none, none⟩ false part st results).gang) = true := by
  by_cases ok : st = .ok <;> simp [MoveCmd.endPart, MoveCmd.setPart, partEnded, Stage.isEnded, ok]

section
variable {s : Part} {r : Rig} {id : Nat} {h : Held} {req : MoveReq} {part : MovePart}
  (found : (s.port.get r).find id = some h) (phase : h.phase = .move ⟨req, some part, none, none⟩)
  (live : part.stage.isEnded = false)
include found phase live

theorem endOwner_command (st : Status) (results : List Byte) : endOwner (.command r id false) st results s =
    respond r id st 0 results (unbind (.command r id false)
      (setPhase r id (.move (MoveCmd.endPart ⟨req, some part, none, none⟩ false part st results)) s)) := by
  have own : MoveCmd.part ⟨req, some part, none, none⟩ false = some part := rfl
  simp only [endOwner, moveOf_of_find found phase, own, live, Bool.false_eq_true, if_false, endPart_ended, endPart_outcome,
    if_true]

theorem endOwner_port (st : Status) (results : List Byte) : (endOwner (.command r id false) st results s).port.get r =
    ((setPhase r id (.move (MoveCmd.endPart ⟨req, some part, none, none⟩ false part st results)) s).port.get r).respond
      id st 0 results := by
  rw [endOwner_command found phase live, respond_port, if_pos rfl]
  rfl

/-- A command that has completed has no part left. -/
theorem endOwner_run (st : Status) (results : List Byte) (ganged : Bool) :
    ownerRun (endOwner (.command r id false) st results s) (.command r id ganged) = none := by
  rw [ownerRun, moveOf, endOwner_port found phase live, Port.find_respond _ (setPhase_find found _) (by nofun)]

/-- R131: a command whose one part ends completes. -/
theorem endOwner_answered (st : Status) (results : List Byte) :
    Answered r ⟨id, h.tag, h.code, st, 0, results⟩ (.command r id false) (endOwner (.command r id false) st results s) := by
  constructor
  · rw [endOwner_port found phase live, Port.respond_responses _ _ _ _ _ (setPhase_find found _) (by nofun)]
    exact List.mem_append_right _ List.mem_cons_self
  · rw [endOwner_command found phase live]
    exact unbind_free _ _
end

/-- R120: a held proposal that ends is answered on the board, and its ANSWER is queued. -/
theorem endOwner_board {s : Part} {ref : Fin 8} {round : Bool} {req : MoveReq} {part : MovePart}
    (held : s.gang.board.get ref = ⟨round, .held req part⟩) (st : Status) (results : List Byte) :
    (endOwner (.proposal ref) st results s).gang.board.get ref = ⟨round, .answered st⟩ ∧
      ⟨ref, round, st⟩ ∈ (endOwner (.proposal ref) st results s).gang.answers := by
  have queued (q : List AnswerMsg) (a : AnswerMsg) : a ∈ pushAnswer q a := by
    unfold pushAnswer
    split
    next old =>
      obtain ⟨x, mem, ref⟩ := List.any_eq_true.mp old
      exact List.mem_map.mpr ⟨x, mem, if_pos ref⟩
    next => exact List.mem_append_right _ List.mem_cons_self
  have gang : (endOwner (.proposal ref) st results s).gang = { s.gang with
      board := s.gang.board.set ref { s.gang.board.get ref with state := .answered st }
      answers := pushAnswer s.gang.answers ⟨ref, (s.gang.board.get ref).round, st⟩ } := by
    rw [endOwner, held]
    rfl
  rw [gang, held]
  exact ⟨Tbl.get_set_self _ _ _, queued _ _⟩

end Sys2Proof.Machine
end


section
/-! Events that name one group's part of the work: a fade that completes, a return-hold timer that reaches the hold, a MOVE that
starts (R91, R99, R102, R103, R107, R116, R118; log 1). -/

namespace Sys2Proof.Machine

/-- A fold reaches `Q` at the element `a`: the elements before it keep `P`, the later ones keep `Q`. -/
theorem foldl_reaches {α β : Type} {f : β → α → β} {P Q : β → Prop} {a : α} (before : ∀ b x, x ≠ a → P b → P (f b x))
    (reached : ∀ b, P b → Q (f b a)) (after : ∀ b x, Q b → Q (f b x)) {l : List α} (mem : a ∈ l) {b : β} (hb : P b) :
    Q (l.foldl f b) := by
  induction l generalizing b with
  | nil => cases mem
  | cons x l ih =>
    by_cases own : x = a
    · subst own
      have kept (m : List α) {c : β} (hc : Q c) : Q (m.foldl f c) := by
        induction m generalizing c with
        | nil => exact hc
        | cons y m step => exact step (after c y hc)
      exact kept l (reached b hb)
    · exact ih ((List.mem_cons.mp mem).resolve_left (Ne.symm own)) (before b x own hb)

/-! ## Bound groups that have arrived (R102) -/

/-- An executed command that has not been split, all of whose bound groups are steady on its target. -/
structure Arrived (r : Rig) (id : Nat) (h : Held) (target : End) (s : Part) : Prop where
  found : (s.port.get r).find id = some h
  steady : ∀ g, (s.groups.get g).binding = some (.command r id false) → (s.groups.get g).course = .steady target

section
variable {s : Part} {r : Rig} {id : Nat} {h : Held} {req : MoveReq} {mask bound : Half} {frame : Word}
  (phase : h.phase = .move ⟨req, some ⟨mask, .executed bound frame⟩, none, none⟩)
include phase

/-- R102, R131: the last of its bound groups has arrived. -/
theorem settleArrival_answered (k : Arrived r id h req.target s) :
    Answered r ⟨id, h.tag, h.code, .ok, 0, be16 bound ++ be32 frame⟩ (.command r id false)
      (settleArrival (.command r id false) s) := by
  have run : ownerRun s (.command r id false) = some (req, ⟨mask, .executed bound frame⟩) :=
    ownerRun_of_find k.found phase false
  have arrived : hasArrived s (.command r id false) = true := by
    simp only [hasArrived, run, List.all_eq_true, Bool.or_eq_true, bne_iff_ne, beq_iff_eq]
    intro g _
    by_cases bound : (s.groups.get g).binding = some (.command r id false)
    · exact .inr (k.steady g bound)
    · exact .inl bound
  have settled : settleArrival (.command r id false) s = endOwner (.command r id false) .ok (be16 bound ++ be32 frame) s := by
    rw [settleArrival, if_pos arrived, ownerStage, run]
    rfl
  rw [settled]
  exact endOwner_answered k.found phase rfl _ _

/-- R102: a command completes once its bound groups have arrived. -/
theorem settleArrivals_answered (k : Arrived r id h req.target s) {g : Fin 16}
    (held : (s.groups.get g).binding = some (.command r id false)) :
    Answered r ⟨id, h.tag, h.code, .ok, 0, be16 bound ++ be32 frame⟩ (.command r id false) (settleArrivals s) := by
  have mem : Owner.command r id false ∈ boundOwners s :=
    List.mem_dedup.mpr (List.mem_filterMap.mpr ⟨g, List.mem_finRange g, held⟩)
  refine foldl_reaches (f := fun u o => settleArrival o u) (P := Arrived r id h req.target) (fun u p other ku => ?_)
    (fun u ku => settleArrival_answered phase ku) (fun u p => (settleArrival_ending p u).answered) mem k
  have spares : Spares (.command r id false) u (settleArrival p u) :=
    settleArrival_spares (lone_command ku.found phase p other)
  have ending := settleArrival_ending p u
  exact ⟨spares.find.trans ku.found, fun x bound => (ending.course x).trans (ku.steady x (ending.binding x _ bound))⟩
end

/-! ## A fade that completes (R91, R107) -/

/-- The part in which a group's fade has reached L and raised DONE. -/
def fadedAt (g : Fin 16) (f : Fade) (s : Part) : Part :=
  raise (doneNotice g f) (s.setGroup g { s.groups.get g with course := .steady f.kind.dst })

theorem setGroup_setGroup (g : Fin 16) (q r : GroupRec) (s : Part) : (s.setGroup g q).setGroup g r = s.setGroup g r := by
  simp [Part.setGroup, Tbl.set]

theorem completeFade_of_full {g : Fin 16} {f : Fade} {s : Part} (fading : (s.groups.get g).course = .fading f)
    (full : f.len ≤ f.q) : completeFade g s = fadedAt g f s := by
  rw [completeFade, fading]
  exact if_pos full

theorem exec_fadeComplete {g : Fin 16} {f : Fade} {s : State} (running : s.inReset = false)
    (fading : (s.groups.get g).course = .fading f) (last : f.len ≤ f.q + 1) :
    exec (.fadeComplete g) s = .next (s.withPart (settleArrivals (fadedAt g f s.toPart))) := by
  refine (exec_of_running rfl running).trans (congrArg (fun p => Host.Outcome.next (s.withPart p)) ?_)
  have full : f.len ≤ rise f.q f.len := by unfold rise; omega
  have ticked : ((s.toPart.setGroup g { s.groups.get g with course := .fading { f with q := rise f.q f.len } }).groups.get
      g).course = .fading { f with q := rise f.q f.len } := by rw [setGroup_groups, Tbl.get_set_self]
  simp only [fading, if_pos last, Course.tick]
  rw [completeFade_of_full ticked full, fadedAt, setGroup_setGroup, setGroup_groups, Tbl.get_set_self]
  rfl

theorem fadedAt_record (g k : Fin 16) (f : Fade) (s : Part) : (fadedAt g f s).groups.get k =
    if k = g then { s.groups.get k with course := .steady f.kind.dst } else s.groups.get k := by
  refine (Tbl.get_set _ _ _ _).trans ?_
  split
  next own => rw [own]
  next => rfl

/-- Settles O24. -/
theorem fadeCompletes : Obligations.FadeCompletes := by
  intro g f s running fading last within
  have ending := settleArrivals_ending (fadedAt g f s.toPart)
  refine ⟨_, exec_fadeComplete running fading last, ?_, ending.raised (raised_raise _ _), fun k other => ?_, ?_⟩
  · rw [State.toPart_withPart, ending.course, fadedAt_record, if_pos rfl]
  · rw [State.toPart_withPart, ending.course, fadedAt_record, if_neg other]
  intro r id h req mask bound frame own found phase target steady
  have binding (k : Fin 16) : ((fadedAt g f s.toPart).groups.get k).binding = (s.groups.get k).binding := by
    rw [fadedAt_record]
    split <;> rfl
  have arrived : Arrived r id h req.target (fadedAt g f s.toPart) := by
    refine ⟨((raise_answersStand _ _).find r id).trans found, fun k held => ?_⟩
    rw [binding] at held
    rw [fadedAt_record]
    split
    next => rw [target]
    next other => exact steady k other held
  obtain ⟨answer, free⟩ := settleArrivals_answered phase arrived ((binding g).trans own)
  exact ⟨free, _, answer, rfl, rfl, rfl, rfl⟩

/-! ## A group that goes elsewhere (R103) -/

/-- R103: a group bound to an executed command whose target is not its destination. -/
theorem supersedeIfElsewhere_answered {s : Part} {g : Fin 16} {r : Rig} {id : Nat} {h : Held} {req : MoveReq}
    {mask bound : Half} {frame : Word} (found : (s.port.get r).find id = some h)
    (phase : h.phase = .move ⟨req, some ⟨mask, .executed bound frame⟩, none, none⟩)
    (held : (s.groups.get g).binding = some (.command r id false)) (elsewhere : (s.groups.get g).course.dest ≠ req.target) :
    Answered r ⟨id, h.tag, h.code, .superseded, 0, be16 bound ++ be32 frame ++ be8 g.val⟩ (.command r id false)
      (supersedeIfElsewhere g s) := by
  have run : ownerRun s (.command r id false) = some (req, ⟨mask, .executed bound frame⟩) :=
    ownerRun_of_find found phase false
  have superseded : supersedeIfElsewhere g s =
      endOwner (.command r id false) .superseded (be16 bound ++ be32 frame ++ be8 g.val) s := by
    simp only [supersedeIfElsewhere, held, run, if_pos elsewhere, supersede_of_run run]
    rfl
  rw [superseded]
  exact endOwner_answered found phase rfl _ _

theorem supersedeIfElsewhere_of_there {s : Part} {g : Fin 16} {o : Owner} {req : MoveReq} {part : MovePart}
    (held : (s.groups.get g).binding = some o) (run : ownerRun s o = some (req, part))
    (there : (s.groups.get g).course.dest = req.target) : supersedeIfElsewhere g s = s := by
  simp [supersedeIfElsewhere, held, run, there]

/-! ## The return-hold timer (R99) -/

/-- R90: the fade home of a group that is steady on the other rig. -/
def homeFade (s : Part) (e : GroupEntry) (kind : FadeKind) : Fade where
  kind := kind
  q := 0
  len := fadeLength e.fade
  law := e.law
  reason := .autoReturn
  unaligned := kind.crossesRigs && e.requireAlign && !alignMet s
  q0 := 0

/-- R98, R99: the record of a group that has begun its fade home. -/
def returnedRecord (s : Part) (e : GroupEntry) (r : GroupRec) (kind : FadeKind) : GroupRec :=
  { r with course := .fading (homeFade s e kind), failedOver := false, holdTimer := 0, darkByRequest := false }

theorem between_home (x : Rig) : ∃ kind, FadeKind.between (.rig x.other) (.rig x) = some kind ∧ kind.src = .rig x.other ∧
    kind.dst = .rig x := by
  obtain ⟨kind, way, src, dst, -⟩ := between_other x.other
  rw [Rig.other_other] at way dst
  exact ⟨kind, way, src, dst⟩

theorem transition_home {s : Part} {g : Fin 16} {e : GroupEntry} (entry : groupEntry s g = e) {r : GroupRec} {kind : FadeKind}
    (way : FadeKind.between (.rig e.home.other) (.rig e.home) = some kind) (steady : r.course = .steady (.rig e.home.other)) :
    transition s g r (.rig e.home) .autoReturn = ⟨returnedRecord s e r kind, some (homeFade s e kind)⟩ := by
  subst entry
  have turned : turn r.course (.rig (groupEntry s g).home) (fadeLength (groupEntry s g).fade) (groupEntry s g).law =
      some (kind, 0, fadeLength (groupEntry s g).fade, (groupEntry s g).law) := by rw [steady, turn, way]; rfl
  have home : (End.rig (groupEntry s g).home == End.rig (groupEntry s g).home.other) = false := by
    cases (groupEntry s g).home <;> decide
  unfold transition
  dsimp only
  rw [turned, home]
  rfl

/-- R99: the count of a failed-over group whose home is usable. -/
theorem countHold_usable {s : Part} {g : Fin 16} {r : GroupRec} (failed : r.failedOver = true)
    (usable : rigUsable s g (groupEntry s g).home = true) :
    countHold s g r = { r with holdTimer := min (r.holdTimer + 1) 65535 } := by
  rw [countHold, if_pos failed, if_pos usable]
  rfl

/-- R99, R100: the conditions of a return. -/
def Returns (s : Part) (g : Fin 16) (e : GroupEntry) (r : GroupRec) : Prop :=
  r.course = .steady (.rig e.home.other) ∧ r.failedOver = true ∧ rigUsable s g e.home = true ∧
    (e.requireAlign = true → alignMet s = true) ∧
    ((e.policy = .returnHold ∧ e.hold.toNat ≤ min (r.holdTimer + 1) 65535) ∨
      (e.policy = .returnAtStop ∧ s.tracker.inForce.bothStopped = true))

/-- R99, R100: whether a group returns, by its record before the count. -/
theorem returnsHome_iff {s : Part} {g : Fin 16} {r : GroupRec} :
    returnsHome s g (countHold s g r) = true ↔ Returns s g (groupEntry s g) r := by
  unfold Returns
  by_cases failed : r.failedOver = true
  · by_cases ok : rigUsable s g (groupEntry s g).home = true
    · rw [countHold_usable failed ok]
      simp only [returnsHome, failed, ok, Bool.true_and, Bool.and_true, Bool.and_eq_true, beq_iff_eq, true_and, and_assoc]
      refine and_congr_right fun _ => and_congr ?_ ?_
      · cases (groupEntry s g).requireAlign <;> simp
      · cases (groupEntry s g).policy <;> simp
    · simp [returnsHome, ok]
  · have counted : countHold s g r = r := if_neg failed
    simp [returnsHome, counted, failed]

/-- R99: the conditions of the event, alignment apart. -/
structure HoldReached (s : Part) (g : Fin 16) (e : GroupEntry) (r : GroupRec) : Prop where
  entry : groupEntry s g = e
  record : s.groups.get g = r
  auto : e.mode = .auto
  policy : e.policy = .returnHold
  failed : r.failedOver = true
  started : r.startPending = false
  notLed : isLed s g = false
  usable : rigUsable s g e.home = true
  reached : e.hold.toNat ≤ min (r.holdTimer + 1) 65535
  steady : r.course = .steady (.rig e.home.other)

section
variable {s : Part} {g : Fin 16} {e : GroupEntry} {r : GroupRec} (due : HoldReached s g e r)
include due

/-- R99: the event acts, and returns the group where alignment allows. -/
theorem HoldReached.acts : e.mode = .auto ∧ e.policy = .returnHold ∧ r.failedOver = true ∧ r.startPending = false ∧
    isLed s g = false ∧ e.hold.toNat ≤ (countHold s g r).holdTimer := by
  obtain ⟨rfl, -, auto, policy, failed, started, notLed, usable, reached, -⟩ := due
  exact ⟨auto, policy, failed, started, notLed, by rwa [countHold_usable failed usable]⟩

theorem HoldReached.returns (aligned : e.requireAlign = true → alignMet s = true) :
    returnsHome s g (countHold s g r) = true := by
  obtain ⟨rfl, -, -, policy, failed, -, -, usable, reached, steady⟩ := due
  exact returnsHome_iff.mpr ⟨steady, failed, usable, aligned, .inl ⟨policy, reached⟩⟩

/-- R99: where alignment does not allow the return, the timer counts on. -/
theorem HoldReached.counts (required : e.requireAlign = true) (unmet : alignMet s = false) :
    returnHold g s = s.setGroup g { r with holdTimer := min (r.holdTimer + 1) 65535 } := by
  have acts := due.acts
  obtain ⟨rfl, rfl, -, -, failed, -, -, usable, -, -⟩ := due
  have stays : ¬returnsHome s g (countHold s g (s.groups.get g)) = true := fun returns => by
    obtain ⟨-, -, -, aligned, -⟩ := returnsHome_iff.mp returns
    rw [aligned required] at unmet
    cases unmet
  refine (if_pos acts).trans ((if_neg stays).trans ?_)
  rw [countHold_usable failed usable]

/-- The part in which the group has begun its fade home, before what it supersedes. -/
def homewardPart (s : Part) (g : Fin 16) (e : GroupEntry) (r : GroupRec) (kind : FadeKind) : Part :=
  announce g (homeFade s e kind) (s.setGroup g (returnedRecord s e r kind))

theorem HoldReached.begins {kind : FadeKind} (way : FadeKind.between (.rig e.home.other) (.rig e.home) = some kind)
    (aligned : e.requireAlign = true → alignMet s = true) :
    returnHold g s = supersedeIfElsewhere g (homewardPart s g e r kind) := by
  have acts := due.acts
  have returns := due.returns aligned
  have steady : (countHold s g r).course = .steady (.rig e.home.other) := by rw [countHold_course, due.steady]
  have counted : returnedRecord s e (countHold s g r) kind = returnedRecord s e r kind := by
    unfold countHold
    split <;> rfl
  have gone := transition_home due.entry way steady
  obtain ⟨rfl, rfl, -⟩ := due
  refine (if_pos acts).trans ((if_pos returns).trans ?_)
  dsimp only
  rw [gone, counted]
  rfl
end

/-- R116: a MOVE that is queued stands in the queue. -/
theorem mem_queueMove (m : MoveMsg) (s : Part) : m ∈ (queueMove m s).gang.moves := by
  have moves : (queueMove m s).gang.moves = if s.gang.moves.any fun x => x.group == m.group then
      s.gang.moves.map fun x => if x.group == m.group then m else x else s.gang.moves ++ [m] := rfl
  rw [moves]
  split
  next unsent =>
    obtain ⟨x, mem, own⟩ := List.any_eq_true.mp unsent
    exact List.mem_map.mpr ⟨x, mem, if_pos own⟩
  next => exact List.mem_append_right _ List.mem_cons_self

theorem announce_raised (g : Fin 16) (f : Fade) (s : Part) : raised (announce g f s) (begunNotice g f) := by
  unfold announce
  dsimp only
  split
  · exact raised_raise (begunNotice g f) s
  · exact raised_raise (begunNotice g f) s

theorem announce_leading {g : Fin 16} {f : Fade} {s : Part} (leading : isLeading s g = true) : announce g f s =
    queueMove (transitionMove (raise (begunNotice g f) s) g f) (raise (begunNotice g f) s) := if_pos leading

theorem announce_other {g : Fin 16} {f : Fade} {s : Part} (other : isLeading s g = false) :
    announce g f s = raise (begunNotice g f) s := if_neg (ne_true_of_eq_false other)

theorem announce_answersStand (g : Fin 16) (f : Fade) (s : Part) : AnswersStand s (announce g f s) := by
  unfold announce
  dsimp only
  split
  · exact (raise_answersStand _ s).trans ((queueMove_same _ _).answersStand rfl)
  · exact raise_answersStand _ s

section
variable (s : Part) (g : Fin 16) (e : GroupEntry) (r : GroupRec) (kind : FadeKind)

theorem homewardPart_record : (homewardPart s g e r kind).groups.get g = returnedRecord s e r kind := by
  have groups : (homewardPart s g e r kind).groups = (s.setGroup g (returnedRecord s e r kind)).groups :=
    (announce_same _ _ _).get .groups rfl
  rw [groups, setGroup_groups, Tbl.get_set_self]

/-- R116: on a leader in UP the transition of a matched group queues its MOVE. -/
theorem homewardPart_move (leading : isLeading s g = true) :
    (⟨g, kind.src, kind.dst, e.law, fadeLength e.fade, min 48 (fadeLength e.fade), s.clock.frame + 2#32,
      (homeFade s e kind).unaligned, false, false⟩ : MoveMsg) ∈ (homewardPart s g e r kind).gang.moves := by
  have own : (raise (begunNotice g (homeFade s e kind)) (s.setGroup g (returnedRecord s e r kind))).groups.get g =
      returnedRecord s e r kind := Tbl.get_set_self _ _ _
  have move : transitionMove (raise (begunNotice g (homeFade s e kind)) (s.setGroup g (returnedRecord s e r kind))) g
      (homeFade s e kind) = ⟨g, kind.src, kind.dst, e.law, fadeLength e.fade, min 48 (fadeLength e.fade),
        s.clock.frame + 2#32, (homeFade s e kind).unaligned, false, false⟩ := by
    rw [transitionMove, own]
    rfl
  rw [homewardPart, announce_leading (s := s.setGroup g (returnedRecord s e r kind)) leading, ← move]
  exact mem_queueMove _ _

theorem homewardPart_gang (leading : isLeading s g = false) : (homewardPart s g e r kind).gang = s.gang := by
  rw [homewardPart, announce_other (s := s.setGroup g (returnedRecord s e r kind)) leading]
  rfl
end

/-- Settles O26. -/
theorem returnHolds : Obligations.ReturnHold := by
  intro g s e r running entry record auto policy failed started notLed usable spare unasked reached steady
  have due : HoldReached s.toPart g e r := ⟨entry, record, auto, policy, failed, started, notLed, usable, reached, steady⟩
  refine ⟨fun aligned => ?_, fun required unmet => ?_⟩
  · obtain ⟨kind, way, src, dst⟩ := between_home e.home
    have ending := supersedeIfElsewhere_ending g (homewardPart s.toPart g e r kind)
    have fields := ending.record g
    rw [homewardPart_record] at fields
    obtain ⟨course, failedOver, holdTimer, -⟩ := unbound_fields fields
    have begun := ending.raised (announce_raised g (homeFade s.toPart e kind) _)
    simp only [begunNotice, homeFade, src, dst] at begun
    have expired : exec (.returnHoldExpiry g) s =
        .next (s.withPart (supersedeIfElsewhere g (homewardPart s.toPart g e r kind))) := by
      rw [← due.begins way aligned]
      exact exec_of_running rfl running
    refine ⟨_, homeFade s.toPart e kind, expired, course, src, dst, rfl, rfl, rfl, rfl, failedOver, holdTimer, begun,
      fun leading => ?_, fun leading => ?_, fun p id h req mask bound frame held found phase elsewhere => ?_⟩
    · have queued := homewardPart_move s.toPart g e r kind leading
      rw [src, dst] at queued
      rw [State.toPart_withPart, ending.moves]
      exact queued
    · rw [State.toPart_withPart, ending.moves, homewardPart_gang _ _ _ _ _ leading]
    · have kept : ((homewardPart s.toPart g e r kind).port.get p).find id = some h :=
        ((announce_answersStand g _ _).find p id).trans found
      refine supersedeIfElsewhere_answered kept phase ?_ ?_
      · rw [homewardPart_record]
        exact held
      · rw [homewardPart_record]
        exact fun there => elsewhere (there.symm.trans dst)
  · refine (exec_of_running (f := returnHold g) rfl running).trans ?_
    rw [due.counts required unmet]
    rfl

/-! ## A MOVE that starts (R118) -/

theorem between_of_ne {x n : End} (other : x ≠ n) :
    ∃ kind, FadeKind.between x n = some kind ∧ kind.src = x ∧ kind.dst = n := by
  match x, n with
  | .rig .A, .rig .B => exact ⟨.aToB, rfl, rfl, rfl⟩
  | .rig .B, .rig .A => exact ⟨.bToA, rfl, rfl, rfl⟩
  | .rig .A, .dark => exact ⟨.aToDark, rfl, rfl, rfl⟩
  | .rig .B, .dark => exact ⟨.bToDark, rfl, rfl, rfl⟩
  | .dark, .rig .A => exact ⟨.darkToA, rfl, rfl, rfl⟩
  | .dark, .rig .B => exact ⟨.darkToB, rfl, rfl, rfl⟩
  | .rig .A, .rig .A => exact absurd rfl other
  | .rig .B, .rig .B => exact absurd rfl other
  | .dark, .dark => exact absurd rfl other

/-- The part in which a MOVE is no longer pending and its group has taken its course, flags and timer. -/
def movedPart (m : MoveMsg) (c : Course) (s : Part) : Part :=
  Part.setGroup { s with gang := { s.gang with pending := s.gang.pending.set m.group none } } m.group
    (movedRecord m c (s.groups.get m.group))

/-- R118: the fade in which a MOVE starts. -/
def moveFade (m : MoveMsg) (count : Word) (kind : FadeKind) : Fade :=
  ⟨kind, moveProgress m count, m.len, m.law, .gang, m.unaligned, moveProgress m count⟩

section
variable {m : MoveMsg} {s : Part}

theorem startMove_begins {kind : FadeKind} (early : moveProgress m s.clock.frame < m.len)
    (way : FadeKind.between m.src m.dst = some kind) : startMove m s = supersedeIfElsewhere m.group
      (raise (begunNotice m.group (moveFade m s.clock.frame kind))
        (movedPart m (.fading (moveFade m s.clock.frame kind)) s)) := by
  unfold startMove
  simp only [if_pos early, way]
  rfl

theorem startMove_arrives
    (late : (if moveProgress m s.clock.frame < m.len then FadeKind.between m.src m.dst else none) = none) :
    startMove m s = supersedeIfElsewhere m.group (if (s.groups.get m.group).course = .steady m.dst
      then movedPart m (.steady m.dst) s else raise (moveDone m) (movedPart m (.steady m.dst) s)) := by
  unfold startMove
  simp only [late]
  rfl

/-- From `s` to `t` a MOVE has given its group a course, with the flags and the timer that go with it. -/
structure Moved (m : MoveMsg) (c : Course) (s t : Part) : Prop where
  record : ∀ k, (t.groups.get k).unbound = ((movedPart m c s).groups.get k).unbound
  pending : t.gang.pending = s.gang.pending.set m.group none

theorem Ending.moved {c : Course} {t u : Part} (h : Ending t u) (groups : t.groups = (movedPart m c s).groups)
    (gang : t.gang = (movedPart m c s).gang) : Moved m c s u :=
  ⟨fun k => by rw [h.record, groups], by rw [h.gang, gang]; rfl⟩

theorem Moved.ending {c : Course} {t u : Part} (k : Moved m c s t) (h : Ending t u) : Moved m c s u :=
  ⟨fun g => (h.record g).trans (k.record g), by rw [h.gang, ← k.pending]⟩

/-- R107, R118: short of L the group fades on and raises BEGUN. -/
theorem startMove_fading {kind : FadeKind} (early : moveProgress m s.clock.frame < m.len)
    (way : FadeKind.between m.src m.dst = some kind) :
    Moved m (.fading (moveFade m s.clock.frame kind)) s (startMove m s) ∧
      raised (startMove m s) (begunNotice m.group (moveFade m s.clock.frame kind)) := by
  rw [startMove_begins early way]
  have ending := supersedeIfElsewhere_ending m.group (raise (begunNotice m.group (moveFade m s.clock.frame kind))
    (movedPart m (.fading (moveFade m s.clock.frame kind)) s))
  exact ⟨ending.moved rfl rfl, ending.raised (raised_raise _ _)⟩

/-- R118: at or beyond L, and where the two ends are one, the group is steady at once. -/
theorem startMove_steady
    (late : (if moveProgress m s.clock.frame < m.len then FadeKind.between m.src m.dst else none) = none) :
    Moved m (.steady m.dst) s (startMove m s) := by
  rw [startMove_arrives late]
  split
  · exact (supersedeIfElsewhere_ending _ _).moved rfl rfl
  · exact (supersedeIfElsewhere_ending _ _).moved rfl rfl

theorem startMove_moved (m : MoveMsg) (s : Part) : ∃ c, Moved m c s (startMove m s) := by
  by_cases early : moveProgress m s.clock.frame < m.len
  · cases way : FadeKind.between m.src m.dst with
    | none => exact ⟨_, startMove_steady (by rw [if_pos early, way])⟩
    | some kind => exact ⟨_, (startMove_fading early way).1⟩
  · exact ⟨_, startMove_steady (if_neg early)⟩

/-- R118: what every MOVE leaves of its group. -/
theorem Moved.own {c : Course} {t : Part} (h : Moved m c s t) : (t.groups.get m.group).course = c ∧
    (t.groups.get m.group).startPending = false ∧ (t.groups.get m.group).failedOver = m.failedOver ∧
    (t.groups.get m.group).darkByRequest = m.darkByRequest ∧ (t.groups.get m.group).holdTimer =
      if (s.groups.get m.group).failedOver = m.failedOver then (s.groups.get m.group).holdTimer else 0 := by
  have record := h.record m.group
  have moved : (movedPart m c s).groups.get m.group = movedRecord m c (s.groups.get m.group) := Tbl.get_set_self _ _ _
  rw [moved] at record
  simp only [GroupRec.unbound, movedRecord, GroupRec.mk.injEq] at record
  obtain ⟨course, -, failedOver, holdTimer, darkByRequest, startPending, -⟩ := record
  exact ⟨course, startPending, failedOver, darkByRequest, holdTimer⟩

theorem Moved.other {c : Course} {t : Part} (h : Moved m c s t) {k : Fin 16} (other : k ≠ m.group) :
    (t.groups.get k).course = (s.groups.get k).course := by
  have moved : (movedPart m c s).groups.get k = s.groups.get k := Tbl.get_set_other _ _ other
  exact (unbound_fields ((h.record k).trans (by rw [moved]))).1
end

/-- R88, R118: a group whose MOVE starts, and one that is led, takes no decision of its own. -/
theorem decides_of_moved {s t : Part} {g : Fin 16} {m : MoveMsg} (pending : s.gang.pending.get g = some m)
    (due : 0 ≤ sdiff s.clock.frame m.start) (notLed : isLed s g = false) : decides t (takenUpAt s) g = false := by
  have stray : strayMove s g = true := by simp [strayMove, notLed, moveStarts, pending, moveDue, due]
  simp [decides, takenUpAt, stray]

/-- Settles O55. -/
theorem gangMoveStarts : Obligations.GangMoveStarts := by
  refine ⟨fun s t g => ⟨fun m => decides_of_moved, fun led takenUp => by simp [decides, led]⟩, ?_⟩
  rintro g m q s running pending due rfl
  have start : startPendingMove g s.toPart = startMove { m with group := g } s.toPart := by
    rw [startPendingMove, pending]
    exact if_pos (decide_eq_true due)
  have ending := settleArrivals_ending (startMove { m with group := g } s.toPart)
  have settled : exec (.gangMoveStart g) s =
      .next (s.withPart (settleArrivals (startMove { m with group := g } s.toPart))) := by
    rw [← start]
    exact exec_of_running (f := fun u => settleArrivals (startPendingMove g u)) rfl running
  obtain ⟨c, moved⟩ := startMove_moved { m with group := g } s.toPart
  obtain ⟨course, started, failedOver, darkByRequest, holdTimer⟩ := (moved.ending ending).own
  refine ⟨_, settled, ?_, started, failedOver, darkByRequest, holdTimer, fun early apart => ?_, fun late => ?_,
    fun k other => (moved.ending ending).other other⟩
  · rw [State.toPart_withPart, (moved.ending ending).pending, Tbl.get_set_self]
  · obtain ⟨kind, way, src, dst⟩ := between_of_ne apart
    obtain ⟨fading, begun⟩ := startMove_fading (m := { m with group := g }) early way
    have notice := ending.raised begun
    simp only [begunNotice, moveFade, src, dst] at notice
    exact ⟨kind, src, dst, (fading.ending ending).own.1, notice⟩
  · have steady := startMove_steady (m := { m with group := g }) (s := s.toPart) (if_neg (late.ge.not_gt))
    exact (steady.ending ending).own.1

end Sys2Proof.Machine
end


section
/-! The take buttons (R104, R119, R171), and takeover with the panel's outputs (R105, R106, R168 to R170). -/

namespace Sys2Proof.Machine

/-! ## Requests that are handed (R89, R104) -/

/-- The request of each group of a list reaches it once. -/
theorem foldl_addRequest (q : Request) {l : List (Fin 16)} (nodup : l.Nodup) (s : Part) (g : Fin 16) :
    (l.foldl (fun t k => addRequest k q t) s).groups.get g =
      if g ∈ l then { s.groups.get g with requests := (s.groups.get g).requests ++ [q] } else s.groups.get g := by
  induction l generalizing s with
  | nil => rfl
  | cons k l ih =>
    obtain ⟨fresh, rest⟩ := List.nodup_cons.mp nodup
    have added : (addRequest k q s).groups.get g =
        if g = k then { s.groups.get k with requests := (s.groups.get k).requests ++ [q] } else s.groups.get g :=
      Tbl.get_set _ _ _ _
    rw [List.foldl_cons, ih rest, added]
    by_cases own : g = k
    · subst own
      simp [fresh]
    · simp [own]

theorem allGroups_nodup : allGroups.Nodup := List.nodup_finRange 16

theorem mem_filter_allGroups {p : Fin 16 → Bool} {g : Fin 16} : g ∈ allGroups.filter p ↔ p g = true :=
  ⟨fun mem => (List.mem_filter.mp mem).2, fun holds => List.mem_filter.mpr ⟨List.mem_finRange g, holds⟩⟩

theorem handPress_requests (target : End) (among : Fin 16 → Bool) (s : Part) (g : Fin 16) :
    ((handPress target among s).groups.get g).requests = (s.groups.get g).requests ++
      if among g && !isLed s g && pressQualifies s target g then [⟨target, .button, none⟩] else [] := by
  rw [handPress, foldl_addRequest _ (allGroups_nodup.filter _)]
  simp only [mem_filter_allGroups]
  split
  · rfl
  · rw [List.append_nil]

/-- R104: which groups a rig's button reaches. -/
theorem pressQualifies_rig (s : Part) (x : Rig) (g : Fin 16) : pressQualifies s (.rig x) g = true ↔
    (groupEntry s g).isProtected = false ∧ (groupEntry s g).mode ≠ .fixed ∧ (s.groups.get g).startPending = false ∧
      rigUsable s g x = true ∧ (s.groups.get g).course.dest ≠ .rig x := by
  simp only [pressQualifies, usable, Bool.and_eq_true, Bool.not_eq_true', bne_iff_ne, ne_eq, and_assoc]

/-! ## The proposal of a press (R117, R119) -/

/-- R117: a button proposal takes the place of an unsent older one, or the back of the queue. -/
def queuedPress (p : ProposeMsg) (l : List ProposeMsg) : List ProposeMsg :=
  if l.any fun x => x.ref == 8 then l.map fun x => if x.ref == 8 then p else x else l ++ [p]

section
variable (p : ProposeMsg) (l : List ProposeMsg)

theorem mem_queuedPress : p ∈ queuedPress p l := by
  unfold queuedPress
  split
  next unsent =>
    obtain ⟨x, mem, own⟩ := List.any_eq_true.mp unsent
    exact List.mem_map.mpr ⟨x, mem, if_pos own⟩
  next => exact List.mem_append_right _ List.mem_cons_self

/-- One button proposal is queued at most. -/
theorem eq_of_mem_queuedPress {q : ProposeMsg} (mem : q ∈ queuedPress p l) (own : q.ref = 8) : q = p := by
  unfold queuedPress at mem
  split at mem
  next =>
    obtain ⟨x, -, e⟩ := List.mem_map.mp mem
    by_cases button : x.ref = 8
    · simpa [button] using e.symm
    · rw [if_neg (mt beq_iff_eq.mp button)] at e
      exact absurd (e ▸ own) button
  next fresh =>
    rcases List.mem_append.mp mem with old | new
    · exact absurd (List.any_eq_true.mpr ⟨q, old, by rw [own]; rfl⟩) fresh
    · exact List.mem_singleton.mp new

theorem filter_queuedPress (own : p.ref = 8) :
    (queuedPress p l).filter (fun x => x.ref != 8) = l.filter fun x => x.ref != 8 := by
  have kept : (l.map fun x => if x.ref == 8 then p else x).filter (fun x => x.ref != 8) = l.filter fun x => x.ref != 8 := by
    induction l with
    | nil => rfl
    | cons x l ih =>
      rw [List.map_cons, List.filter_cons, List.filter_cons, ih]
      by_cases button : x.ref = 8 <;> simp [button, own]
  unfold queuedPress
  split
  · exact kept
  · simp [own]
end

/-- R119: the proposal of a press. -/
def pressProposal (x : Rig) (s : Part) : ProposeMsg := ⟨8, !s.gang.btnRound, s.gang.matched, .rig x, false, none⟩

theorem proposePress_gang (x : Rig) (s : Part) (follower : s.gang.role = .follower) (up : s.gang.state = .up)
    (some' : s.gang.matched ≠ 0#16) : (proposePress x s).gang = { s.gang with
      btnRound := !s.gang.btnRound
      proposes := queuedPress (pressProposal x s) s.gang.proposes } := by
  rw [proposePress, if_pos ⟨follower, up, some'⟩]
  rfl

/-! ## The 40th boundary of a button (R171) -/

/-- The part in which a button has been held for 40 boundaries. -/
def buttonHeld (x : Rig) (s : Part) : Part :=
  { s with panel := { s.panel with buttons := s.panel.buttons.set x ⟨40, true⟩ } }

section
variable {x : Rig} {s : Part} (run : (s.panel.buttons.get x).run = 39)
include run

theorem buttonTurn_of_taken (taken : (s.panel.buttons.get x).taken = true) : buttonTurn x true s = buttonHeld x s := by
  simp [buttonTurn, Button.pressed, Button.sample, Button.runNext, rise, run, taken, buttonHeld]

theorem buttonTurn_of_fresh (fresh : (s.panel.buttons.get x).taken = false) :
    buttonTurn x true s = press x (buttonHeld x s) := by
  simp [buttonTurn, Button.pressed, Button.sample, Button.runNext, rise, run, fresh, buttonHeld]
end

theorem exec_buttonPress {x : Rig} {s : State} (running : s.inReset = false) (run : (s.panel.buttons.get x).run = 39) :
    exec (.buttonPress x) s = .next (s.withPart (buttonTurn x true s.toPart)) := by
  refine (exec_of_running (f := fun u => if (u.panel.buttons.get x).run = 39 then buttonTurn x true u else u) rfl
    running).trans ?_
  rw [if_pos run]

/-- Settles O48. -/
theorem buttonPress : Obligations.ButtonPress := by
  intro x s running run
  refine ⟨fun taken => ?_, fun fresh => ?_⟩
  · rw [exec_buttonPress running run, buttonTurn_of_taken run taken]
    rfl
  have same := press_same x (buttonHeld x s.toPart)
  have handed : (handPress (.rig x) (fun _ => true) (buttonHeld x s.toPart)).gang = s.gang :=
    (handPress_same _ _ _).get .gang rfl
  refine ⟨_, exec_buttonPress running run, ?_⟩
  rw [State.toPart_withPart, buttonTurn_of_fresh run fresh]
  refine ⟨same.get .panel rfl, fun apart => ?_, fun follower up some' => ?_, fun g => ?_⟩
  · rw [press, proposePress, if_neg, handed]
    rw [handed]
    rintro ⟨follower, up, some'⟩
    rcases apart with h | h | h
    · exact h follower
    · exact h up
    · exact some' h
  · have proposed := proposePress_gang x (handPress (.rig x) (fun _ => true) (buttonHeld x s.toPart))
      (by rwa [handed]) (by rwa [handed]) (by rwa [handed])
    rw [pressProposal, handed] at proposed
    rw [press, proposed]
    exact ⟨rfl, mem_queuedPress _ _, fun p mem own => eq_of_mem_queuedPress _ _ mem own, filter_queuedPress _ _ rfl⟩
  · have groups : (press x (buttonHeld x s.toPart)).groups =
        (handPress (.rig x) (fun _ => true) (buttonHeld x s.toPart)).groups := (proposePress_same _ _).get .groups rfl
    rw [groups, handPress_requests]
    congr 1
    refine if_congr ?_ rfl rfl
    rw [Bool.true_and, Bool.and_eq_true, Bool.not_eq_true']
    exact and_congr_right fun _ => pressQualifies_rig _ _ _

/-! ## The panel's outputs (R168, R169, R170) -/

theorem relay_iff (s : Part) : relay s = true ↔ s.takeover.done = true ∧ s.panel.bypass = false := by
  rw [relay, Bool.and_eq_true, Bool.not_eq_true']

theorem FadeKind.dst_rig (k : FadeKind) (x : Rig) : k.dst = .rig x ↔
    (x = .A ∧ (k = .bToA ∨ k = .darkToA)) ∨ (x = .B ∧ (k = .aToB ∨ k = .darkToB)) := by
  cases k <;> cases x <;> decide

/-- R169. -/
theorem tally_iff (s : Part) (x : Rig) : tally s x = true ↔ ∃ g, (s.groups.get g).course = .steady (.rig x) ∨
    ∃ f, (s.groups.get g).course = .fading f ∧
      ((x = .A ∧ (f.kind = .bToA ∨ f.kind = .darkToA)) ∨ (x = .B ∧ (f.kind = .aToB ∨ f.kind = .darkToB))) := by
  have goes (g : Fin 16) : (s.groups.get g).course.dest = .rig x ↔ (s.groups.get g).course = .steady (.rig x) ∨
      ∃ f, (s.groups.get g).course = .fading f ∧
        ((x = .A ∧ (f.kind = .bToA ∨ f.kind = .darkToA)) ∨ (x = .B ∧ (f.kind = .aToB ∨ f.kind = .darkToB))) := by
    cases (s.groups.get g).course with
    | steady e => simp [Course.dest]
    | fading f => simp only [Course.dest, FadeKind.dst_rig, reduceCtorEq, false_or, Course.fading.injEq, exists_eq_left']
  simp only [tally, List.any_eq_true, beq_iff_eq, goes]
  exact ⟨fun ⟨g, _, h⟩ => ⟨g, h⟩, fun ⟨g, h⟩ => ⟨g, List.mem_finRange g, h⟩⟩

theorem alarm_pulse {s : Part} (running : s.inReset = false) (mode : s.tables.setup.alarm = .pulse) :
    alarm s = true ↔ 0 < s.panel.pulse := by
  simp [alarm, running, mode]

/-- R170. -/
theorem alarm_level {s : Part} (running : s.inReset = false) (mode : s.tables.setup.alarm = .level) : alarm s = true ↔
    (∃ g, (groupEntry s g).mode = .auto ∧ (s.groups.get g).failedOver = true) ∨
      (∃ x, (s.health.get x).health ≠ .good) ∨ (s.takeover.done = true ∧ relay s = false) := by
  have rigs : (∃ x, (s.health.get x).health ≠ .good) ↔ (s.health.get .A).health ≠ .good ∨ (s.health.get .B).health ≠ .good :=
    ⟨fun ⟨x, h⟩ => by cases x; exacts [.inl h, .inr h], fun h => h.elim (⟨.A, ·⟩) (⟨.B, ·⟩)⟩
  have groups : (∃ g, (groupEntry s g).mode = .auto ∧ (s.groups.get g).failedOver = true) ↔
      (allGroups.any fun g => (groupEntry s g).mode == .auto && (s.groups.get g).failedOver) = true := by
    simp only [List.any_eq_true, Bool.and_eq_true, beq_iff_eq]
    exact ⟨fun ⟨g, h⟩ => ⟨g, List.mem_finRange g, h⟩, fun ⟨g, _, h⟩ => ⟨g, h⟩⟩
  rw [rigs, groups]
  simp only [alarm, running, mode, Bool.not_false, Bool.true_and, Bool.or_eq_true, bne_iff_ne, Bool.and_eq_true,
    Bool.not_eq_true', or_assoc]

/-! ## A group's start state (R106) -/

/-- What a unit knows of its pair (R113, R115). -/
def Gang.pair (k : Gang) : Role × GangState × Half × Option GangReport := (k.role, k.state, k.matched, k.partner)

/-- From `s` to `t` a group's record stands but for its binding, and the start states that R106 sees stand. -/
structure Waits (g : Fin 16) (s t : Part) : Prop where
  undisturbed : Undisturbed g s t
  same : Same [.port, .gang, .groups, .program] s t
  pair : t.gang.pair = s.gang.pair

theorem Waits.refl (g : Fin 16) (s : Part) : Waits g s s := ⟨.refl s, .refl _ s, rfl⟩

theorem Waits.trans {g : Fin 16} {s t u : Part} (h : Waits g s t) (k : Waits g t u) : Waits g s u :=
  ⟨h.undisturbed.trans k.undisturbed, h.same.trans k.same, k.pair.trans h.pair⟩

/-- A fold over all groups, each of which leaves the others to `R`, seen from one of them. -/
theorem foldl_allGroups {R : Part → Part → Prop} (refl : ∀ s, R s s) (trans : ∀ s t u, R s t → R t u → R s u)
    {f : Part → Fin 16 → Part} {g : Fin 16} (other : ∀ k, k ≠ g → ∀ s, R s (f s k)) (s : Part) :
    ∃ u, R s u ∧ R (f u g) (allGroups.foldl f s) := by
  have around (l : List (Fin 16)) (out : g ∉ l) (u : Part) : R u (l.foldl f u) := by
    induction l generalizing u with
    | nil => exact refl u
    | cons k l ih =>
      obtain ⟨apart, rest⟩ := not_or.mp (mt List.mem_cons.mpr out)
      exact trans _ _ _ (other k (Ne.symm apart) u) (ih rest _)
  obtain ⟨before, after, split⟩ := List.append_of_mem (List.mem_finRange g)
  have nodup := allGroups_nodup
  rw [allGroups, split] at nodup
  obtain ⟨-, rest, apart⟩ := List.nodup_append'.mp nodup
  refine ⟨before.foldl f s, around before (fun mem => apart mem List.mem_cons_self) s, ?_⟩
  rw [allGroups, split, List.foldl_append, List.foldl_cons]
  exact around after (List.nodup_cons.mp rest).1 _

theorem refuseRequests_ending (st : Status) (g : Fin 16) (s : Part) :
    Ending (s.setGroup g { s.groups.get g with requests := [] }) (refuseRequests st g s) :=
  .foldl (fun u o => endOwner_ending o st (be8 g.val) u) _ _

theorem refuseRequests_record (st : Status) (g : Fin 16) (s : Part) : ((refuseRequests st g s).groups.get g).unbound =
    GroupRec.unbound { s.groups.get g with requests := [] } := by
  rw [(refuseRequests_ending st g s).record, setGroup_groups, Tbl.get_set_self]

/-- R106: the start state of a group that no partner leads, by home's readiness. -/
theorem startState_eq (s : Part) (g : Fin 16) : startState s g =
    if (groupEntry s g).mode = .fixed ∨ startReady s g (groupEntry s g).home then .rig (groupEntry s g).home
    else if startReady s g (groupEntry s g).home.other then .rig (groupEntry s g).home.other else .dark := by
  unfold startState
  dsimp only
  cases (groupEntry s g).mode <;> simp

/-- R106: the source on which a start-pending group starts. -/
def startsOn (s : Part) (g : Fin 16) : End := if isLed s g then .dark else startState s g

/-- R106: the record of a group that has started. -/
def startedRecord (s : Part) (g : Fin 16) : GroupRec := { s.groups.get g with
  course := .steady (startsOn s g)
  startPending := false
  failedOver := (groupEntry s g).mode == .auto && startsOn s g == .rig (groupEntry s g).home.other
  holdTimer := 0
  requests := [] }

/-- The part in which a group has taken its start state and raised START. -/
def startedPart (g : Fin 16) (s : Part) : Part :=
  raise (.groupMove g true .dark (startsOn s g) .start false 0 0) ((refuseRequests .busy g s).setGroup g
    { (refuseRequests .busy g s).groups.get g with
      course := .steady (startsOn s g)
      startPending := false
      failedOver := (groupEntry s g).mode == .auto && startsOn s g == .rig (groupEntry s g).home.other
      holdTimer := 0 })

section
variable {g : Fin 16} {s : Part}

theorem takeStart_of_pending (pending : (s.groups.get g).startPending = true) : takeStart g s =
    if isLeading s g then queueMove (steadyMove (startedPart g s) g (startsOn s g)) (startedPart g s)
    else startedPart g s := if_pos pending

theorem takeStart_of_started (started : (s.groups.get g).startPending = false) : takeStart g s = s :=
  if_neg (ne_true_of_eq_false started)

/-- R105, R106: a start leaves the other groups and what they see. -/
theorem takeStart_waits {k : Fin 16} (other : k ≠ g) (s : Part) : Waits g s (takeStart k s) := by
  refine ⟨?_, takeStart_same k s, ?_⟩
  · have started : Undisturbed g s (startedPart k s) :=
      ((refuseRequests_undisturbed other _ s).trans (setGroup_undisturbed fun own => absurd own other)).trans
        (raise_undisturbed _ _)
    exact .when (.ite (started.trans (queueMove_undisturbed _ _)) started)
  · have started : (startedPart k s).gang.pair = s.gang.pair := by
      refine (congrArg Gang.pair (?_ : _ = (refuseRequests .busy k s).gang)).trans ?_
      · rfl
      · rw [(refuseRequests_ending _ _ _).gang]
        rfl
    cases pending : (s.groups.get k).startPending with
    | false => rw [takeStart_of_started pending]
    | true =>
      rw [takeStart_of_pending pending]
      split
      · exact started
      · exact started

/-- R106: the group's own start. -/
theorem takeStart_record (pending : (s.groups.get g).startPending = true) :
    ((takeStart g s).groups.get g).unbound = (startedRecord s g).unbound := by
  have groups : (takeStart g s).groups = (startedPart g s).groups := by
    rw [takeStart_of_pending pending]
    split <;> rfl
  have own : (startedPart g s).groups.get g = { (refuseRequests .busy g s).groups.get g with
      course := .steady (startsOn s g)
      startPending := false
      failedOver := (groupEntry s g).mode == .auto && startsOn s g == .rig (groupEntry s g).home.other
      holdTimer := 0 } := Tbl.get_set_self _ _ _
  have refused := refuseRequests_record .busy g s
  rw [groups, own]
  simp only [GroupRec.unbound, GroupRec.mk.injEq] at refused
  obtain ⟨-, -, -, -, darkByRequest, -, requests⟩ := refused
  simp only [GroupRec.unbound, startedRecord, darkByRequest, requests]

/-- R106: what a group waits for stands, so its start state does. -/
theorem Waits.startsOn {t : Part} (h : Waits g s t) : startsOn t g = startsOn s g := by
  have tables : t.tables = s.tables := h.same.get .tables rfl
  have health : t.health = s.health := h.same.get .health rfl
  have rx : t.rx = s.rx := h.same.get .rx rfl
  have pair := h.pair
  simp only [Gang.pair, Prod.mk.injEq] at pair
  obtain ⟨role, state, matched, partner⟩ := pair
  have entry : groupEntry t g = groupEntry s g := by rw [groupEntry, tables, groupEntry]
  have led (r : Role) : matchedAs t r g = matchedAs s r g := by rw [matchedAs, role, state, matched, matchedAs]
  have usable (x : Rig) : rigUsable t g x = rigUsable s g x := by
    simp only [rigUsable, isLeading, led, entry, localUsable, health]
    rw [partnerUsable, partner, partnerUsable]
  have ready (x : Rig) : startReady t g x = startReady s g x := by rw [startReady, usable, isLocked, rx, startReady, isLocked]
  simp only [Machine.startsOn, isLed, led, startState_eq, entry, ready]

theorem Waits.startedRecord {t : Part} (h : Waits g s t) : (startedRecord t g).unbound = (startedRecord s g).unbound := by
  have tables : t.tables = s.tables := h.same.get .tables rfl
  have record := h.undisturbed.record
  simp only [GroupRec.unbound, GroupRec.mk.injEq] at record
  obtain ⟨-, -, -, -, darkByRequest, -, -⟩ := record
  simp only [GroupRec.unbound, Machine.startedRecord, h.startsOn, groupEntry, tables, darkByRequest]
end

/-- R105: which group starts, and that the others stand. -/
theorem takeStarts_record (g : Fin 16) (s : Part) :
    ((allGroups.foldl (fun t k => takeStart k t) s).groups.get g).unbound =
      if (s.groups.get g).startPending then (startedRecord s g).unbound else (s.groups.get g).unbound := by
  obtain ⟨u, before, after⟩ := foldl_allGroups (g := g) (f := fun t k => takeStart k t) (Waits.refl g)
    (fun _ _ _ => .trans) (fun k other t => takeStart_waits other t) s
  have pending : (u.groups.get g).startPending = (s.groups.get g).startPending :=
    (unbound_fields before.undisturbed.record).2.2.2.1
  rw [after.undisturbed.record, ← pending]
  split
  next due => rw [takeStart_record due, before.startedRecord]
  next started => rw [takeStart_of_started (Bool.eq_false_of_not_eq_true started), before.undisturbed.record]

/-! ## Takeover (R105, R106, R168) -/

theorem takeoverDue_of_ready {s : Part} (first : s.takeover.done = false)
    (ready : (triggerReady s .A = true ∧ triggerReady s .B = true) ∨
      ∃ x, triggerReady s x = true ∧ s.tables.setup.startHold.toNat ≤ min (s.takeover.ready.get x + 1) 20000) :
    takeoverDue s = true := by
  have counted {x : Rig} (h : triggerReady s x = true) : readyCount s x = min (s.takeover.ready.get x + 1) 20000 := if_pos h
  simp only [takeoverDue, first, Bool.not_false, Bool.true_and, Bool.or_eq_true, Bool.and_eq_true, decide_eq_true_eq]
  rcases ready with both | ⟨x, ready, held⟩
  · exact .inl (.inl both)
  · cases x
    · exact .inl (.inr ⟨ready, by rwa [counted ready]⟩)
    · exact .inr ⟨ready, by rwa [counted ready]⟩

/-- The part in which every group has started, before the relay's notice. -/
def allStarted (s : Part) : Part :=
  allGroups.foldl (fun t g => takeStart g t) { s with takeover := { done := true, ready := PerRig.both 0 } }

theorem allStarted_same (s : Part) : Same [.takeover, .port, .gang, .groups, .program] s (allStarted s) :=
  ((withTakeover_same _ s).mono rfl).trans (Same.foldl (fun _ _ => (takeStart_same _ _).mono rfl) _ _)

theorem allStarted_takeover (s : Part) : (allStarted s).takeover = ⟨true, ⟨0, 0⟩⟩ :=
  (Same.foldl (fun u k => takeStart_same k u) allGroups _).get .takeover rfl

theorem allStarted_relay (s : Part) : relay (allStarted s) = !s.panel.bypass := by
  have panel : (allStarted s).panel = s.panel := (allStarted_same s).get .panel rfl
  rw [relay, allStarted_takeover, panel, Bool.true_and]

/-- Settles O47. -/
theorem takeover : Obligations.Takeover := by
  refine ⟨fun s => ⟨relay_iff s, tally_iff s, fun held => by simp [alarm, held], alarm_pulse, alarm_level⟩, ?_⟩
  intro s running first ready
  have off : relay s.toPart = false := by rw [relay, first, Bool.false_and]
  have taken : exec .takeover s = .next (s.withPart (relayChange false false (allStarted s.toPart))) := by
    refine (exec_of_running (f := fun u => if takeoverDue u then takeOver u else u) rfl running).trans ?_
    rw [if_pos (takeoverDue_of_ready first ready), takeOver, off]
    rfl
  have same := relayChange_same false false (allStarted s.toPart)
  have takeover : (relayChange false false (allStarted s.toPart)).takeover = ⟨true, ⟨0, 0⟩⟩ :=
    (same.get .takeover rfl).trans (allStarted_takeover s.toPart)
  have panel : (relayChange false false (allStarted s.toPart)).panel = s.panel :=
    (same.get .panel rfl).trans ((allStarted_same s.toPart).get .panel rfl)
  have groups : (relayChange false false (allStarted s.toPart)).groups = (allStarted s.toPart).groups := same.get .groups rfl
  refine ⟨_, taken, takeover, ?_, fun engaged => ?_, ?_⟩
  · rw [State.toPart_withPart, relay, takeover, panel, Bool.true_and]
  · have on : relay (allStarted s.toPart) = true := by rw [allStarted_relay, engaged]; rfl
    rw [State.toPart_withPart, relayChange, if_pos (by rw [on]; nofun), on]
    exact raised_raise _ _
  rintro g _ rfl
  have record : ((allStarted s.toPart).groups.get g).unbound = if (s.groups.get g).startPending then
      (startedRecord s.toPart g).unbound else (s.groups.get g).unbound :=
    takeStarts_record g { s.toPart with takeover := { done := true, ready := PerRig.both 0 } }
  rw [State.toPart_withPart, groups]
  refine ⟨fun started => ?_, fun pending => ?_⟩
  · rw [if_neg (ne_true_of_eq_false started)] at record
    exact (unbound_fields record).1
  rw [if_pos pending] at record
  obtain ⟨course, failedOver, -, started, requests⟩ := unbound_fields record
  refine ⟨started, requests, fun led => ?_, fun notLed => ?_⟩
  · rw [course, startedRecord, startsOn, if_pos led]
  have on : startsOn s.toPart g = startState s.toPart g := if_neg (ne_true_of_eq_false notLed)
  have away : End.rig (groupEntry s.toPart g).home ≠ End.rig (groupEntry s.toPart g).home.other := by
    cases (groupEntry s.toPart g).home <;> nofun
  rw [course, failedOver, startedRecord, on, startState_eq]
  refine ⟨fun fixed => by simp [fixed], fun open' ready => ?_, fun open' unready ready => ?_, fun open' unready none => ?_⟩
  · simp [ready, away]
  · simp [open', unready, ready]
  · simp [open', unready, none]

end Sys2Proof.Machine
end


section
/-! The decision of a group (R88 to R101): transitions, requests, failover, the way out of DARK and the returns. -/

namespace Sys2Proof.Machine

/-! ## Transitions (R90) -/

theorem between_self (x : End) : FadeKind.between x x = none := by
  cases x with
  | dark => rfl
  | rig r => cases r <;> rfl

/-- R90: no change where the target is the present destination. -/
theorem turn_dest (c : Course) (len : Nat) (law : Law) : turn c c.dest len law = none := by
  cases c with
  | steady e => rw [turn, Course.dest, between_self]; rfl
  | fading f => rw [turn, Course.dest, between_self]; rfl

/-- R90: a start. -/
theorem turn_steady {x n : End} (other : x ≠ n) (len : Nat) (law : Law) :
    ∃ kind, turn (.steady x) n len law = some (kind, 0, len, law) ∧ kind.src = x ∧ kind.dst = n := by
  obtain ⟨kind, way, src, dst⟩ := between_of_ne other
  exact ⟨kind, by rw [turn, way]; rfl, src, dst⟩

/-- R90: a reversal or redirect, from the mirrored progress. -/
theorem turn_fading {f : Fade} {n : End} (other : n ≠ f.kind.dst) (len : Nat) (law : Law) :
    ∃ kind, turn (.fading f) n len law = some (kind, f.len - f.q, f.len, f.law) ∧ kind.src = f.kind.dst ∧ kind.dst = n := by
  obtain ⟨kind, way, src, dst⟩ := between_of_ne other.symm
  exact ⟨kind, by rw [turn, way]; rfl, src, dst⟩

theorem turn_away {c : Course} {n : End} (other : n ≠ c.dest) (len : Nat) (law : Law) :
    ∃ kind q l w, turn c n len law = some (kind, q, l, w) ∧ kind.dst = n := by
  cases c with
  | steady e =>
    obtain ⟨kind, turned, -, dst⟩ := turn_steady (Ne.symm other) len law
    exact ⟨_, _, _, _, turned, dst⟩
  | fading f =>
    obtain ⟨kind, turned, -, dst⟩ := turn_fading other len law
    exact ⟨_, _, _, _, turned, dst⟩

theorem FadeKind.crossesRigs_iff (k : FadeKind) : k.crossesRigs = true ↔ k = .aToB ∨ k = .bToA := by cases k <;> decide

theorem Reason.isAuto_iff (r : Reason) : r.isAuto = true ↔ r = .autoFailover ∨ r = .autoReturn := by cases r <;> decide

section
variable {s : Part} {g : Fin 16} {r : GroupRec} {n : End}

theorem transition_of_dest (here : n = r.course.dest) (reason : Reason) : transition s g r n reason = ⟨r, none⟩ := by
  simp only [transition, here, turn_dest]

/-- R90, R97, R98, R99: what a transition that changes the course begins and sets. -/
theorem transition_of_turn {kind : FadeKind} {q len : Nat} {law : Law}
    (turned : turn r.course n (fadeLength (groupEntry s g).fade) (groupEntry s g).law = some (kind, q, len, law))
    (reason : Reason) : ∃ f, (transition s g r n reason).begun = some f ∧
      (transition s g r n reason).after.course = .fading f ∧ f.kind = kind ∧ f.q = q ∧ f.q0 = q ∧ f.len = len ∧
      f.law = law ∧ f.reason = reason ∧
      (f.unaligned = true ↔ (kind = .aToB ∨ kind = .bToA) ∧ (groupEntry s g).requireAlign = true ∧ alignMet s = false) ∧
      (transition s g r n reason).after.holdTimer = 0 ∧
      ((transition s g r n reason).after.failedOver = true ↔
        (reason = .autoFailover ∨ reason = .autoReturn) ∧ n = .rig (groupEntry s g).home.other) ∧
      ((transition s g r n reason).after.darkByRequest = true ↔
        n = .dark ∧ (reason = .autoFailover ∨ reason = .autoReturn → r.darkByRequest = true)) := by
  simp only [transition, turned]
  refine ⟨_, rfl, rfl, rfl, rfl, rfl, rfl, rfl, rfl, ?_, trivial, ?_, ?_⟩
  · rw [Bool.and_eq_true, Bool.and_eq_true, FadeKind.crossesRigs_iff, Bool.not_eq_true', and_assoc]
  · rw [Bool.and_eq_true, Reason.isAuto_iff, beq_iff_eq]
  · rw [← Reason.isAuto_iff]
    cases n with
    | rig x => simp
    | dark => cases reason.isAuto <;> simp

/-- A transition that changes the course sets the timer, so a count of it does not show. -/
theorem transition_countHold (other : n ≠ r.course.dest) (reason : Reason) :
    transition s g (countHold s g r) n reason = transition s g r n reason := by
  obtain ⟨kind, q, l, w, turned, -⟩ := turn_away other (fadeLength (groupEntry s g).fade) (groupEntry s g).law
  have counted := (congrArg (turn · n (fadeLength (groupEntry s g).fade) (groupEntry s g).law)
    (countHold_course s g r)).trans turned
  simp only [transition, turned, counted]
  unfold countHold
  split <;> rfl

theorem transition_requests (reason : Reason) : (transition s g r n reason).after.requests = r.requests := by
  unfold transition
  dsimp only
  split <;> rfl

/-! ## Failover (R96) -/

theorem failoverTarget_usable {d : End} (ok : usable s g d = true) : failoverTarget s g d = none := by
  cases d with
  | dark => rfl
  | rig x => exact if_pos ok

theorem failoverTarget_other {x : Rig} (failed : rigUsable s g x = false) (spare : rigUsable s g x.other = true) :
    failoverTarget s g (.rig x) = some (.rig x.other) := by
  rw [failoverTarget, if_neg (ne_true_of_eq_false failed), if_pos spare]

theorem failoverTarget_dark {x : Rig} (failed : rigUsable s g x = false) (none : rigUsable s g x.other = false)
    (last : (groupEntry s g).lastResort = .goDark) : failoverTarget s g (.rig x) = some .dark := by
  simp only [failoverTarget, failed, none, last, Bool.false_eq_true, if_false]

theorem failoverTarget_stay {x : Rig} (failed : rigUsable s g x = false) (none : rigUsable s g x.other = false)
    (last : (groupEntry s g).lastResort = .stayOnFailed) : failoverTarget s g (.rig x) = .none := by
  simp only [failoverTarget, failed, none, last, Bool.false_eq_true, if_false]

/-- With no rig usable, home and the other rig are not. -/
theorem home_of_none {x : Rig} (failed : rigUsable s g x = false) (none : rigUsable s g x.other = false) (y : Rig) :
    rigUsable s g y = false := by
  cases x <;> cases y <;> assumption

/-! ## The way out of DARK and the returns (R97, R99, R100) -/

/-- R97: the condition of the way out of DARK. -/
def LeavesDark (r : GroupRec) : Prop := r.course = .steady .dark ∧ r.startPending = false ∧ r.darkByRequest = false

theorem darkReturn_of_not (stays : ¬LeavesDark r) : darkReturn s g r = none := if_neg stays

theorem darkReturn_home (leaves : LeavesDark r) (ok : rigUsable s g (groupEntry s g).home = true) :
    darkReturn s g r = some (.rig (groupEntry s g).home, .autoReturn) := by
  exact (if_pos leaves).trans (if_pos ok)

theorem darkReturn_other (leaves : LeavesDark r) (failed : rigUsable s g (groupEntry s g).home = false)
    (spare : rigUsable s g (groupEntry s g).home.other = true) :
    darkReturn s g r = some (.rig (groupEntry s g).home.other, .autoFailover) := by
  exact (if_pos leaves).trans ((if_neg (ne_true_of_eq_false failed)).trans (if_pos spare))

theorem darkReturn_none (failed : rigUsable s g (groupEntry s g).home = false)
    (none : rigUsable s g (groupEntry s g).home.other = false) : darkReturn s g r = .none := by
  simp [darkReturn, failed, none]

section
variable {target : Option (End × Reason)}

theorem decideReturns_dark {t : End} {reason : Reason} (way : darkReturn s g r = some (t, reason)) :
    decideReturns s g r target = transition s g r t reason := by
  rw [decideReturns, way]

theorem decideReturns_home (stays : ¬LeavesDark r) (returns : Returns s g (groupEntry s g) r) :
    decideReturns s g r target = transition s g r (.rig (groupEntry s g).home) .autoReturn := by
  have away : End.rig (groupEntry s g).home ≠ r.course.dest := by
    rw [returns.1]
    cases (groupEntry s g).home <;> nofun
  rw [decideReturns, darkReturn_of_not stays]
  exact (if_pos (returnsHome_iff.mpr returns)).trans (transition_countHold away _)

/-- R88: where neither the way out of DARK nor a return acts. -/
theorem decideReturns_target (way : darkReturn s g r = none) (stays : ¬Returns s g (groupEntry s g) r) :
    decideReturns s g r target = match target with
      | some (t, reason) => transition s g (countHold s g r) t reason
      | none => ⟨countHold s g r, none⟩ := by
  rw [decideReturns, way]
  exact if_neg (mt returnsHome_iff.mp stays)
end

theorem countHold_requests : (countHold s g r).requests = r.requests := by
  unfold countHold
  split <;> rfl

theorem decideReturns_requests (target : Option (End × Reason)) :
    (decideReturns s g r target).after.requests = r.requests := by
  unfold decideReturns
  dsimp only
  repeat' split
  · exact transition_requests _
  · exact (transition_requests _).trans countHold_requests
  · exact (transition_requests _).trans countHold_requests
  · exact countHold_requests

theorem decideAuto_requests (asked : Option (End × Reason)) : (decideAuto s g r asked).after.requests = r.requests := by
  unfold decideAuto
  dsimp only
  repeat' split
  · exact decideReturns_requests _
  · exact transition_requests _
  · exact decideReturns_requests _

/-! ## The decision of an AUTO group (R88) -/

/-- R88: what the requests ask, or the present destination. -/
def askedDest (r : GroupRec) : Option (End × Reason) → End
  | some (t, _) => t
  | none => r.course.dest

theorem decideAuto_usable {asked : Option (End × Reason)} (stands : failoverTarget s g (askedDest r asked) = none) :
    decideAuto s g r asked = decideReturns s g r asked := by
  cases asked <;> simp only [askedDest] at stands <;> simp only [decideAuto, stands]

theorem decideAuto_failover {asked : Option (End × Reason)} {t : End}
    (fails : failoverTarget s g (askedDest r asked) = some t) :
    decideAuto s g r asked =
      if t = r.course.dest then decideReturns s g r (some (t, .autoFailover)) else transition s g r t .autoFailover := by
  cases asked <;> simp only [askedDest] at fails <;> simp only [decideAuto, fails]

/-- Log 49: a request for the present destination asks nothing. -/
theorem decideAuto_present (d : End) (here : d = r.course.dest) (reason : Reason) :
    decideAuto s g r (some (d, reason)) = decideAuto s g r none := by
  have unasked : decideReturns s g r (some (d, reason)) = decideReturns s g r none := by
    unfold decideReturns
    dsimp only
    split
    · rfl
    · rw [transition_of_dest (here.trans (congrArg Course.dest (countHold_course s g r)).symm)]
  subst here
  unfold decideAuto
  dsimp only
  rw [unasked]
/-! ### An AUTO group that a request asks for another destination -/

/-- R96: the target of a failover or a last resort. -/
theorem decideAuto_elsewhere {d n : End} {reason : Reason} (fails : failoverTarget s g d = some n)
    (other : n ≠ r.course.dest) :
    decideAuto s g r (some (d, reason)) = transition s g r n .autoFailover :=
  (decideAuto_failover (asked := some (d, reason)) fails).trans (if_neg other)

section
variable {e : GroupEntry} (entry : groupEntry s g = e) {d : End} (away : d ≠ r.course.dest) (reason : Reason)
include entry away

/-- R97: the way out of DARK replaces a request for a usable rig. -/
theorem decideAuto_leaves (ok : usable s g d = true) (leaves : LeavesDark r) :
    decideAuto s g r (some (d, reason)) = if rigUsable s g e.home then transition s g r (.rig e.home) .autoReturn
      else transition s g r (.rig e.home.other) .autoFailover := by
  subst entry
  rw [decideAuto_usable (failoverTarget_usable ok)]
  cases home : rigUsable s g (groupEntry s g).home with
  | true => exact (decideReturns_dark (darkReturn_home leaves home)).trans (if_pos rfl).symm
  | false =>
    have spare : rigUsable s g (groupEntry s g).home.other = true := by
      rw [leaves.1] at away
      cases d with
      | dark => exact absurd rfl away
      | rig x =>
        by_contra none
        exact ne_true_of_eq_false (home_of_none home (Bool.eq_false_of_not_eq_true none) x) ok
    exact (decideReturns_dark (darkReturn_other leaves home spare)).trans (if_neg Bool.false_ne_true).symm

omit away in
/-- R99, R100: a return replaces a request for a usable rig. -/
theorem decideAuto_returns (ok : usable s g d = true) (returns : Returns s g e r) :
    decideAuto s g r (some (d, reason)) = transition s g r (.rig e.home) .autoReturn := by
  subst entry
  have stays : ¬LeavesDark r := fun leaves => by
    have dark := leaves.1.symm.trans returns.1
    cases dark
  rw [decideAuto_usable (failoverTarget_usable ok), decideReturns_home stays returns]

/-- R89: where neither acts the request stands. -/
theorem decideAuto_asked (ok : usable s g d = true) (stays : ¬LeavesDark r) (remains : ¬Returns s g e r) :
    decideAuto s g r (some (d, reason)) = transition s g r d reason := by
  subst entry
  rw [decideAuto_usable (failoverTarget_usable ok), decideReturns_target (darkReturn_of_not stays) remains]
  exact transition_countHold away reason

/-- Log 50: failover to the present destination leaves the course, and the timer counts. -/
theorem decideAuto_back {n : End} {x : Rig} (rig : d = .rig x) (failed : rigUsable s g x = false)
    (way : (rigUsable s g x.other = true ∧ n = .rig x.other) ∨
      (rigUsable s g x.other = false ∧ e.lastResort = .goDark ∧ n = .dark)) (here : n = r.course.dest) :
    decideAuto s g r (some (d, reason)) = ⟨countHold s g r, none⟩ := by
  subst entry rig
  have fails : failoverTarget s g (askedDest r (some (.rig x, reason))) = some n := by
    rcases way with ⟨spare, rfl⟩ | ⟨none, last, rfl⟩
    · exact failoverTarget_other failed spare
    · exact failoverTarget_dark failed none last
  have noWay : darkReturn s g r = none := by
    rcases way with ⟨spare, rfl⟩ | ⟨none, -, rfl⟩
    · refine darkReturn_of_not fun leaves => ?_
      rw [leaves.1] at here
      cases here
    · exact darkReturn_none (home_of_none failed none _) (home_of_none failed none _)
  have remains : ¬Returns s g (groupEntry s g) r := by
    rintro ⟨steady, -, ok, -⟩
    rcases way with ⟨-, rfl⟩ | ⟨none, -, -⟩
    · rw [steady] at here
      have home : x = (groupEntry s g).home := by
        have others : x.other = (groupEntry s g).home.other := End.rig.inj here
        rw [← Rig.other_other x, others, Rig.other_other]
      rw [← home, failed] at ok
      cases ok
    · exact ne_true_of_eq_false (home_of_none failed none _) ok
  rw [decideAuto_failover fails, if_pos here, decideReturns_target noWay remains]
  exact transition_of_dest (here.trans (congrArg Course.dest (countHold_course s g r)).symm) _

/-- Log 61: under STAY_ON_FAILED a request for an unusable rig stands. -/
theorem decideAuto_stays {x : Rig} (rig : d = .rig x) (failed : rigUsable s g x = false)
    (none : rigUsable s g x.other = false) (last : e.lastResort = .stayOnFailed) :
    decideAuto s g r (some (d, reason)) = transition s g r d reason := by
  subst entry rig
  have remains : ¬Returns s g (groupEntry s g) r := fun returns =>
    ne_true_of_eq_false (home_of_none failed none _) returns.2.2.1
  rw [decideAuto_usable (failoverTarget_stay failed none last),
    decideReturns_target (darkReturn_none (home_of_none failed none _) (home_of_none failed none _)) remains]
  exact transition_countHold away reason
end

/-! ### An AUTO group that nothing asks -/

/-- R96: failover. -/
theorem decideAuto_failsOver {x : Rig} (on : r.course.dest = .rig x) (failed : rigUsable s g x = false)
    (spare : rigUsable s g x.other = true) : decideAuto s g r none = transition s g r (.rig x.other) .autoFailover := by
  have fails : failoverTarget s g (askedDest r none) = some (.rig x.other) := by
    rw [askedDest, on, failoverTarget_other failed spare]
  refine (decideAuto_failover fails).trans (if_neg ?_)
  rw [on]
  exact fun e => Rig.other_ne x (End.rig.inj e)

/-- R97: out of DARK. -/
theorem decideAuto_fromDark {t : End} {reason : Reason} (leaves : LeavesDark r) (way : darkReturn s g r = some (t, reason)) :
    decideAuto s g r none = transition s g r t reason := by
  have stands : failoverTarget s g (askedDest r none) = none := by
    rw [askedDest, leaves.1]
    rfl
  rw [decideAuto_usable stands, decideReturns_dark way]

theorem failoverTarget_away {e : GroupEntry} (steady : r.course = .steady (.rig e.home.other))
    (spare : rigUsable s g e.home.other = true) :
    failoverTarget s g r.course.dest = none := by
  rw [steady]
  exact failoverTarget_usable spare

section
variable {e : GroupEntry} (entry : groupEntry s g = e)
include entry

/-- R96: the last resort. -/
theorem decideAuto_goesDark {x : Rig} (on : r.course.dest = .rig x) (failed : rigUsable s g x = false)
    (none : rigUsable s g x.other = false) (last : e.lastResort = .goDark) :
    decideAuto s g r .none = transition s g r .dark .autoFailover := by
  subst entry
  have fails : failoverTarget s g (askedDest r .none) = some .dark := by
    rw [askedDest, on, failoverTarget_dark failed none last]
  refine (decideAuto_failover fails).trans (if_neg ?_)
  rw [on]
  nofun

/-- R88: where nothing acts, no transition is made. -/
theorem decideAuto_none (stands : failoverTarget s g r.course.dest = none) (way : darkReturn s g r = none)
    (remains : ¬Returns s g e r) : decideAuto s g r none = ⟨countHold s g r, none⟩ := by
  subst entry
  rw [decideAuto_usable (asked := none) stands, decideReturns_target way remains]

theorem decideAuto_staysOnFailed {x : Rig} (on : r.course.dest = .rig x) (failed : rigUsable s g x = false)
    (none : rigUsable s g x.other = false) (last : e.lastResort = .stayOnFailed) :
    decideAuto s g r .none = ⟨countHold s g r, .none⟩ := by
  subst entry
  refine decideAuto_none rfl (by rw [on, failoverTarget_stay failed none last])
    (darkReturn_none (home_of_none failed none _) (home_of_none failed none _)) fun returns => ?_
  exact ne_true_of_eq_false (home_of_none failed none _) returns.2.2.1

omit entry in
/-- R97: a group that went DARK by request stays there. -/
theorem decideAuto_staysDark (dark : r.course = .steady .dark) (asked : r.darkByRequest = true) :
    decideAuto s g r none = ⟨countHold s g r, none⟩ := by
  refine decideAuto_none rfl (by rw [dark]; rfl) (darkReturn_of_not fun leaves => ?_) fun returns => ?_
  · rw [leaves.2.2] at asked
    cases asked
  · have rig := dark.symm.trans returns.1
    cases rig

/-- R99, R100: the return. -/
theorem decideAuto_returnsHome (returns : Returns s g e r) (spare : rigUsable s g e.home.other = true) :
    decideAuto s g r none = transition s g r (.rig e.home) .autoReturn := by
  subst entry
  have stays : ¬LeavesDark r := fun leaves => by
    have dark := leaves.1.symm.trans returns.1
    cases dark
  rw [decideAuto_usable (asked := none) (failoverTarget_away returns.1 spare), decideReturns_home stays returns]

/-- R98: under STAY a failed-over group stays. -/
theorem decideAuto_staysAway (steady : r.course = .steady (.rig e.home.other)) (spare : rigUsable s g e.home.other = true)
    (policy : e.policy = .stay) : decideAuto s g r none = ⟨countHold s g r, none⟩ := by
  subst entry
  refine decideAuto_none rfl (failoverTarget_away steady spare) (darkReturn_of_not fun leaves => ?_) ?_
  · have dark := leaves.1.symm.trans steady
    cases dark
  · rintro ⟨-, -, -, -, ⟨hold, -⟩ | ⟨stop, -⟩⟩
    · rw [policy] at hold
      cases hold
    · rw [policy] at stop
      cases stop
end

end

/-! ## The requests of a group (R88, R89, R101) -/

section
variable {s : Part} {g : Fin 16} {r : GroupRec} {e : GroupEntry} (entry : groupEntry s g = e) (record : s.groups.get g = r)
include entry record

theorem decide88_fixed (mode : e.mode = .fixed) : decide88 s g = ⟨{ r with requests := [] }, none⟩ := by
  subst entry record
  simp only [decide88, mode]

theorem decide88_manual (mode : e.mode = .manual) {q : Request} (last : r.requests.getLast? = some q) :
    decide88 s g = transition s g { r with requests := [] } q.dest q.reason := by
  subst entry record
  simp only [decide88, mode, askedFor, last, Option.map_some]

theorem decide88_manual_unasked (mode : e.mode = .manual) (unasked : r.requests = []) : decide88 s g = ⟨r, none⟩ := by
  subst entry record
  have same : { s.groups.get g with requests := [] } = s.groups.get g := by rw [← unasked]
  simp only [decide88, mode, askedFor, unasked, List.getLast?_nil, Option.map_none, same]

theorem decide88_auto (mode : e.mode = .auto) {q : Request} (last : r.requests.getLast? = some q) :
    decide88 s g = decideAuto s g { r with requests := [] } (some (q.dest, q.reason)) := by
  subst entry record
  simp only [decide88, mode, askedFor, last, Option.map_some]

theorem decide88_auto_unasked (mode : e.mode = .auto) (unasked : r.requests = []) :
    decide88 s g = decideAuto s g r none := by
  subst entry record
  have same : { s.groups.get g with requests := [] } = s.groups.get g := by rw [← unasked]
  simp only [decide88, mode, askedFor, unasked, List.getLast?_nil, Option.map_none, same]
end

/-- R89: the requests are taken by the decision. -/
theorem decide88_requests (s : Part) (g : Fin 16) : (decide88 s g).after.requests = [] := by
  unfold decide88
  dsimp only
  split
  · rfl
  · split
    · exact transition_requests _
    · rfl
  · exact decideAuto_requests _

/-! ## The decisions of a boundary (R86, R88) -/

section
variable (w : Fin 16 → Bool) (s : Part) (g : Fin 16)

theorem refusedPart_course : ((refusedPart w s).groups.get g).course = (s.groups.get g).course :=
  ((Calm.foldl (fun _ _ => refuseRequests_calm _ _ _) _ s).trans
    (Calm.foldl (fun _ _ => refuseRequests_calm _ _ _) _ _)).course g

theorem refusedPart_asks : (refusedPart w s).gang.asks g = s.gang.asks g := by
  have refused (st : Status) (l : List (Fin 16)) (u : Part) :
      (l.foldl (fun t k => refuseRequests st k t) u).gang.asks g = u.gang.asks g := by
    induction l generalizing u with
    | nil => rfl
    | cons k l ih =>
      rw [List.foldl_cons, ih, (refuseRequests_ending st k u).gang]
      rfl
  exact (refused _ _ _).trans (refused _ _ _)

/-- R89, R101: a group that takes no decision of its own, and one that is FIXED, holds no request after it. -/
theorem refusedPart_requests (h : decides s w g = false ∨ (groupEntry s g).mode = .fixed) :
    ((refusedPart w s).groups.get g).requests = [] := by
  have own (st : Status) (u : Part) : ((refuseRequests st g u).groups.get g).requests = [] :=
    (unbound_fields (refuseRequests_record st g u)).2.2.2.2
  have kept (st : Status) (u : Part) (k : Fin 16) (none : (u.groups.get g).requests = []) :
      ((refuseRequests st k u).groups.get g).requests = [] := by
    by_cases same : k = g
    · rw [same]
      exact own st u
    · exact (unbound_fields (refuseRequests_undisturbed same st u).record).2.2.2.2.trans none
  have reached (st : Status) (l : List (Fin 16)) (u : Part) (mem : g ∈ l) :
      ((l.foldl (fun t k => refuseRequests st k t) u).groups.get g).requests = [] :=
    foldl_reaches (P := fun _ => True) (Q := fun t => (t.groups.get g).requests = []) (fun _ _ _ _ => trivial)
      (fun t _ => own st t) (fun t k => kept st t k) mem trivial
  have after (st : Status) (l : List (Fin 16)) (u : Part) (none : (u.groups.get g).requests = []) :
      ((l.foldl (fun t k => refuseRequests st k t) u).groups.get g).requests = [] := by
    induction l generalizing u with
    | nil => exact none
    | cons k l ih => exact ih _ (kept st u k none)
  by_cases deciding : decides s w g = true
  · refine reached _ _ _ (List.mem_filter.mpr ⟨mem_filter_allGroups.mpr deciding, beq_iff_eq.mpr (h.resolve_left ?_)⟩)
    rw [deciding]
    nofun
  · exact after _ _ _ (reached _ _ _ (mem_filter_allGroups.mpr (by rw [Bool.eq_false_of_not_eq_true deciding]; rfl)))

theorem decideGroups_decided : ((decideGroups w s).groups.get g).unbound = (decidedRecord w s g).unbound := by
  have decided : (decidedPart w s).groups.get g = decidedRecord w s g := Tbl.get_ofFn _ _
  rw [decideGroups_eq, ← decided]
  exact (announcedPart_undisturbed w s g).record

theorem decideGroups_asked : (decideGroups w s).gang.asks g = s.gang.asks g := by
  rw [decideGroups_eq]
  exact (announcedPart_undisturbed w s g).asks.trans (refusedPart_asks w s g)

theorem decidedRecord_requests : (decidedRecord w s g).requests = [] := by
  unfold decidedRecord
  split
  · exact decide88_requests _ _
  next taken => exact refusedPart_requests w s g (.inl (Bool.eq_false_of_not_eq_true taken))
end

section
variable {w : Fin 16 → Bool} {s : Part} {g : Fin 16} {e : GroupEntry}

theorem refusedPart_entry (entry : groupEntry s g = e) : groupEntry (refusedPart w s) g = e := by
  have tables : (refusedPart w s).tables = s.tables := (refusedPart_same w s).get .tables rfl
  rw [groupEntry, tables]
  exact entry

theorem decidedRecord_taken (taken : decides s w g = false) : (decidedRecord w s g).course = (s.groups.get g).course := by
  rw [decidedRecord, if_neg (ne_true_of_eq_false taken), refusedPart_course]

theorem decidedRecord_fixed (entry : groupEntry s g = e) (mode : e.mode = .fixed) :
    (decidedRecord w s g).course = (s.groups.get g).course := by
  rw [decidedRecord, decide88_fixed (refusedPart_entry entry) rfl mode, ← refusedPart_course w s g]
  split <;> rfl

/-- R89: a MANUAL group follows the last request that it holds. -/
theorem decidedRecord_manual (deciding : decides s w g = true) (entry : groupEntry s g = e) (mode : e.mode = .manual)
    {q : Request} (last : (s.groups.get g).requests.getLast? = some q) : ∃ r : GroupRec,
      r.course = (s.groups.get g).course ∧
        decidedRecord w s g = (transition (refusedPart w s) g r q.dest q.reason).after := by
  have open' : (groupEntry s g).mode ≠ .fixed := by
    rw [entry, mode]
    nofun
  have stands := (unbound_fields (refusedPart_undisturbed deciding open').record).2.2.2.2
  refine ⟨{ (refusedPart w s).groups.get g with requests := [] }, refusedPart_course w s g, ?_⟩
  rw [decidedRecord, if_pos deciding, decide88_manual (refusedPart_entry entry) rfl mode (by rw [stands, last])]
end

/-! ## The policy -/

/-- R88, R97, R99, R100: the clauses of an AUTO group with a request for another destination. -/
theorem decideAuto_request {s : Part} {g : Fin 16} {r : GroupRec} {e : GroupEntry} (entry : groupEntry s g = e) {d : End}
    (away : d ≠ r.course.dest) (reason : Reason) (leavesDark returns : Prop) (dark : leavesDark ↔ LeavesDark r)
    (home : returns ↔ Returns s g e r) :
    (usable s g d = true →
      (leavesDark → rigUsable s g e.home = true →
        decideAuto s g r (some (d, reason)) = transition s g r (.rig e.home) .autoReturn) ∧
      (leavesDark → rigUsable s g e.home = false →
        decideAuto s g r (some (d, reason)) = transition s g r (.rig e.home.other) .autoFailover) ∧
      (returns → decideAuto s g r (some (d, reason)) = transition s g r (.rig e.home) .autoReturn) ∧
      (¬leavesDark → ¬returns → decideAuto s g r (some (d, reason)) = transition s g r d reason)) ∧
    (∀ x n, d = .rig x → rigUsable s g x = false →
      (rigUsable s g x.other = true ∧ n = .rig x.other) ∨
        (rigUsable s g x.other = false ∧ e.lastResort = .goDark ∧ n = .dark) →
      (n ≠ r.course.dest → decideAuto s g r (some (d, reason)) = transition s g r n .autoFailover) ∧
      (n = r.course.dest → decideAuto s g r (some (d, reason)) = ⟨countHold s g r, none⟩)) ∧
    (∀ x, d = .rig x → rigUsable s g x = false → rigUsable s g x.other = false → e.lastResort = .stayOnFailed →
      decideAuto s g r (some (d, reason)) = transition s g r d reason) := by
  refine ⟨fun ok => ⟨fun leaves usable => ?_, fun leaves failed => ?_, fun back => ?_, fun stays remains => ?_⟩,
    fun x n rig failed way => ⟨fun other => ?_, decideAuto_back entry away reason rig failed way⟩,
    fun x rig failed none last => decideAuto_stays entry away reason rig failed none last⟩
  · rw [decideAuto_leaves entry away reason ok (dark.mp leaves), if_pos usable]
  · rw [decideAuto_leaves entry away reason ok (dark.mp leaves), if_neg (ne_true_of_eq_false failed)]
  · exact decideAuto_returns entry reason ok (home.mp back)
  · exact decideAuto_asked entry away reason ok (mt dark.mpr stays) (mt home.mpr remains)
  · refine decideAuto_elsewhere ?_ other
    subst entry rig
    rcases way with ⟨spare, rfl⟩ | ⟨none, last, rfl⟩
    · exact failoverTarget_other failed spare
    · exact failoverTarget_dark failed none last

/-- R88, R89: what nothing moves before the groups decide on a SOLO unit, and nothing after it. -/
theorem boundary_decidedRecord {l : Lines} (releasedA : l.btnA = false) (releasedB : l.btnB = false) (ord : Order) {s : Part}
    {g : Fin 16} (h : noResetDue s) (solo : s.gang.role = .solo) (noWrite : s.writes = []) (done : s.takeover.done = true)
    (noPress : s.gang.presses = []) (noMove : s.gang.pending.get g = none) (bare : ∀ r, (s.port.get r).slots = []) :
    ∃ u : Part, (u.groups.get g).unbound = (s.groups.get g).unbound ∧ groupEntry u g = groupEntry s g ∧
      decides u (takenUpAt (trackedPart l ord s)) g = !(s.groups.get g).startPending ∧
      ((boundary l ord s).groups.get g).unbound = (decidedRecord (takenUpAt (trackedPart l ord s)) u g).unbound := by
  have opened : Undisturbed g s (trackedPart l ord s) := trackedPart_undisturbed l ord h noWrite
  have requested : Undisturbed g (trackedPart l ord s) (decidingPart l ord (trackedPart l ord s)) :=
    decidingPart_undisturbed releasedA releasedB ord (opened.role.trans solo) (opened.presses.trans noPress)
      (fun r => opened.slots r (bare r)) (opened.pending.trans noMove) (by rw [trackedPart_done l ord s h, done])
  have before := opened.trans requested
  have tables : (decidingPart l ord (trackedPart l ord s)).tables = s.tables :=
    ((decidingPart_same l ord _).get .tables rfl).trans (trackedPart_tables l ord s h noWrite)
  have asked := decideGroups_asked (takenUpAt (trackedPart l ord s)) (decidingPart l ord (trackedPart l ord s)) g
  have settled := afterDecisions_undisturbed ord ((congrArg Prod.fst asked).trans (before.role.trans solo))
    ((congrArg (fun k => k.2.2) asked).trans (before.pending.trans noMove))
  refine ⟨_, before.record, by rw [groupEntry, tables, groupEntry], ?_,
    settled.record.trans (decideGroups_decided _ _ _)⟩
  rw [decides, takenUpAt, strayMove_of_none _ g (opened.pending.trans noMove), isLed_of_solo (before.role.trans solo),
    (unbound_fields opened.record).2.2.2.1, Bool.or_false, Bool.not_false, Bool.and_true]

/-- R88, R89, R101: the last clause at a boundary of a SOLO unit, by the record that the group has decided. -/
theorem decidedRecord_follows {w : Fin 16 → Bool} {u : Part} {g : Fin 16} {e : GroupEntry} {q : Request} {x : End}
    (entry : groupEntry u g = e) (asked : (u.groups.get g).requests.getLast? = some q)
    (steady : (u.groups.get g).course = .steady x) :
    (decides u w g = false ∨ e.mode = .fixed ∨ (e.mode = .manual ∧ q.dest = x) → (decidedRecord w u g).course = .steady x) ∧
    (decides u w g = true → e.mode = .manual → q.dest ≠ x →
      ∃ f, (decidedRecord w u g).course = .fading f ∧ f.kind.src = x ∧ f.kind.dst = q.dest ∧ f.q = 0 ∧
        f.len = fadeLength e.fade ∧ f.law = e.law ∧ f.reason = q.reason) := by
  refine ⟨fun stays => ?_, fun deciding manual away => ?_⟩
  · cases deciding : decides u w g with
    | false => rw [decidedRecord_taken deciding, steady]
    | true =>
      rcases stays with taken | fixed | ⟨manual, here⟩
      · rw [deciding] at taken
        cases taken
      · rw [decidedRecord_fixed entry fixed, steady]
      · obtain ⟨r, stands, decided⟩ := decidedRecord_manual deciding entry manual asked
        rw [decided, transition_of_dest (by rw [stands, steady, here]; rfl), stands, steady]
  · obtain ⟨r, stands, decided⟩ := decidedRecord_manual deciding entry manual asked
    obtain ⟨kind, turned, src, dst⟩ := turn_steady (Ne.symm away) (fadeLength e.fade) e.law
    rw [← steady, ← stands, ← refusedPart_entry (w := w) entry] at turned
    obtain ⟨f, -, course, hkind, hq, -, hlen, hlaw, hreason, -⟩ := transition_of_turn turned q.reason
    rw [refusedPart_entry entry] at hlen hlaw
    exact ⟨f, by rw [decided, course], by rw [hkind, src], by rw [hkind, dst], hq, hlen, hlaw, hreason⟩

/-- Settles O25. -/
theorem automaticPolicy : Obligations.AutomaticPolicy := by
  refine ⟨turn_dest, fun x n len law other => turn_steady other len law, fun f n len law other => turn_fading other len law,
    fun s g r n reason k q len law turned => transition_of_turn turned reason, ?requests, ?policy, ?boundary⟩
  case requests =>
    intro s g r e entry record
    refine ⟨fun mode => ?_, fun mode => ⟨decide88_manual_unasked entry record mode,
      fun q => decide88_manual entry record mode⟩, fun mode => ⟨decide88_auto_unasked entry record mode, fun q last => ?_⟩⟩
    · rw [decide88_fixed entry record mode]
      exact ⟨rfl, rfl⟩
    · rw [decide88_auto entry record mode last]
      refine ⟨fun here => decideAuto_present (r := { r with requests := [] }) _ here _,
        fun away leavesDark returns dark home => ?_⟩
      obtain ⟨asked, failed, stays⟩ :=
        decideAuto_request entry (r := { r with requests := [] }) away q.reason leavesDark returns dark home
      refine ⟨asked, fun x n rig unusable way => ⟨(failed x n rig unusable way).1, fun here => ?_⟩, stays⟩
      rw [(failed x n rig unusable way).2 here]
      subst entry
      refine ⟨rfl, ?_⟩
      cases failedOver : r.failedOver <;> simp [countHold, rise]
  case policy =>
    intro s g r e entry started
    have noneBegun : ∀ d : Decision, d = ⟨countHold s.toPart g r, none⟩ → d.begun = none ∧ d.after.course = r.course := by
      rintro _ rfl
      exact ⟨rfl, countHold_course _ _ _⟩
    refine ⟨fun x => decideAuto_failsOver, fun x on failed none => ⟨decideAuto_goesDark entry on failed none,
      fun last => noneBegun _ (decideAuto_staysOnFailed entry on failed none last)⟩, fun dark unasked ok => ?_,
      fun dark unasked failed spare => ?_, fun dark asked => (noneBegun _ (decideAuto_staysDark dark asked)).1,
      fun steady gone ok spare aligned policy => ?_,
      fun steady gone spare policy => (noneBegun _ (decideAuto_staysAway entry steady spare policy)).1⟩
    · subst entry
      exact decideAuto_fromDark ⟨dark, started, unasked⟩ (darkReturn_home ⟨dark, started, unasked⟩ ok)
    · subst entry
      exact decideAuto_fromDark ⟨dark, started, unasked⟩ (darkReturn_other ⟨dark, started, unasked⟩ failed spare)
    · obtain ⟨kind, way, src, dst⟩ := between_home e.home
      rw [decideAuto_returnsHome entry ⟨steady, gone, ok, aligned, policy⟩ spare, transition_home entry way steady]
      exact ⟨_, rfl, dst, rfl, rfl⟩
  case boundary =>
    intro l ord s g e q x h solo noWrite done noPress noMove bare releasedA releasedB entry last steady
    obtain ⟨u, before, same, deciding, after⟩ := boundary_decidedRecord releasedA releasedB ord h solo noWrite done noPress
      noMove bare
    obtain ⟨course, -, -, -, requests⟩ := unbound_fields before
    obtain ⟨course', -, -, -, requests'⟩ := unbound_fields after
    obtain ⟨stays, follows⟩ := decidedRecord_follows (w := takenUpAt (trackedPart l ord s.toPart)) (same.trans entry)
      (by rw [requests, last]) (course.trans steady)
    rw [deciding, Bool.not_eq_false'] at stays
    rw [deciding, Bool.not_eq_true'] at follows
    refine ⟨_, exec_boundary l ord s h.1, requests'.trans (decidedRecord_requests _ _ _),
      fun standing => course'.trans (stays standing), fun started manual away => ?_⟩
    obtain ⟨f, fading, rest⟩ := follows started manual away
    exact ⟨f, course'.trans fading, rest⟩

end Sys2Proof.Machine
end


section
/-! A MOVE_GROUP or a proposal at its turn (R89, R102, R103, R120, R123, R150, R151): the conditions and the checks, what an
execution hands and binds, what a failed check ends, and what a group's decision supersedes. -/

namespace Sys2Proof.Machine

/-! ## Checks and conditions (R149, R151) -/

theorem firstFailing_eq_none {mask : Half} {fails : Fin 16 → Bool} :
    firstFailing mask fails = none ↔ ∀ g, inMask mask g = true → fails g = false := by
  simp only [firstFailing, List.find?_eq_none, Bool.and_eq_true, not_and, Bool.not_eq_true]
  exact ⟨fun h g => h g (List.mem_finRange g), fun h g _ => h g⟩

/-- R151. -/
theorem condHolds_iff (s : Part) (mask : Half) (target : End) (c : Cond) : condHolds s mask target c = true ↔
    (c.targetUsable = true → ∀ g x, inMask mask g = true → target = .rig x → rigUsable s g x = true) ∧
    (c.aligned = true → s.tracker.inForce.aligned = true) ∧
    (c.targetStopped = true → ∀ x, target = .rig x → s.tracker.inForce.transport.get x = some .stop) ∧
    (c.bothStopped = true → s.tracker.inForce.bothStopped = true) := by
  have asked (b p : Bool) : (!b || p) = true ↔ (b = true → p = true) := by cases b <;> simp
  have reached : (firstFailing mask fun g => !usable s g target).isNone = true ↔
      ∀ g x, inMask mask g = true → target = .rig x → rigUsable s g x = true := by
    simp only [Option.isNone_iff_eq_none, firstFailing_eq_none, Bool.not_eq_false']
    cases target with
    | dark => simp [usable]
    | rig y =>
      simp only [usable, End.rig.injEq]
      exact ⟨fun h g x masked e => e ▸ h g masked, fun h g masked => h g y masked rfl⟩
  simp only [condHolds, Bool.and_eq_true, asked, and_assoc]
  refine and_congr (imp_congr_right fun _ => reached) (and_congr_right fun _ => and_congr_left fun _ =>
    imp_congr_right fun _ => ?_)
  cases target <;> simp

theorem checkAll_eq_none {s : Part} {mask : Half} {req : MoveReq} (h : checkAll s mask req = none) :
    checkAB s mask req = none ∧ checkCDE s mask req = none := by
  unfold checkAll at h
  split at h
  · cases h
  next first => exact ⟨first, h⟩

theorem checkAB_status {s : Part} {mask : Half} {req : MoveReq} {st : Status} {g : Fin 16}
    (h : checkAB s mask req = some (st, g)) : st ≠ .ok := by
  unfold checkAB at h
  split at h
  · cases h
    nofun
  · obtain ⟨k, -, e⟩ := Option.map_eq_some_iff.mp h
    cases e
    nofun

theorem checkCDE_status {s : Part} {mask : Half} {req : MoveReq} {st : Status} {g : Fin 16}
    (h : checkCDE s mask req = some (st, g)) : st ≠ .ok := by
  unfold checkCDE at h
  split at h
  · cases h
    nofun
  · split at h
    · cases h
      nofun
    · obtain ⟨k, -, e⟩ := Option.map_eq_some_iff.mp h
      cases e
      nofun

/-- R149: no check fails with OK. -/
theorem checkAll_status {s : Part} {mask : Half} {req : MoveReq} {st : Status} {g : Fin 16}
    (h : checkAll s mask req = some (st, g)) : st ≠ .ok := by
  unfold checkAll at h
  split at h
  next first =>
    cases h
    exact checkAB_status first
  next => exact checkCDE_status h

/-! ## The evaluation (R150, R151) -/

/-- R150, R151: a part whose checks and conditions let it execute. -/
def Ready (s : Part) (mask : Half) (req : MoveReq) (st : Stage) : Prop :=
  (st = .held ∧ checkAll s mask req = none) ∨
    (∃ n c, st = .waiting n ∧ req.cond = some c ∧ checkAll s mask req = none ∧ condHolds s mask req.target c = true)

/-- R150, R151: a part that a check ends. -/
def FailsCheck (s : Part) (mask : Half) (req : MoveReq) (st : Stage) (status : Status) (g : Fin 16) : Prop :=
  (st = .held ∧ checkAll s mask req = some (status, g)) ∨ (∃ n, st = .waiting n ∧ checkAB s mask req = some (status, g))

/-- R120, R123: the masked groups are those that this unit decides for (logs 35 and 57). -/
structure OwnGroups (s : Part) (o : Owner) (mask : Half) : Prop where
  matched : checkMatched s o mask = none
  notLed : checkLed s mask = none

section
variable {s : Part} {o : Owner} {mask : Half} {req : MoveReq} {st : Stage}

theorem Ready.live (h : Ready s mask req st) : st.isEnded = false := by
  rcases h with ⟨rfl, -⟩ | ⟨n, c, rfl, -⟩ <;> rfl

theorem FailsCheck.live {status : Status} {g : Fin 16} (h : FailsCheck s mask req st status g) : st.isEnded = false := by
  rcases h with ⟨rfl, -⟩ | ⟨n, rfl, -⟩ <;> rfl

theorem FailsCheck.status {status : Status} {g : Fin 16} (h : FailsCheck s mask req st status g) : status ≠ .ok := by
  rcases h with ⟨-, fails⟩ | ⟨n, -, fails⟩
  · exact checkAll_status fails
  · exact checkAB_status fails

theorem evalRun_execute (own : OwnGroups s o mask) (h : Ready s mask req st) : evalRun s o req ⟨mask, st⟩ = .execute := by
  rcases h with ⟨rfl, passes⟩ | ⟨n, c, rfl, cond, passes, holds⟩
  · simp only [evalRun, own.matched, own.notLed, orCheck, passes]
  · obtain ⟨first, later⟩ := checkAll_eq_none passes
    simp only [evalRun, own.matched, own.notLed, orCheck, first, later, cond, holds, Option.isNone_none, Bool.and_self,
      if_true]

theorem evalRun_fail {status : Status} {g : Fin 16} (own : OwnGroups s o mask) (h : FailsCheck s mask req st status g) :
    evalRun s o req ⟨mask, st⟩ = .fail status g := by
  rcases h with ⟨rfl, fails⟩ | ⟨n, rfl, fails⟩ <;> simp only [evalRun, own.matched, own.notLed, orCheck, fails]

/-- Log 35: an unmatched group fails before the other checks. -/
theorem evalRun_unmatched {g : Fin 16} (unmatched : checkMatched s o mask = some (.badTarget, g))
    (h : st = .held ∨ ∃ n, st = .waiting n) : evalRun s o req ⟨mask, st⟩ = .fail .badTarget g := by
  rcases h with rfl | ⟨n, rfl⟩ <;> simp only [evalRun, unmatched, orCheck]

theorem executeIfReady_of_none (none : ownerRun s o = .none) : executeIfReady o s = s := by
  rw [executeIfReady, none]

theorem executeIfReady_execute (run : ownerRun s o = some (req, ⟨mask, st⟩)) (own : OwnGroups s o mask)
    (h : Ready s mask req st) : executeIfReady o s = executeRun o req mask s := by
  simp only [executeIfReady, run, evalRun_execute own h]

theorem executeIfReady_fail {status : Status} {g : Fin 16} (run : ownerRun s o = some (req, ⟨mask, st⟩))
    (fails : evalRun s o req ⟨mask, st⟩ = .fail status g) : executeIfReady o s = endOwner o status (be8 g.val) s := by
  simp only [executeIfReady, run, fails]

theorem executeIfReady_executed {bound : Half} {frame : Word}
    (run : ownerRun s o = some (req, ⟨mask, .executed bound frame⟩)) :
    executeIfReady o s = s := by
  simp only [executeIfReady, run, evalRun]
end

theorem ownGroups_command {s : Part} {mask : Half} (notLed : ∀ g, inMask mask g = true → isLed s g = false) (r : Rig)
    (id : Nat) (ganged : Bool) : OwnGroups s (.command r id ganged) mask :=
  ⟨rfl, by rw [checkLed, firstFailing_eq_none.mpr notLed]; rfl⟩

/-- R113: a unit that leads a group is not led in it. -/
theorem isLed_of_leading {s : Part} {g : Fin 16} (leading : isLeading s g = true) : isLed s g = false := by
  simp only [isLeading, matchedAs, Bool.and_eq_true, beq_iff_eq] at leading
  simp [isLed, matchedAs, leading.1.1]

theorem ownGroups_proposal {s : Part} {mask : Half} (leading : ∀ g, inMask mask g = true → isLeading s g = true)
    (ref : Fin 8) : OwnGroups s (.proposal ref) mask := by
  have matched : (firstFailing mask fun g => !isLeading s g) = none :=
    firstFailing_eq_none.mpr fun g masked => by rw [leading g masked]; rfl
  exact ⟨by rw [checkMatched, matched]; rfl,
    by rw [checkLed, firstFailing_eq_none.mpr fun g masked => isLed_of_leading (leading g masked)]; rfl⟩

theorem checkMatched_proposal {s : Part} {mask : Half} {g : Fin 16} (masked : inMask mask g = true)
    (other : isLeading s g = false) (ref : Fin 8) : ∃ k, checkMatched s (.proposal ref) mask = some (.badTarget, k) := by
  cases first : firstFailing mask fun k => !isLeading s k with
  | none =>
    have leading := firstFailing_eq_none.mp first g masked
    rw [other] at leading
    cases leading
  | some k => exact ⟨k, by rw [checkMatched, first]; rfl⟩

/-! ## The binding of a group (R102) -/

/-- From `s` to `t` groups may have been bound to an owner, whose slot or entry stands; no other binding has been set. -/
structure Binds (o : Owner) (s t : Part) : Prop where
  spares : Spares o s t
  other : ∀ g p, (t.groups.get g).binding = some p → p = o ∨ (s.groups.get g).binding = some p

theorem Binds.trans {o : Owner} {s t u : Part} (h : Binds o s t) (k : Binds o t u) : Binds o s u :=
  ⟨h.spares.trans k.spares, fun g p bound => (k.other g p bound).elim .inl (h.other g p)⟩

/-- What a group is bound to may be superseded without harm to an owner that binds it. -/
def Bindable (s : Part) (o : Owner) (g : Fin 16) : Prop :=
  ∀ p, (s.groups.get g).binding = some p → p = o ∨ Harmless s o p

theorem Binds.bindable {o : Owner} {s t : Part} {g : Fin 16} (h : Binds o s t) (k : Bindable s o g) : Bindable t o g := by
  intro p bound
  rcases h.other g p bound with own | before
  · exact .inl own
  · exact (k p before).imp_right h.spares.harmless

/-- The part in which the group's former binding has been superseded. -/
def displacedPart (o : Owner) (g : Fin 16) (s : Part) : Part :=
  match (s.groups.get g).binding with
  | some old => if old = o then s else supersede old g s
  | none => s

theorem bindGroup_eq (o : Owner) (g : Fin 16) (s : Part) : bindGroup o g s =
    (displacedPart o g s).setGroup g { (displacedPart o g s).groups.get g with binding := some o } := rfl

theorem displacedPart_ending (o : Owner) (g : Fin 16) (s : Part) : Ending s (displacedPart o g s) := by
  unfold displacedPart
  split
  · split
    · exact .refl s
    · exact supersede_ending _ _ _
  · exact .refl s

theorem displacedPart_spares {o : Owner} {g : Fin 16} {s : Part} (h : Bindable s o g) : Spares o s (displacedPart o g s) := by
  unfold displacedPart
  split
  next old bound =>
    split
    · exact .refl o s
    next other => exact supersede_spares ((h old bound).resolve_left other) g
  · exact .refl o s

theorem bindGroup_binding (o : Owner) (g k : Fin 16) (s : Part) : ((bindGroup o g s).groups.get k).binding =
    if k = g then some o else ((displacedPart o g s).groups.get k).binding := by
  rw [bindGroup_eq, setGroup_groups, Tbl.get_set]
  split <;> rfl

theorem bindGroup_binds {o : Owner} {g : Fin 16} {s : Part} (h : Bindable s o g) : Binds o s (bindGroup o g s) := by
  have spares := displacedPart_spares h
  have entry : ownerEntry (bindGroup o g s) o = ownerEntry (displacedPart o g s) o := by cases o <;> rfl
  refine ⟨⟨entry.trans spares.entry, fun k bound => ?_⟩, fun k p bound => ?_⟩
  · rw [bindGroup_binding]
    split
    · rfl
    · exact spares.binding k bound
  · rw [bindGroup_binding] at bound
    split at bound
    · exact .inl (Option.some.inj bound).symm
    · exact .inr ((displacedPart_ending o g s).binding k p bound)

theorem foldl_bindGroup {o : Owner} {l : List (Fin 16)} {s : Part} (h : ∀ g ∈ l, Bindable s o g) :
    Binds o s (l.foldl (fun t g => bindGroup o g t) s) ∧
      ∀ g ∈ l, ((l.foldl (fun t g => bindGroup o g t) s).groups.get g).binding = some o := by
  induction l generalizing s with
  | nil => exact ⟨⟨.refl o s, fun _ _ => .inr⟩, nofun⟩
  | cons k l ih =>
    rw [List.forall_mem_cons] at h
    have first := bindGroup_binds h.1
    obtain ⟨rest, bound⟩ := ih fun g mem => first.bindable (h.2 g mem)
    refine ⟨first.trans rest, List.forall_mem_cons.mpr ⟨rest.spares.binding k ?_, bound⟩⟩
    rw [bindGroup_binding, if_pos rfl]

/-! ## An execution (R102, R150) -/

/-- The part in which the owner's stage shows its execution. -/
def executingPart (o : Owner) (req : MoveReq) (mask : Half) (s : Part) : Part :=
  setStage o (.executed (toBind s mask req.target) s.clock.frame) s

/-- The part in which the groups that are not yet steady on the target are bound. -/
def boundPart (o : Owner) (req : MoveReq) (mask : Half) (s : Part) : Part :=
  (allGroups.filter fun g => inMask (toBind s mask req.target) g).foldl (fun t g => bindGroup o g t)
    (executingPart o req mask s)

/-- The part in which every masked group holds the request. -/
def handedPart (o : Owner) (req : MoveReq) (mask : Half) (s : Part) : Part :=
  (allGroups.filter fun g => inMask mask g).foldl (fun t g => addRequest g ⟨req.target, .command, some o⟩ t)
    (boundPart o req mask s)

theorem executeRun_eq (o : Owner) (req : MoveReq) (mask : Half) (s : Part) : executeRun o req mask s =
    if toBind s mask req.target = 0#16
    then endOwner o .ok (be16 (toBind s mask req.target) ++ be32 s.clock.frame) (handedPart o req mask s)
    else handedPart o req mask s := rfl

theorem inMask_toBind (s : Part) (mask : Half) (target : End) (g : Fin 16) : inMask (toBind s mask target) g = true ↔
    inMask mask g = true ∧ (s.groups.get g).course ≠ .steady target := by
  rw [toBind, inMask_maskOf, Bool.and_eq_true, bne_iff_ne]

theorem toBind_ne_zero {s : Part} {mask : Half} {target : End}
    (h : ∃ g, inMask mask g = true ∧ (s.groups.get g).course ≠ .steady target) : toBind s mask target ≠ 0#16 := by
  obtain ⟨g, away⟩ := h
  intro zero
  have masked := (inMask_toBind s mask target g).mpr away
  rw [zero, inMask, BitVec.getLsbD_zero] at masked
  cases masked

theorem toBind_eq_zero {s : Part} {mask : Half} {target : End}
    (h : ∀ g, inMask mask g = true → (s.groups.get g).course = .steady target) : toBind s mask target = 0#16 := by
  refine BitVec.eq_of_getLsbD_eq fun i hi => ?_
  rw [BitVec.getLsbD_zero]
  refine Bool.eq_false_of_not_eq_true fun masked => ?_
  obtain ⟨named, away⟩ := (inMask_toBind s mask target ⟨i, hi⟩).mp masked
  exact away (h _ named)

section
variable (o : Owner) (req : MoveReq) (mask : Half) (s : Part) (g : Fin 16)

theorem handedPart_record : (handedPart o req mask s).groups.get g = if inMask mask g = true then
    { (boundPart o req mask s).groups.get g with
      requests := ((boundPart o req mask s).groups.get g).requests ++ [⟨req.target, .command, some o⟩] }
    else (boundPart o req mask s).groups.get g := by
  rw [handedPart, foldl_addRequest _ (allGroups_nodup.filter _)]
  simp only [mem_filter_allGroups]

theorem boundPart_requests : ((boundPart o req mask s).groups.get g).requests = (s.groups.get g).requests := by
  have bound : Undisturbed g (executingPart o req mask s) (boundPart o req mask s) :=
    .foldl (fun k _ u => bindGroup_undisturbed o k u) _
  exact (unbound_fields bound.record).2.2.2.2.trans ((setStage_ending o _ s).requests g)

theorem executeRun_requests : ((executeRun o req mask s).groups.get g).requests = (s.groups.get g).requests ++
    if inMask mask g = true then [⟨req.target, .command, some o⟩] else [] := by
  have handed : ((handedPart o req mask s).groups.get g).requests = (s.groups.get g).requests ++
      if inMask mask g = true then [⟨req.target, .command, some o⟩] else [] := by
    rw [handedPart_record, ← boundPart_requests o req mask s g]
    split
    · rfl
    · rw [List.append_nil]
  rw [executeRun_eq]
  split
  · rw [(endOwner_ending _ _ _ _).requests, handed]
  · exact handed
end

section
variable {o : Owner} {req : MoveReq} {mask : Half} {s : Part}
  (free : ∀ g, inMask mask g = true → Bindable (executingPart o req mask s) o g)
include free

theorem boundPart_binds : Binds o (executingPart o req mask s) (boundPart o req mask s) ∧
    ∀ g, inMask mask g = true → (s.groups.get g).course ≠ .steady req.target →
      ((boundPart o req mask s).groups.get g).binding = some o := by
  obtain ⟨binds, bound⟩ := foldl_bindGroup (o := o) (s := executingPart o req mask s)
    (l := allGroups.filter fun g => inMask (toBind s mask req.target) g)
    fun g mem => free g ((inMask_toBind s mask req.target g).mp (mem_filter_allGroups.mp mem)).1
  exact ⟨binds, fun g masked away => bound g (mem_filter_allGroups.mpr
    ((inMask_toBind s mask req.target g).mpr ⟨masked, away⟩))⟩

/-- R102: the binding is set on the masked groups that are not yet steady on the target. -/
theorem handedPart_binding (g : Fin 16) (masked : inMask mask g = true) (away : (s.groups.get g).course ≠ .steady req.target) :
    ((handedPart o req mask s).groups.get g).binding = some o := by
  rw [handedPart_record, if_pos masked]
  exact (boundPart_binds free).2 g masked away

theorem handedPart_entry : ownerEntry (handedPart o req mask s) o = ownerEntry (executingPart o req mask s) o := by
  have handed : Same [.groups] (boundPart o req mask s) (handedPart o req mask s) :=
    Same.foldl (fun u g => addRequest_same g ⟨req.target, .command, some o⟩ u) _ _
  have port : (handedPart o req mask s).port = (boundPart o req mask s).port := handed.get .port rfl
  have gang : (handedPart o req mask s).gang = (boundPart o req mask s).gang := handed.get .gang rfl
  rw [← (boundPart_binds free).1.spares.entry]
  cases o with
  | command r id ganged => rw [ownerEntry, ownerEntry, port]
  | proposal ref => rw [ownerEntry, ownerEntry, gang]

/-- R102, R150: what an execution hands and binds. -/
theorem executeRun_groups (g : Fin 16) : ((executeRun o req mask s).groups.get g).course = (s.groups.get g).course ∧
    (inMask mask g = false → ((executeRun o req mask s).groups.get g).requests = (s.groups.get g).requests) ∧
    (inMask mask g = true → ((executeRun o req mask s).groups.get g).requests =
      (s.groups.get g).requests ++ [⟨req.target, .command, some o⟩]) ∧
    (inMask mask g = true → (s.groups.get g).course ≠ .steady req.target →
      ((executeRun o req mask s).groups.get g).binding = some o) := by
  refine ⟨(executeRun_calm o req mask s).course g, fun out => ?_, fun masked => ?_, fun masked away => ?_⟩
  · rw [executeRun_requests, if_neg (ne_true_of_eq_false out), List.append_nil]
  · rw [executeRun_requests, if_pos masked]
  · rw [executeRun_eq, if_neg (toBind_ne_zero ⟨g, masked, away⟩)]
    exact handedPart_binding free g masked away

theorem executeRun_entry (some' : ∃ g, inMask mask g = true ∧ (s.groups.get g).course ≠ .steady req.target) :
    ownerEntry (executeRun o req mask s) o = ownerEntry (executingPart o req mask s) o := by
  rw [executeRun_eq, if_neg (toBind_ne_zero some')]
  exact handedPart_entry free
end

theorem executeRun_of_steady {o : Owner} {req : MoveReq} {mask : Half} {s : Part}
    (steady : ∀ g, inMask mask g = true → (s.groups.get g).course = .steady req.target) :
    executeRun o req mask s = endOwner o .ok (be16 0#16 ++ be32 s.clock.frame) (handedPart o req mask s) := by
  rw [executeRun_eq, toBind_eq_zero steady, if_pos rfl]

theorem executingPart_find {s : Part} {r : Rig} {id : Nat} {h : Held} {m : MoveCmd} {ganged : Bool} {part : MovePart}
    (found : (s.port.get r).find id = some h) (phase : h.phase = .move m) (own : m.part ganged = some part)
    (req : MoveReq) (mask : Half) :
    ((executingPart (.command r id ganged) req mask s).port.get r).find id = some { h with phase :=
      (.move (m.setPart ganged { part with stage := .executed (toBind s mask req.target) s.clock.frame })) } := by
  simp only [executingPart, setStage, moveOf_of_find found phase, own]
  exact setPhase_find found _

theorem executingPart_board {s : Part} {ref : Fin 8} {round : Bool} {req : MoveReq} {part : MovePart}
    (held : s.gang.board.get ref = ⟨round, .held req part⟩) (mask : Half) :
    (executingPart (.proposal ref) req mask s).gang.board.get ref =
      ⟨round, .held req { part with stage := .executed (toBind s mask req.target) s.clock.frame }⟩ := by
  simp only [executingPart, setStage, held]
  exact Tbl.get_set_self _ _ _

/-! ## The command that is named (R150; log 23) -/

theorem exec_moveGroupExecute {name : MoveName} {s : State} (running : s.inReset = false) :
    exec (.moveGroupExecute name) s =
      .next (s.withPart ((namedOwners s.toPart name).foldl (fun t o => executeIfReady o t) s.toPart)) :=
  exec_of_running (f := fun u => (namedOwners u name).foldl (fun t o => executeIfReady o t) u) rfl running

theorem namedOwners_command {s : Part} {r : Rig} {tag : Byte} {id : Nat} (first : (moveIds s r tag).head? = some id) :
    namedOwners s (.command r tag) = [.command r id false, .command r id true] := by
  obtain ⟨rest, e⟩ := List.head?_eq_some_iff.mp first
  rw [namedOwners, e]

theorem exec_moveGroupExecute_command {r : Rig} {tag : Byte} {id : Nat} {s : State} (running : s.inReset = false)
    (first : (moveIds s.toPart r tag).head? = some id) : exec (.moveGroupExecute (.command r tag)) s = .next (s.withPart
      (executeIfReady (.command r id true) (executeIfReady (.command r id false) s.toPart))) := by
  rw [exec_moveGroupExecute running, namedOwners_command first]
  rfl

theorem exec_moveGroupExecute_proposal {ref : Fin 8} {s : State} (running : s.inReset = false) :
    exec (.moveGroupExecute (.proposal ref)) s = .next (s.withPart (executeIfReady (.proposal ref) s.toPart)) :=
  exec_moveGroupExecute running

end Sys2Proof.Machine
end


section
/-! MOVE_GROUP_EXECUTE for a command, for the part that it has reclaimed and for a proposal (R102, R120, R123, R150, R151), and
what the requests and the decision of a group supersede (R89, R103). -/

namespace Sys2Proof.Machine

/-! ## A command that has not been split (R150, R151) -/

section
variable {r : Rig} {id : Nat} {h : Held} {req : MoveReq} {mask : Half} {st : Stage} {s : Part}
  (found : (s.port.get r).find id = some h) (phase : h.phase = .move ⟨req, some ⟨mask, st⟩, none, none⟩)
  (notLed : ∀ g, inMask mask g = true → isLed s g = false)
include found phase

theorem run_own : ownerRun s (.command r id false) = some (req, ⟨mask, st⟩) := ownerRun_of_find found phase false

theorem executed_find : ((executingPart (.command r id false) req mask s).port.get r).find id = some { h with phase :=
    (.move ⟨req, some ⟨mask, .executed (toBind s mask req.target) s.clock.frame⟩, none, none⟩) } :=
  executingPart_find (ganged := false) (part := ⟨mask, st⟩) found phase rfl req mask

theorem executed_bindable (g : Fin 16) : Bindable (executingPart (.command r id false) req mask s) (.command r id false) g :=
  fun p _ => or_iff_not_imp_left.mpr (lone_command (executed_find found phase) rfl p)

theorem executed_entry (some' : ∃ g, inMask mask g = true ∧ (s.groups.get g).course ≠ .steady req.target) :
    ((executeRun (.command r id false) req mask s).port.get r).find id = some { h with phase :=
      (.move ⟨req, some ⟨mask, .executed (toBind s mask req.target) s.clock.frame⟩, none, none⟩) } :=
  (Sum.inl.inj (executeRun_entry (fun g _ => executed_bindable found phase g) some')).trans (executed_find found phase)

theorem handed_find : ((handedPart (.command r id false) req mask s).port.get r).find id = some { h with phase :=
    (.move ⟨req, some ⟨mask, .executed (toBind s mask req.target) s.clock.frame⟩, none, none⟩) } :=
  (Sum.inl.inj (handedPart_entry fun g _ => executed_bindable found phase g)).trans (executed_find found phase)

/-- A command that has executed has no reclaimed part. -/
theorem executeRun_sibling : ownerRun (executeRun (.command r id false) req mask s) (.command r id true) = none := by
  by_cases away : ∃ g, inMask mask g = true ∧ (s.groups.get g).course ≠ .steady req.target
  · exact ownerRun_of_find (executed_entry found phase away) rfl true
  · have steady : ∀ g, inMask mask g = true → (s.groups.get g).course = .steady req.target := fun g masked =>
      not_not.mp fun elsewhere => away ⟨g, masked, elsewhere⟩
    rw [executeRun_of_steady steady]
    exact endOwner_run (handed_find found phase) rfl rfl _ _ true

/-- R102: with none to bind the command completes OK. -/
theorem executeRun_answered (steady : ∀ g, inMask mask g = true → (s.groups.get g).course = .steady req.target) :
    ⟨id, h.tag, h.code, .ok, 0, be16 0#16 ++ be32 s.clock.frame⟩ ∈
      ((executeRun (.command r id false) req mask s).port.get r).responses := by
  rw [executeRun_of_steady steady]
  exact (endOwner_answered (handed_find found phase) rfl rfl _ _).1

include notLed

theorem command_executes (ready : Ready s mask req st) :
    executeIfReady (.command r id true) (executeIfReady (.command r id false) s) =
      executeRun (.command r id false) req mask s := by
  rw [executeIfReady_execute (run_own found phase) (ownGroups_command notLed r id false) ready,
    executeIfReady_of_none (executeRun_sibling found phase)]

theorem command_fails {status : Status} {g : Fin 16} (fails : FailsCheck s mask req st status g) :
    executeIfReady (.command r id true) (executeIfReady (.command r id false) s) =
      endOwner (.command r id false) status (be8 g.val) s := by
  rw [executeIfReady_fail (run_own found phase) (evalRun_fail (ownGroups_command notLed r id false) fails),
    executeIfReady_of_none (endOwner_run found phase fails.live _ _ true)]
end

/-! ## A reclaimed part (R123; log 23) -/

/-- The masked groups of a reclaimed part hold no binding of the command's own part. -/
theorem reclaimed_bindable {r : Rig} {id : Nat} {req : MoveReq} {mask : Half} {s : Part}
    (clear : ∀ g, inMask mask g = true → (s.groups.get g).binding ≠ some (.command r id false)) (g : Fin 16)
    (masked : inMask mask g = true) :
    Bindable (executingPart (.command r id true) req mask s) (.command r id true) g := by
  intro p held
  have before := (setStage_ending (.command r id true) _ s).binding g p held
  cases p with
  | proposal ref => exact .inr (.inl trivial)
  | command x k ganged =>
    by_cases sibling : x = r ∧ k = id
    · obtain ⟨rfl, rfl⟩ := sibling
      cases ganged with
      | true => exact .inl rfl
      | false => exact absurd before (clear g masked)
    · exact .inr (.inl sibling)

section
variable {r : Rig} {id : Nat} {h : Held} {req : MoveReq} {own mask bound : Half} {frame : Word} {st : Stage} {s : Part}
  (found : (s.port.get r).find id = some h)
  (phase : h.phase = .move ⟨req, some ⟨own, .executed bound frame⟩, some ⟨mask, st⟩, none⟩)
include found phase

/-- The command's own part has executed, so that the event acts on the reclaimed one. -/
theorem reclaimed_acts : executeIfReady (.command r id true) (executeIfReady (.command r id false) s) =
    executeIfReady (.command r id true) s := by
  rw [executeIfReady_executed (ownerRun_of_find found phase false)]

theorem run_reclaimed : ownerRun s (.command r id true) = some (req, ⟨mask, st⟩) := ownerRun_of_find found phase true

/-- R119: the reclaimed part ends by a check while the command's own part still stands. -/
theorem endOwner_reclaimed (live : st.isEnded = false) {status : Status} (fails : status ≠ .ok) (results : List Byte) :
    ((endOwner (.command r id true) status results s).port.get r).find id = some { h with phase :=
      (.move ⟨req, some ⟨own, .executed bound frame⟩, some ⟨mask, .ended results⟩, some (status, results)⟩) } := by
  have part : MoveCmd.part ⟨req, some ⟨own, .executed bound frame⟩, some ⟨mask, st⟩, none⟩ true = some ⟨mask, st⟩ := rfl
  have ended : MoveCmd.endPart ⟨req, some ⟨own, .executed bound frame⟩, some ⟨mask, st⟩, none⟩ true ⟨mask, st⟩
      status results = ⟨req, some ⟨own, .executed bound frame⟩, some ⟨mask, .ended results⟩, some (status, results)⟩ :=
    if_pos ⟨fails, rfl⟩
  have stands : partEnded (some ⟨own, .executed bound frame⟩) = false := rfl
  simp only [endOwner, moveOf_of_find found phase, part, live, Bool.false_eq_true, if_false, ended, stands, Bool.false_and]
  exact setPhase_find found _

variable (clear : ∀ g, inMask mask g = true → isLed s g = false ∧ (s.groups.get g).binding ≠ some (.command r id false))
include clear

theorem reclaimed_executes (ready : Ready s mask req st) :
    executeIfReady (.command r id true) (executeIfReady (.command r id false) s) =
      executeRun (.command r id true) req mask s := by
  rw [reclaimed_acts found phase, executeIfReady_execute (run_reclaimed found phase)
    (ownGroups_command (fun g masked => (clear g masked).1) r id true) ready]

theorem reclaimed_fails {status : Status} {g : Fin 16} (fails : FailsCheck s mask req st status g) :
    executeIfReady (.command r id true) (executeIfReady (.command r id false) s) =
      endOwner (.command r id true) status (be8 g.val) s := by
  rw [reclaimed_acts found phase, executeIfReady_fail (run_reclaimed found phase)
    (evalRun_fail (ownGroups_command (fun g masked => (clear g masked).1) r id true) fails)]

theorem reclaimed_find (some' : ∃ g, inMask mask g = true ∧ (s.groups.get g).course ≠ .steady req.target) :
    ((executeRun (.command r id true) req mask s).port.get r).find id = some { h with phase :=
      (.move ⟨req, some ⟨own, .executed bound frame⟩,
        some ⟨mask, .executed (toBind s mask req.target) s.clock.frame⟩, none⟩) } :=
  (Sum.inl.inj (executeRun_entry (reclaimed_bindable fun g masked => (clear g masked).2) some')).trans
    (executingPart_find (ganged := true) (part := ⟨mask, st⟩) found phase rfl req mask)
end

/-! ## A proposal that a leader holds (R120) -/

section
variable {k : Fin 8} {round : Bool} {req : MoveReq} {mask : Half} {st : Stage} {s : Part}
  (held : s.gang.board.get k = ⟨round, .held req ⟨mask, st⟩⟩)

theorem proposal_bindable (g : Fin 16) : Bindable (executingPart (.proposal k) req mask s) (.proposal k) g :=
  fun p _ => or_iff_not_imp_left.mpr (lone_proposal _ k p)

include held

theorem proposal_fails {status : Status} {g : Fin 16} (fails : evalRun s (.proposal k) req ⟨mask, st⟩ = .fail status g) :
    (∀ j, ((executeIfReady (.proposal k) s).groups.get j).requests = (s.groups.get j).requests) ∧
      (executeIfReady (.proposal k) s).gang.board.get k = ⟨round, .answered status⟩ ∧
      ⟨k, round, status⟩ ∈ (executeIfReady (.proposal k) s).gang.answers := by
  rw [executeIfReady_fail (ownerRun_of_board held) fails]
  exact ⟨(endOwner_ending _ _ _ s).requests, endOwner_board held status _⟩

theorem proposal_board (some' : ∃ g, inMask mask g = true ∧ (s.groups.get g).course ≠ .steady req.target) :
    (executeRun (.proposal k) req mask s).gang.board.get k =
      ⟨round, .held req ⟨mask, .executed (toBind s mask req.target) s.clock.frame⟩⟩ :=
  (Sum.inr.inj (executeRun_entry (fun g _ => proposal_bindable g) some')).trans (executingPart_board held mask)

theorem proposal_answered (steady : ∀ g, inMask mask g = true → (s.groups.get g).course = .steady req.target) :
    (executeRun (.proposal k) req mask s).gang.board.get k = ⟨round, .answered .ok⟩ ∧
      ⟨k, round, .ok⟩ ∈ (executeRun (.proposal k) req mask s).gang.answers := by
  have handed : (handedPart (.proposal k) req mask s).gang.board.get k =
      ⟨round, .held req ⟨mask, .executed (toBind s mask req.target) s.clock.frame⟩⟩ :=
    (Sum.inr.inj (handedPart_entry fun g _ => proposal_bindable g)).trans (executingPart_board held mask)
  rw [executeRun_of_steady steady]
  exact endOwner_board handed _ _
end

/-! ## Replaced requests (R89; log 14) -/

theorem mem_replacedOwners_cons (q : Request) (rest : List Request) (o : Owner) : o ∈ replacedOwners (q :: rest) ↔
    (q.owner = some o ∧ ∃ later ∈ rest, later.replaces q = true) ∨ o ∈ replacedOwners rest := by
  rw [replacedOwners, List.mem_append]
  refine or_congr_left ?_
  by_cases replaced : rest.any fun later => later.replaces q
  · rw [if_pos replaced, Option.mem_toList]
    exact ⟨fun own => ⟨own, List.any_eq_true.mp replaced⟩, fun own => own.1⟩
  · rw [if_neg replaced]
    exact ⟨nofun, fun own => absurd (List.any_eq_true.mpr own.2) replaced⟩

theorem mem_replacedOwners (requests : List Request) (o : Owner) : o ∈ replacedOwners requests ↔
    ∃ (i j : Nat) (q later : Request), i < j ∧ requests[i]? = some q ∧ requests[j]? = some later ∧ q.owner = some o ∧
      (later.dest ≠ q.dest ∨ (later.owner ≠ none ∧ later.owner ≠ q.owner)) := by
  simp only [← Request.replaces_iff]
  induction requests with
  | nil => exact ⟨nofun, fun ⟨_, _, _, _, _, first, _⟩ => absurd first (by simp)⟩
  | cons x rest ih =>
    rw [mem_replacedOwners_cons, ih]
    constructor
    · rintro (⟨own, later, mem, replaces⟩ | ⟨i, j, q, later, before, first, second, own, replaces⟩)
      · obtain ⟨j, place⟩ := List.mem_iff_getElem?.mp mem
        exact ⟨0, j + 1, x, later, Nat.succ_pos j, rfl, place, own, replaces⟩
      · exact ⟨i + 1, j + 1, q, later, Nat.succ_lt_succ before, first, second, own, replaces⟩
    · rintro ⟨i, j, q, later, before, first, second, own, replaces⟩
      obtain ⟨j, rfl⟩ := Nat.exists_eq_succ_of_ne_zero (Nat.ne_zero_of_lt before)
      cases i with
      | zero =>
        cases first
        exact .inl ⟨own, later, List.mem_of_getElem? second, replaces⟩
      | succ i => exact .inr ⟨i, j, q, later, Nat.lt_of_succ_lt_succ before, first, second, own, replaces⟩

/-! ## Supersession at a group's decision (R103) -/

section
variable {s : Part} {g : Fin 16} {r : Rig} {id : Nat} {h : Held} {req : MoveReq} {mask bound : Half} {frame : Word}
  (found : (s.port.get r).find id = some h)
  (phase : h.phase = .move ⟨req, some ⟨mask, .executed bound frame⟩, none, none⟩)
include found phase

/-- R89: a later request of the same boundary replaced the command's own. -/
theorem supersedeReplaced_answered {requests : List Request} (replaced : .command r id false ∈ replacedOwners requests) :
    Answered r ⟨id, h.tag, h.code, .superseded, 0, be16 bound ++ be32 frame ++ be8 g.val⟩ (.command r id false)
      (supersedeReplaced g requests s) := by
  refine foldl_reaches (f := fun u o => supersede o g u) (P := fun u => (u.port.get r).find id = some h)
    (fun u p other here => ?_) (fun u here => ?_) (fun u p => (supersede_ending p g u).answered) replaced found
  · exact (supersede_spares (lone_command here phase p other) g).find.trans here
  · rw [supersede_of_run (ownerRun_of_find here phase false)]
    exact endOwner_answered here phase rfl _ _

/-- R103: the group goes elsewhere, or the command's request was replaced. -/
theorem settleBinding_answered {requests : List Request}
    (departs : ((s.groups.get g).binding = some (.command r id false) ∧ (s.groups.get g).course.dest ≠ req.target) ∨
      .command r id false ∈ replacedOwners requests) :
    Answered r ⟨id, h.tag, h.code, .superseded, 0, be16 bound ++ be32 frame ++ be8 g.val⟩ (.command r id false)
      (settleBinding g requests s) := by
  by_cases replaced : .command r id false ∈ replacedOwners requests
  · exact (supersedeIfElsewhere_ending g _).answered (supersedeReplaced_answered found phase replaced)
  · obtain ⟨held, elsewhere⟩ := departs.resolve_right replaced
    have spares (l : List Owner) (out : .command r id false ∉ l) {u : Part} (here : (u.port.get r).find id = some h) :
        Spares (.command r id false) u (l.foldl (fun t o => supersede o g t) u) := by
      induction l generalizing u with
      | nil => exact .refl _ u
      | cons p l ih =>
        obtain ⟨other, rest⟩ := not_or.mp (mt List.mem_cons.mpr out)
        have first := supersede_spares (lone_command here phase p (Ne.symm other)) g
        exact first.trans (ih rest (first.find.trans here))
    have stands := spares _ replaced found
    refine supersedeIfElsewhere_answered (stands.find.trans found) phase (stands.binding g held) ?_
    exact (congrArg Course.dest ((supersedeReplaced_ending g requests s).course g)).trans_ne elsewhere
end

/-! ## The statement -/

/-- Settles O49. -/
theorem moveGroupExecutes : Obligations.MoveGroupExecutes := by
  refine ⟨condHolds_iff, ?command, ?reclaimed, ?proposal, mem_replacedOwners, ?supersession⟩
  case command =>
    intro r tag id h req mask st s running first found phase notLed
    refine ⟨fun ready => ?_, fun status g fails => ?_⟩
    · refine ⟨_, exec_moveGroupExecute_command running first, ?_⟩
      rw [State.toPart_withPart, command_executes found phase notLed ready]
      exact ⟨executeRun_groups fun g _ => executed_bindable found phase g, executed_entry found phase,
        executeRun_answered found phase⟩
    · refine ⟨_, exec_moveGroupExecute_command running first, ?_⟩
      rw [State.toPart_withPart, command_fails found phase notLed fails]
      exact ⟨(endOwner_ending _ _ _ _).requests, (endOwner_answered found phase (FailsCheck.live fails) _ _).1⟩
  case reclaimed =>
    intro r tag id h req own mask bound frame st s running first found phase clear
    refine ⟨fun ready away => ?_, fun status g fails => ?_⟩
    · refine ⟨_, exec_moveGroupExecute_command running first, ?_⟩
      rw [State.toPart_withPart, reclaimed_executes found phase clear ready]
      refine ⟨fun g masked => ?_, reclaimed_find found phase clear away⟩
      obtain ⟨-, -, handed, held⟩ := executeRun_groups (reclaimed_bindable fun g masked => (clear g masked).2) g
      exact ⟨handed masked, held masked⟩
    · refine ⟨_, exec_moveGroupExecute_command running first, ?_⟩
      rw [State.toPart_withPart, reclaimed_fails found phase clear fails]
      exact ⟨(endOwner_ending _ _ _ _).requests,
        endOwner_reclaimed found phase (FailsCheck.live fails) (FailsCheck.status fails) _⟩
  case proposal =>
    intro k round req mask st s running held
    refine ⟨fun leading => ⟨fun ready => ?_, fun status g fails => ?_⟩, fun ⟨g, masked, other⟩ waits => ?_⟩
    · refine ⟨_, exec_moveGroupExecute_proposal running, ?_⟩
      rw [State.toPart_withPart, executeIfReady_execute (ownerRun_of_board held) (ownGroups_proposal leading k) ready]
      exact ⟨executeRun_groups fun g _ => proposal_bindable g, proposal_board held, proposal_answered held⟩
    · exact ⟨_, exec_moveGroupExecute_proposal running,
        proposal_fails held (evalRun_fail (ownGroups_proposal leading k) fails)⟩
    · obtain ⟨j, unmatched⟩ := checkMatched_proposal masked other k
      exact ⟨_, exec_moveGroupExecute_proposal running, proposal_fails held (evalRun_unmatched unmatched waits)⟩
  case supersession =>
    intro s g requests r id h req mask bound frame found phase
    refine ⟨fun departs => ?_, fun held there none => ?_⟩
    · obtain ⟨answer, free⟩ := settleBinding_answered found phase departs
      exact ⟨answer, fun k => ⟨free k, (settleBinding_ending g requests s).course k⟩⟩
    · rw [none, settleBinding_nil, supersedeIfElsewhere_of_there held (ownerRun_of_find found phase false) there]

end Sys2Proof.Machine
end

section
/-! The evaluation at which a MOVE_GROUP, its reclaimed part or a proposal has waited long enough (R119, R120, R123, R151;
logs 1 and 23). -/

namespace Sys2Proof.Machine

/-- R151: a wait count that reaches the timeout while a condition or a check does not let the part execute. -/
structure WaitsOut (s : Part) (mask : Half) (req : MoveReq) (n : Nat) : Prop where
  passes : checkAB s mask req = none
  due : ∃ c, req.cond = some c ∧ c.timeout ≠ 0#16 ∧ c.timeout.toNat ≤ n + 1 ∧
    (condHolds s mask req.target c = false ∨ checkCDE s mask req ≠ none)

section
variable {s : Part} {o : Owner} {mask : Half} {req : MoveReq} {n : Nat}

theorem evalRun_timeout (own : OwnGroups s o mask) (h : WaitsOut s mask req n) :
    evalRun s o req ⟨mask, .waiting n⟩ = .timeout := by
  obtain ⟨c, cond, timed, reached, unmet⟩ := h.due
  have barred : (condHolds s mask req.target c && (checkCDE s mask req).isNone) = false := by
    rcases unmet with fails | fails
    · rw [fails, Bool.false_and]
    · rw [Option.isNone_eq_false_iff.mpr (Option.isSome_iff_ne_none.mpr fails), Bool.and_false]
  simp only [evalRun, own.matched, own.notLed, orCheck, h.passes, cond, barred, Bool.false_eq_true, if_false,
    if_pos (And.intro timed reached)]

theorem timeoutIfDue_of_none (none : ownerRun s o = .none) : timeoutIfDue o s = s := by
  rw [timeoutIfDue, none]

theorem timeoutIfDue_ends (run : ownerRun s o = some (req, ⟨mask, .waiting n⟩)) (own : OwnGroups s o mask)
    (h : WaitsOut s mask req n) : timeoutIfDue o s = endOwner o .timeout [] s := by
  simp only [timeoutIfDue, run, evalRun_timeout own h]

theorem timeoutIfDue_executed {bound : Half} {frame : Word}
    (run : ownerRun s o = some (req, ⟨mask, .executed bound frame⟩)) : timeoutIfDue o s = s := by
  simp only [timeoutIfDue, run, evalRun]
end

theorem exec_moveGroupTimeout {name : MoveName} {s : State} (running : s.inReset = false) :
    exec (.moveGroupTimeout name) s =
      .next (s.withPart ((namedOwners s.toPart name).foldl (fun t o => timeoutIfDue o t) s.toPart)) :=
  exec_of_running (f := fun u => (namedOwners u name).foldl (fun t o => timeoutIfDue o t) u) rfl running

theorem exec_moveGroupTimeout_command {r : Rig} {tag : Byte} {id : Nat} {s : State} (running : s.inReset = false)
    (first : (moveIds s.toPart r tag).head? = some id) : exec (.moveGroupTimeout (.command r tag)) s = .next (s.withPart
      (timeoutIfDue (.command r id true) (timeoutIfDue (.command r id false) s.toPart))) := by
  rw [exec_moveGroupTimeout running, namedOwners_command first]
  rfl

theorem exec_moveGroupTimeout_proposal {ref : Fin 8} {s : State} (running : s.inReset = false) :
    exec (.moveGroupTimeout (.proposal ref)) s = .next (s.withPart (timeoutIfDue (.proposal ref) s.toPart)) :=
  exec_moveGroupTimeout running

/-- R103: an owner that ends keeps no binding, and the groups play on with their requests. -/
theorem endOwner_releases {s : Part} {o : Owner} {st : Status} {results : List Byte}
    (free : ∀ g, ((endOwner o st results s).groups.get g).binding ≠ some o) (g : Fin 16) :
    ((endOwner o st results s).groups.get g).requests = (s.groups.get g).requests ∧
      ((endOwner o st results s).groups.get g).course = (s.groups.get g).course ∧
      ((endOwner o st results s).groups.get g).binding ≠ some o :=
  ⟨(endOwner_ending o st results s).requests g, (endOwner_ending o st results s).course g, free g⟩

/-- R120: no group is bound to a proposal that has ended. -/
theorem endOwner_proposal_free {s : Part} {ref : Fin 8} {round : Bool} {req : MoveReq} {part : MovePart}
    (held : s.gang.board.get ref = ⟨round, .held req part⟩) (st : Status) (results : List Byte) (g : Fin 16) :
    ((endOwner (.proposal ref) st results s).groups.get g).binding ≠ some (.proposal ref) := by
  rw [endOwner, held]
  exact unbind_free _ _ g

/-- R119: no group is bound to a reclaimed part that has ended while the command's own part still stands. -/
theorem endOwner_reclaimed_free {s : Part} {r : Rig} {id : Nat} {h : Held} {req : MoveReq} {own mask bound : Half}
    {frame : Word} {st : Stage} (found : (s.port.get r).find id = some h)
    (phase : h.phase = .move ⟨req, some ⟨own, .executed bound frame⟩, some ⟨mask, st⟩, none⟩) (live : st.isEnded = false)
    (status : Status) (results : List Byte) (g : Fin 16) :
    ((endOwner (.command r id true) status results s).groups.get g).binding ≠ some (.command r id true) := by
  have part : MoveCmd.part ⟨req, some ⟨own, .executed bound frame⟩, some ⟨mask, st⟩, none⟩ true = some ⟨mask, st⟩ := rfl
  simp only [endOwner, moveOf_of_find found phase, part, live, Bool.false_eq_true, if_false]
  split <;> exact unbind_free _ _ g

/-- Settles O50: the evaluation comes to a timeout, and the owner whose turn it is ends. -/
theorem moveGroupTimesOut : Obligations.MoveGroupTimesOut := by
  refine ⟨?proposal, ?command⟩
  case proposal =>
    intro k round n req mask c s running held leading cond timed reached passes unmet
    have ends := timeoutIfDue_ends (ownerRun_of_board held) (ownGroups_proposal leading k)
      ⟨passes, c, cond, timed, reached, unmet⟩
    refine ⟨_, exec_moveGroupTimeout_proposal running, ?_⟩
    rw [State.toPart_withPart, ends]
    obtain ⟨answered, queued⟩ := endOwner_board held .timeout []
    exact ⟨answered, queued, endOwner_releases (endOwner_proposal_free held _ _)⟩
  case command =>
    intro r tag id n h req mask c s running first found notLed cond timed reached passes unmet
    have due : WaitsOut s.toPart mask req n := ⟨passes, c, cond, timed, reached, unmet⟩
    refine ⟨fun phase => ?_, fun own bound frame phase => ?_⟩
    · have ends := timeoutIfDue_ends (run_own found phase) (ownGroups_command notLed r id false) due
      obtain ⟨answer, free⟩ := endOwner_answered found phase rfl .timeout []
      refine ⟨_, exec_moveGroupTimeout_command running first, ?_⟩
      rw [State.toPart_withPart, ends, timeoutIfDue_of_none (endOwner_run found phase rfl _ _ true)]
      exact ⟨answer, endOwner_releases free⟩
    · have ends := timeoutIfDue_ends (run_reclaimed found phase) (ownGroups_command notLed r id true) due
      refine ⟨_, exec_moveGroupTimeout_command running first, ?_⟩
      rw [State.toPart_withPart, timeoutIfDue_executed (ownerRun_of_find found phase false), ends]
      exact ⟨endOwner_reclaimed found phase rfl (by nofun) [],
        endOwner_releases (endOwner_reclaimed_free found phase rfl _ _)⟩

end Sys2Proof.Machine
end

section
/-! Repairs on the gang link (R117, R120 to R123; logs 1, 42 and 59): a PROPOSE that is lost, a follower's group that differs
from its leader's, and the button proposals that wait. -/

namespace Sys2Proof.Machine

/-! ## A lost PROPOSE (R117, R122) -/

theorem queuePropose_of_absent {q : List ProposeMsg} {p : ProposeMsg} (absent : ∀ x ∈ q, x.ref ≠ p.ref) :
    queuePropose q p = q ++ [p] := by
  rw [queuePropose, List.filter_eq_self.mpr fun x mem => bne_iff_ne.mpr (absent x mem)]

/-- R122: an awaiting PROPOSE that is not queued, whose answer is due and which the partner's board does not show. -/
theorem proposeLost_of_due {s : Part} {k : Fin 8} {sent : Word} {p : GangReport}
    (awaiting : (s.gang.records.get k).awaiting = true) (sentAt : (s.gang.records.get k).sentAt = some sent)
    (partner : s.gang.partner = some p) (absent : ∀ x ∈ s.gang.proposes, x.ref.val ≠ k.val)
    (due : 0 ≤ sdiff p.frame (sent + 2#32))
    (unseen : (p.board.get k).round ≠ (s.gang.records.get k).round ∨
      ((p.board.get k).state ≠ 1#2 ∧ (p.board.get k).state ≠ 2#2)) : proposeLost s k = true := by
  have queued : (s.gang.proposes.any fun x => x.ref == k.castLE (by omega)) = false :=
    List.any_eq_false.mpr fun x mem own => absent x mem (congrArg Fin.val (beq_iff_eq.mp own))
  have shown : ((p.board.get k).round == (s.gang.records.get k).round &&
      ((p.board.get k).state == 1#2 || (p.board.get k).state == 2#2)) = false := by
    rcases unseen with round | ⟨held, answered⟩
    · rw [beq_eq_false_iff_ne.mpr round, Bool.false_and]
    · rw [beq_eq_false_iff_ne.mpr held, beq_eq_false_iff_ne.mpr answered, Bool.or_self, Bool.and_false]
  simp only [proposeLost, sentAt, partner, awaiting, queued, shown, due, Bool.not_false, decide_true, Bool.and_self]

/-! ## A mismatch (R116, R121) -/

/-- R116: a MOVE whose group has none unsent goes to the back of the queue. -/
theorem queueMove_back {m : MoveMsg} {s : Part} (none : ∀ x ∈ s.gang.moves, x.group ≠ m.group) :
    (queueMove m s).gang.moves = s.gang.moves ++ [m] :=
  if_neg (mt List.any_eq_true.mp fun ⟨x, mem, own⟩ => none x mem (beq_iff_eq.mp own))

/-- R116, R117: a MOVE takes the place of an unsent one for its group. -/
theorem queueMove_place {m x : MoveMsg} {s : Part} (mem : x ∈ s.gang.moves) (own : x.group = m.group) :
    (queueMove m s).gang.moves = s.gang.moves.map fun y => if y.group = m.group then m else y := by
  have unsent : (s.gang.moves.any fun x => x.group == m.group) = true :=
    List.any_eq_true.mpr ⟨x, mem, beq_iff_eq.mpr own⟩
  refine (if_pos unsent).trans ?_
  simp only [beq_iff_eq]

/-- R116, R117: a MOVE that is queued is the only one for its group. -/
theorem queueMove_only (m : MoveMsg) (s : Part) {x : MoveMsg} (mem : x ∈ (queueMove m s).gang.moves)
    (own : x.group = m.group) : x = m := by
  by_cases unsent : ∃ y ∈ s.gang.moves, y.group = m.group
  · obtain ⟨y, old, same⟩ := unsent
    rw [queueMove_place old same] at mem
    obtain ⟨z, -, rfl⟩ := List.mem_map.mp mem
    split at own
    next hit => rw [if_pos hit]
    next miss => exact absurd own miss
  · have none (y : MoveMsg) (old : y ∈ s.gang.moves) : y.group ≠ m.group := fun same => unsent ⟨y, old, same⟩
    rw [queueMove_back none] at mem
    rcases List.mem_append.mp mem with old | new
    · exact absurd own (none x old)
    · exact List.mem_singleton.mp new

/-- R121: the comparison that brings the run of a steady group to 8. -/
theorem mismatchRun_full {s : Part} {g : Fin 16} {p : GangReport} {e : End} (leading : isLeading s g = true)
    (partner : s.gang.partner = some p) (up : p.state = 2#8) (steady : (s.groups.get g).course = .steady e)
    (differs : (p.codes.get g).toNat ≠ (Course.steady e).code) (run : s.gang.fresh = true ∨ 7 ≤ s.gang.mismatch.get g) :
    8 ≤ mismatchRun s g := by
  have mismatch : mismatched s g = true := by
    simp only [mismatched, partner, steady, leading, up, bne_iff_ne.mpr differs, beq_self_eq_true, Bool.and_self]
  rw [mismatchRun, if_pos mismatch]
  split
  · exact Nat.le_refl 8
  next counted =>
    have seven := run.resolve_left counted
    exact Nat.le_min.mpr ⟨Nat.succ_le_succ seven, Nat.le_refl 8⟩

theorem isLeading_iff (s : Part) (g : Fin 16) : isLeading s g = true ↔
    s.gang.role = .leader ∧ s.gang.state = .up ∧ inMask s.gang.matched g = true := by
  simp only [isLeading, matchedAs, Bool.and_eq_true, beq_iff_eq, and_assoc]

/-! ## The button proposals (R104, R120, R123; log 59) -/

/-- R104: which groups a press or a button proposal reaches; every group may go to DARK. -/
theorem pressQualifies_iff (s : Part) (n : End) (g : Fin 16) : pressQualifies s n g = true ↔
    (groupEntry s g).isProtected = false ∧ (groupEntry s g).mode ≠ .fixed ∧ (s.groups.get g).startPending = false ∧
      (s.groups.get g).course.dest ≠ n ∧ usable s g n = true := by
  simp only [pressQualifies, Bool.and_eq_true, Bool.not_eq_true', bne_iff_ne, ne_eq, and_assoc]
  exact and_congr_right fun _ => and_congr_right fun _ => and_congr_right fun _ => and_comm

theorem applyPresses_one {s : Part} {n : End} {mask : Half} {matchedOnly : Bool}
    (one : s.gang.presses = [⟨n, mask, matchedOnly⟩]) : applyPresses s =
      handPress n (fun g => inMask mask g && (!matchedOnly || isLeading s g)) { s with gang := { s.gang with presses := [] } } := by
  rw [applyPresses, one]
  rfl

theorem applyPresses_requests {s : Part} {n : End} {mask : Half} {matchedOnly : Bool}
    (one : s.gang.presses = [⟨n, mask, matchedOnly⟩]) (g : Fin 16) : ((applyPresses s).groups.get g).requests =
      (s.groups.get g).requests ++ if (inMask mask g && (!matchedOnly || isLeading s g)) && !isLed s g &&
        pressQualifies s n g then [⟨n, .button, none⟩] else [] := by
  rw [applyPresses_one one]
  exact handPress_requests n _ { s with gang := { s.gang with presses := [] } } g

/-- R123: a button proposal of the leader's partner asks the matched groups alone. -/
theorem asked_iff (mask : Half) (g : Fin 16) (matchedOnly leading : Bool) :
    (inMask mask g && (!matchedOnly || leading)) = true ↔ inMask mask g = true ∧ (matchedOnly = true → leading = true) := by
  cases matchedOnly <;> simp

/-- Settles O56. -/
theorem gangRepairs : Obligations.GangRepairs := by
  refine ⟨?resend, ?repair, ?presses⟩
  case resend =>
    intro k s sent p msg running follower up awaiting sentAt message partner absent own due unseen
    have lost := proposeLost_of_due awaiting sentAt partner absent due unseen
    rw [exec_of_running (f := resendOne k) rfl running, resendOne, if_pos ⟨follower, up, lost⟩, message]
    dsimp only
    rw [queuePropose_of_absent fun x mem same => absent x mem ((congrArg Fin.val same).trans own)]
    rfl
  case repair =>
    intro g s p e running leading partner partnerUp steady differs run
    obtain ⟨leader, up, -⟩ := (isLeading_iff s.toPart g).mp leading
    have full := mismatchRun_full leading partner partnerUp steady differs run
    have repaired : exec (.mismatchRepair g) s = .next (s.withPart (queueMove (steadyMove s.toPart g e) s.toPart)) := by
      rw [exec_of_running (f := fun u => if u.gang.role = .leader ∧ u.gang.state = .up ∧ 8 ≤ mismatchRun u g then
        repairGroup g u else u) rfl running, if_pos ⟨leader, up, full⟩, repairGroup, steady]
    exact ⟨_, steadyMove s.toPart g e, repaired, mem_queueMove _ _, Tbl.get_set_self _ _ _,
      fun x mem own => queueMove_only _ _ mem own, rfl, rfl, rfl, rfl, rfl, rfl, rfl, rfl, rfl⟩
  case presses =>
    intro s n mask matchedOnly running one
    refine ⟨_, exec_of_running (f := applyPresses) rfl running, ?_, fun g => ?_⟩
    · rw [State.toPart_withPart, applyPresses_one one]
      exact congrArg Gang.presses ((handPress_same n _ _).get .gang rfl)
    · rw [State.toPart_withPart, applyPresses_requests one]
      refine congrArg _ (if_congr ?_ rfl rfl)
      rw [Bool.and_eq_true, Bool.and_eq_true, asked_iff, Bool.not_eq_true', pressQualifies_iff, and_assoc, and_assoc]
      cases n <;> rfl

end Sys2Proof.Machine
end

section
/-! The follower's proposal records (R110, R119, R123): a ref that an answer or a lost link frees, and the commands that its
other refs serve. -/

namespace Sys2Proof.Machine

/-- R119, R123: the record of a ref that is free. -/
def PropRecord.freed (p : PropRecord) : PropRecord :=
  { p with awaiting := false, serves := none, sentAt := none, message := none }

/-- The part in which a ref has been freed. -/
def freedPart (ref : Fin 8) (s : Part) : Part :=
  { s with gang := { s.gang with records := s.gang.records.set ref (s.gang.records.get ref).freed } }

theorem freedPart_record (ref k : Fin 8) (s : Part) : (freedPart ref s).gang.records.get k =
    if k = ref then (s.gang.records.get ref).freed else s.gang.records.get k := Tbl.get_set _ _ _ _

theorem setStage_spares {o p : Owner} (apart : p.apart o) (st : Stage) (s : Part) : Spares o s (setStage p st s) := by
  cases p with
  | command r id ganged =>
    unfold setStage
    dsimp only
    split
    · split
      · exact setPhase_spares (ganged := ganged) apart _ s
      · exact .refl o s
    · exact .refl o s
  | proposal ref =>
    unfold setStage
    dsimp only
    split
    · exact board_spares apart _ s.gang.answers s
    all_goals exact .refl o s

/-- The stage of a command's part is nothing to the Gang Port. -/
theorem setStage_command_gang (r : Rig) (id : Nat) (ganged : Bool) (st : Stage) (s : Part) :
    (setStage (.command r id ganged) st s).gang = s.gang := by
  unfold setStage
  dsimp only
  repeat' split
  all_goals rfl

/-- The end of a command's part is nothing to the Gang Port. -/
theorem endOwner_command_gang (r : Rig) (id : Nat) (ganged : Bool) (st : Status) (results : List Byte) (s : Part) :
    (endOwner (.command r id ganged) st results s).gang = s.gang := by
  unfold endOwner
  dsimp only
  repeat' split
  all_goals rfl

/-! ## What a freed ref leaves -/

/-- From `s` to `t` a ref may have been freed, and the command that it served may have come further. -/
structure Frees (x : Fin 8) (s t : Part) : Prop where
  gang : t.gang = s.gang ∨ t.gang = (freedPart x s).gang
  command : ∀ r id, (s.gang.records.get x).serves ≠ some (r, id) → (t.port.get r).find id = (s.port.get r).find id

section
variable {x : Fin 8} {s t : Part}

theorem Frees.refl (x : Fin 8) (s : Part) : Frees x s s := ⟨.inl rfl, fun _ _ _ => rfl⟩

theorem freedPart_frees (x : Fin 8) (s : Part) : Frees x s (freedPart x s) := ⟨.inr rfl, fun _ _ _ => rfl⟩

/-- The command of the freed ref comes further. -/
theorem Frees.of_spares {r : Rig} {id : Nat} (serves : (s.gang.records.get x).serves = some (r, id))
    (gang : t.gang = (freedPart x s).gang) (spares : ∀ o, (Owner.command r id true).apart o → Spares o (freedPart x s) t) :
    Frees x s t := by
  refine ⟨.inr gang, fun q k other => (spares (.command q k false) fun same => other ?_).find⟩
  rw [serves, same.1, same.2]

theorem Frees.record (h : Frees x s t) {k : Fin 8} (other : k ≠ x) : t.gang.records.get k = s.gang.records.get k := by
  rcases h.gang with e | e <;> rw [e]
  rw [freedPart_record, if_neg other]

/-- Freeing a ref makes it serve no command that it did not serve. -/
theorem Frees.serves (h : Frees x s t) {k : Fin 8} {c : Rig × Nat} (none : (s.gang.records.get k).serves ≠ some c) :
    (t.gang.records.get k).serves ≠ some c := by
  rcases h.gang with e | e <;> rw [e]
  · exact none
  · rw [freedPart_record]
    split
    · nofun
    · exact none

theorem Frees.link (h : Frees x s t) : t.gang = { s.gang with records := t.gang.records } := by
  rcases h.gang with e | e <;> rw [e]
  rfl
end

/-- No ref but this one serves a command. -/
def ServedBy (k : Fin 8) (r : Rig) (id : Nat) (s : Part) : Prop :=
  ∀ j, j ≠ k → (s.gang.records.get j).serves ≠ some (r, id)

/-- From `s` to `t` a ref's record stands, and so does a command that no other ref serves. -/
structure RefStands (k : Fin 8) (s t : Part) : Prop where
  record : t.gang.records.get k = s.gang.records.get k
  command : ∀ r id, ServedBy k r id s → ServedBy k r id t ∧ (t.port.get r).find id = (s.port.get r).find id

theorem RefStands.refl (k : Fin 8) (s : Part) : RefStands k s s := ⟨rfl, fun _ _ alone => ⟨alone, rfl⟩⟩

theorem RefStands.trans {k : Fin 8} {s t u : Part} (h : RefStands k s t) (i : RefStands k t u) : RefStands k s u := by
  refine ⟨i.record.trans h.record, fun r id alone => ?_⟩
  obtain ⟨first, same⟩ := h.command r id alone
  obtain ⟨second, same'⟩ := i.command r id first
  exact ⟨second, same'.trans same⟩

theorem Frees.stands {x k : Fin 8} {s t : Part} (h : Frees x s t) (other : x ≠ k) : RefStands k s t :=
  ⟨h.record (Ne.symm other), fun r id alone => ⟨fun j apart => h.serves (alone j apart), h.command r id (alone x other)⟩⟩

/-! ## An answer (R119) -/

/-- R119: an answer for another round, or for a ref that awaits none, is ignored. -/
theorem takeAnswer_ignored {ref : Fin 8} {round : Bool} {s : Part} (h : (s.gang.records.get ref).awaiting = false ∨
    (s.gang.records.get ref).round ≠ round) (st : Status) : takeAnswer ref round st s = s := by
  refine if_neg (Bool.not_eq_true _ ▸ Bool.and_eq_false_iff.mpr (h.imp_right fun other => ?_))
  exact beq_eq_false_iff_ne.mpr other

/-- R119: the answer that a ref awaits frees it and ends the proposed part of the command that it serves. -/
theorem takeAnswer_taken {ref : Fin 8} {s : Part} (awaiting : (s.gang.records.get ref).awaiting = true) (st : Status) :
    takeAnswer ref (s.gang.records.get ref).round st s = match (s.gang.records.get ref).serves with
      | some (r, id) => endOwner (.command r id true) st (answerResults st) (freedPart ref s)
      | none => freedPart ref s := by
  refine (if_pos ?_).trans ?_
  · rw [awaiting, beq_self_eq_true, Bool.and_self]
  · cases (s.gang.records.get ref).serves <;> rfl

/-- What an answer can do. -/
theorem takeAnswer_cases (ref : Fin 8) (round : Bool) (st : Status) (s : Part) :
    takeAnswer ref round st s = s ∨ takeAnswer ref round st s = freedPart ref s ∨
      ∃ r id, (s.gang.records.get ref).serves = some (r, id) ∧
        takeAnswer ref round st s = endOwner (.command r id true) st (answerResults st) (freedPart ref s) := by
  by_cases awaited : (s.gang.records.get ref).awaiting = true ∧ (s.gang.records.get ref).round = round
  · obtain ⟨awaiting, rfl⟩ := awaited
    rw [takeAnswer_taken awaiting]
    cases serves : (s.gang.records.get ref).serves with
    | none => exact .inr (.inl rfl)
    | some c => exact .inr (.inr ⟨c.1, c.2, rfl, rfl⟩)
  · exact .inl (takeAnswer_ignored (not_and_or.mp awaited |>.imp_left Bool.eq_false_of_not_eq_true) st)

theorem takeAnswer_frees (ref : Fin 8) (round : Bool) (st : Status) (s : Part) : Frees ref s (takeAnswer ref round st s) := by
  rcases takeAnswer_cases ref round st s with e | e | ⟨r, id, serves, e⟩ <;> rw [e]
  · exact .refl ref s
  · exact freedPart_frees ref s
  · exact .of_spares serves (endOwner_command_gang _ _ _ _ _ _) fun o apart => endOwner_spares apart _ _ _

theorem takeAnswer_responses (ref : Fin 8) (round : Bool) (st : Status) (s : Part) (r : Rig) :
    (s.port.get r).responses <+: ((takeAnswer ref round st s).port.get r).responses := by
  rcases takeAnswer_cases ref round st s with e | e | ⟨q, id, -, e⟩
  · rw [e]
  · rw [e]
    exact List.prefix_rfl
  · rw [e]
    exact (endOwner_ending (.command q id true) st (answerResults st) (freedPart ref s)).responses r

/-! ## A lost link (R123) -/

theorem reclaim_frees (ref : Fin 8) (s : Part) : Frees ref s (reclaim ref s) := by
  unfold reclaim
  dsimp only
  split
  next r id _ serves =>
    split
    · exact .of_spares serves (setStage_command_gang _ _ _ _ _) fun o apart => setStage_spares apart _ _
    · exact freedPart_frees ref s
  all_goals exact freedPart_frees ref s

theorem reclaim_gang (ref : Fin 8) (s : Part) : (reclaim ref s).gang = (freedPart ref s).gang := by
  unfold reclaim
  dsimp only
  split
  · split
    · exact setStage_command_gang _ _ _ _ _
    · rfl
  all_goals rfl

/-- R123: the proposed part of the command that an awaiting ref serves becomes a local part. -/
theorem reclaim_find {k : Fin 8} {s : Part} {r : Rig} {id : Nat} {h : Held} {m : MoveCmd} {p : MovePart}
    (awaiting : (s.gang.records.get k).awaiting = true) (serves : (s.gang.records.get k).serves = some (r, id))
    (found : (s.port.get r).find id = some h) (phase : h.phase = .move m) (part : m.gang = some p) :
    ((reclaim k s).port.get r).find id =
      some { h with phase := .move { m with gang := some { p with stage := startStage m.req } } } := by
  have own : m.part true = some p := part
  have run : ownerRun (freedPart k s) (.command r id true) = some (m.req, p) := by
    rw [ownerRun_of_find (s := freedPart k s) found phase, own]
    rfl
  have reclaimed : reclaim k s = setStage (.command r id true) (startStage m.req) (freedPart k s) := by
    unfold reclaim
    dsimp only
    split
    next q i _ serves' =>
      cases serves.symm.trans serves'
      split
      next req' _ run' =>
        cases run.symm.trans run'
        rfl
      next none => exact absurd (run.symm.trans none) nofun
    next none => exact absurd (serves.symm.trans none) nofun
    next idle => exact absurd (awaiting.symm.trans idle) nofun
  rw [reclaimed]
  simp only [setStage, moveOf_of_find (s := freedPart k s) found phase, own]
  exact setPhase_find found _

end Sys2Proof.Machine
end

section
/-! The gang link as it comes up and is lost, the combined usability of a leader, and the MOVE of a transition (R107, R113 to
R116, R123; logs 1, 12 and 43). -/

namespace Sys2Proof.Machine

/-! ## The board and the link (R113, R123) -/

/-- R123: a leader's held proposals are dropped from the board; of the Gang Port nothing else changes. -/
theorem clearBoard_gang (s : Part) : (clearBoard s).gang =
    { s.gang with board := s.gang.board.map fun e => { e with state := .idle } } := by
  have dropped : (allRefs.foldl (fun t ref => dropProposal ref t) s).gang = s.gang :=
    (Same.foldl (fun t ref => dropProposal_same ref t) allRefs s).get .gang rfl
  unfold clearBoard
  dsimp only
  rw [dropped]

/-- R113: the notice of a change of the link. -/
theorem linkUp_raised (s : Part) : raised (linkUp s) (.gang s.gang.role s.gang.state .up) := raised_raise _ _

theorem startStage_eq (req : MoveReq) : startStage req = if req.cond = none then .held else .waiting 0 := by
  cases cond : req.cond <;> simp [startStage, cond]

/-- From `s` to `u` the board is idle, every ref is free, and the proposed parts have become local parts. -/
structure Reclaims (s u : Part) : Prop where
  clock : u.clock = s.clock
  gang : u.gang = { s.gang with
    board := s.gang.board.map fun e => { e with state := .idle }, records := u.gang.records }
  free : ∀ k, (u.gang.records.get k).awaiting = false
  find : ∀ k r id h m p, (s.gang.records.get k).awaiting = true → (s.gang.records.get k).serves = some (r, id) →
    ServedBy k r id s → (s.port.get r).find id = some h → h.phase = .move m → m.gang = some p →
    (u.port.get r).find id = some { h with phase := .move { m with gang := some { p with stage := startStage m.req } } }

theorem reclaims_gang (l : List (Fin 8)) (u : Part) : (l.foldl (fun t ref => reclaim ref t) u).gang =
    { u.gang with records := (l.foldl (fun t ref => reclaim ref t) u).gang.records } := by
  induction l generalizing u with
  | nil => rfl
  | cons x l ih => rw [List.foldl_cons, ih (reclaim x u), (reclaim_frees x u).link]

theorem reclaims_free {l : List (Fin 8)} {k : Fin 8} (mem : k ∈ l) (u : Part) :
    ((l.foldl (fun t ref => reclaim ref t) u).gang.records.get k).awaiting = false := by
  refine foldl_reaches (f := fun t ref => reclaim ref t) (P := fun _ => True) (a := k)
    (Q := fun u => (u.gang.records.get k).awaiting = false) (fun _ _ _ _ => trivial) (fun u _ => ?_) (fun u x free => ?_)
    mem trivial
  · rw [reclaim_gang, freedPart_record, if_pos rfl]
    rfl
  · rw [reclaim_gang, freedPart_record]
    split
    · rfl
    · exact free

theorem reclaims_find {l : List (Fin 8)} {k : Fin 8} (mem : k ∈ l) {s : Part} {r : Rig} {id : Nat} {h : Held} {m : MoveCmd}
    {p : MovePart} (awaiting : (s.gang.records.get k).awaiting = true)
    (serves : (s.gang.records.get k).serves = some (r, id)) (alone : ServedBy k r id s)
    (found : (s.port.get r).find id = some h) (phase : h.phase = .move m) (part : m.gang = some p) :
    ((l.foldl (fun t ref => reclaim ref t) s).port.get r).find id =
      some { h with phase := .move { m with gang := some { p with stage := startStage m.req } } } := by
  refine (foldl_reaches (f := fun t ref => reclaim ref t) (P := RefStands k s) (a := k)
    (Q := fun u => (u.port.get r).find id =
        some { h with phase := .move { m with gang := some { p with stage := startStage m.req } } } ∧
      ∀ j, (u.gang.records.get j).serves ≠ some (r, id))
    (fun u x other stands => stands.trans ((reclaim_frees x u).stands other)) (fun u stands => ?_) (fun u x h => ?_)
    mem (.refl k s)).1
  · obtain ⟨record, command⟩ := stands
    obtain ⟨apart, same⟩ := command r id alone
    refine ⟨reclaim_find (record ▸ awaiting) (record ▸ serves) (same.trans found) phase part, fun j => ?_⟩
    rw [reclaim_gang, freedPart_record]
    split
    · nofun
    next other => exact apart j other
  · obtain ⟨found', unserved⟩ := h
    exact ⟨((reclaim_frees x u).command r id (unserved x)).trans found', fun j => (reclaim_frees x u).serves (unserved j)⟩

theorem mem_allRefs (k : Fin 8) : k ∈ allRefs := List.mem_finRange k

theorem reclaims_all (s : Part) : Reclaims s (allRefs.foldl (fun t ref => reclaim ref t) (clearBoard s)) := by
  have records : (clearBoard s).gang.records = s.gang.records := by rw [clearBoard_gang]
  have port : (clearBoard s).port = s.port := (clearBoard_same s).get .port rfl
  have reclaimed : Same [.gang, .port, .groups] s (allRefs.foldl (fun t ref => reclaim ref t) (clearBoard s)) :=
    ((clearBoard_same s).mono rfl).trans (Same.foldl (fun _ _ => (reclaim_same _ _).mono rfl) _ _)
  refine ⟨reclaimed.get .clock rfl, (reclaims_gang allRefs _).trans (by rw [clearBoard_gang]), fun k => reclaims_free (mem_allRefs k) _,
    fun k r id h m p awaiting serves alone found phase part => ?_⟩
  refine reclaims_find (mem_allRefs k) (by rw [records]; exact awaiting) (by rw [records]; exact serves)
    (fun j other => ?_) (by rw [port]; exact found) phase part
  rw [records]
  exact alone j other

/-- The part whose queues a lost link has emptied (log 12). -/
def cutPart (u : Part) : Part :=
  { u with gang := { u.gang with
    moves := [], answers := [], proposes := [], pending := Tbl.fill none, matched := 0#16, adopt := false, fresh := false,
    mismatch := Tbl.fill 0, presses := u.gang.presses ++ queuedPresses u.gang.proposes } }

/-- The part whose silence count has come to 8 (R113). -/
def silentPart (s : Part) : Part := { s with gang := { s.gang with silence := 8 } }

/-- R123: the link is lost in turn on the board and the records, on the queues, and on the clock. -/
theorem linkLost_acts (s : Part) : ∃ u, Reclaims s u ∧ linkLost s = sourceLost .gang (setGangState .lost (cutPart u)) :=
  ⟨_, reclaims_all s, rfl⟩

section
variable (u : Part)

theorem cutOff_gang : (sourceLost .gang (setGangState .lost (cutPart u))).gang =
    (setGangState .lost (cutPart u)).gang :=
  (sourceLost_same .gang (setGangState .lost (cutPart u))).get .gang rfl

/-- The ports hold the commands that the link's loss has reclaimed. -/
theorem cutOff_find (r : Rig) (id : Nat) :
    ((sourceLost .gang (setGangState .lost (cutPart u))).port.get r).find id = (u.port.get r).find id := by
  have lost : AnswersStand (setGangState .lost (cutPart u)) (sourceLost .gang (setGangState .lost (cutPart u))) := by
    unfold sourceLost selectSource
    exact .when (raise_answersStand _ _)
  exact ((raise_answersStand _ _).trans lost).find r id

/-- R27, R113: the notice of the loss, where the clock's source stands. -/
theorem cutOff_raised (other : u.clock.selected ≠ .gang) :
    raised (sourceLost .gang (setGangState .lost (cutPart u))) (.gang u.gang.role u.gang.state .lost) := by
  obtain ⟨port, program⟩ := sourceLost_quiet .gang (setGangState .lost (cutPart u)) other
  have frame : (sourceLost .gang (setGangState .lost (cutPart u))).clock.frame = (setGangState .lost (cutPart u)).clock.frame := by
    rw [sourceLost_clock _ _ (by decide)]
  simp only [raised, port, program, frame]
  exact raised_raise _ _
end

/-- R24, R26: a source that counts no boundary is not selected. -/
theorem bestSource_ne_gang (reference : Rig) (q : Qual) : bestSource reference (q.set .gang 0) ≠ .gang := by
  have zero : ¬200 ≤ (q.set .gang 0).gang := by simp [Qual.set]
  rw [bestSource_eq, if_neg zero]
  split
  · nofun
  · cases reference <;> (repeat' split) <;> nofun

theorem linkLost_selected (s : Part) : (linkLost s).clock.selected ≠ .gang := by
  obtain ⟨u, -, lost⟩ := linkLost_acts s
  rw [lost, sourceLost_clock _ _ (by decide)]
  dsimp only
  split
  · exact bestSource_ne_gang _ _
  · assumption

/-! ## What the pair sees of a leader's group (R115, R116) -/

theorem isLeading_eq_false {s : Part} {g : Fin 16}
    (h : s.gang.role ≠ .leader ∨ s.gang.state ≠ .up ∨ inMask s.gang.matched g = false) : isLeading s g = false := by
  refine Bool.eq_false_of_not_eq_true fun leading => ?_
  obtain ⟨leader, up, matched⟩ := (isLeading_iff s g).mp leading
  rcases h with other | down | unmatched
  · exact other leader
  · exact down up
  · exact Bool.false_ne_true (unmatched.symm.trans matched)

/-- R69: a group that is not led in a pair looks at its own unit's set alone. -/
theorem rigUsable_alone {s : Part} {g : Fin 16} (alone : isLeading s g = false) (x : Rig) :
    rigUsable s g x = true ↔ (s.health.get x).inForce &&& (groupEntry s g).mask = 0#8 := by
  simp only [rigUsable, alone, Bool.not_false, Bool.true_or, Bool.and_true, localUsable, beq_iff_eq]

/-- R115: a leader's matched group looks at the partner's set as well. -/
theorem rigUsable_combined {s : Part} {g : Fin 16} {p : GangReport} (leading : isLeading s g = true)
    (partner : s.gang.partner = some p) (x : Rig) : rigUsable s g x = true ↔
      (s.health.get x).inForce &&& (groupEntry s g).mask = 0#8 ∧ p.unus.get x &&& (groupEntry s g).mask = 0#8 := by
  simp only [rigUsable, leading, Bool.not_true, Bool.false_or, Bool.and_eq_true, localUsable, partnerUsable, partner,
    beq_iff_eq]

/-- Settles O54. -/
theorem gangLink : Obligations.GangLink := by
  refine ⟨fun s running => ⟨?up, ?lost, ?adopted⟩, ?usable, ?moves⟩
  case up =>
    intro seeking run
    have up : exec .gangLinkUp s = .next (s.withPart (linkUp s.toPart)) := by
      rw [exec_of_running (f := fun s => if (s.gang.state = .seeking ∨ s.gang.state = .lost) ∧ s.gang.goodRun = 3 then
        linkUp s else s) rfl running, if_pos ⟨seeking, run⟩]
    exact ⟨_, up, rfl, rfl, rfl, linkUp_raised s.toPart⟩
  case lost =>
    intro up silent late
    have lost : exec .gangLinkLost s = .next (s.withPart (linkLost (silentPart s.toPart))) := by
      rw [exec_of_running (f := fun s => if s.gang.state = .up ∧ s.gang.arrived = false ∧ 7 ≤ s.gang.silence then
        linkLost (silentPart s) else s) rfl running, if_pos ⟨up, silent, late⟩]
    have selected := linkLost_selected (silentPart s.toPart)
    have qual := linkLost_qual (silentPart s.toPart)
    obtain ⟨u, reclaims, acts⟩ := linkLost_acts (silentPart s.toPart)
    have gang := cutOff_gang u
    refine ⟨_, lost, ?_⟩
    rw [State.toPart_withPart]
    rw [acts] at selected qual ⊢
    rw [gang, qual]
    refine ⟨rfl, rfl, rfl, rfl, rfl, rfl, rfl, selected, fun g => Tbl.get_fill _ _, fun k => ?_, fun other => ?_, ?_⟩
    · have entry : u.gang.board.get k = { s.gang.board.get k with state := .idle } := by
        rw [reclaims.gang]
        exact Tbl.get_map _ _ _
      have idle : (u.gang.board.get k).state = .idle := by rw [entry]
      have round : (u.gang.board.get k).round = (s.gang.board.get k).round := by rw [entry]
      exact ⟨idle, round, reclaims.free k⟩
    · have role : u.gang.role = s.gang.role := by rw [reclaims.gang]; rfl
      have state : u.gang.state = .up := by rw [reclaims.gang]; exact up
      have clock : u.clock = s.clock := reclaims.clock
      have raised := cutOff_raised u (clock ▸ other)
      rwa [role, state] at raised
    · intro k r id h req mask own first awaiting serves alone found phase
      rw [cutOff_find, reclaims.find k r id h _ _ awaiting serves alone found phase rfl, startStage_eq]
  case adopted =>
    intro p follower adopt partner
    rw [exec_of_running (f := fun s => if s.gang.role = .follower ∧ s.gang.adopt = true then adoptCount s else s) rfl
      running, if_pos ⟨follower, adopt⟩, adoptCount, partner]
    rfl
  case usable =>
    intro s g x p partner
    exact ⟨fun leader up matched => rigUsable_combined ((isLeading_iff s g).mpr ⟨leader, up, matched⟩) partner x,
      fun other => rigUsable_alone (isLeading_eq_false other) x⟩
  case moves =>
    rintro s g f m rfl
    refine ⟨announce_raised g f s, fun leader up matched => ?_, fun other => ?_⟩
    · rw [announce_leading ((isLeading_iff s g).mpr ⟨leader, up, matched⟩)]
      exact ⟨fun none => queueMove_back none, fun x mem own => queueMove_place mem own⟩
    · rw [announce_other (isLeading_eq_false other)]
      rfl

end Sys2Proof.Machine
end

section
/-! A received gang frame (R109, R112, R113, R118 to R120, R123): the report that it brings, the answers that a follower takes,
and the PROPOSEs that a leader takes. -/

namespace Sys2Proof.Machine

/-! ## The report (R112, R123) -/

/-- What the Gang Port knows of its link and has heard on it. -/
def Gang.heard (k : Gang) : (Role × GangState × Half × Option GangReport) × Nat × Bool := (k.pair, k.silence, k.arrived)

/-- The part that has taken a report (R112). -/
def reportedPart (rep : GangReport) (s : Part) : Part :=
  { s with gang := { s.gang with partner := some rep, silence := 0, arrived := true } }

theorem clearBoard_heard (s : Part) : (clearBoard s).gang.heard = s.gang.heard := by
  rw [clearBoard_gang]
  rfl

theorem takeReport_eq (rep : GangReport) (s : Part) : takeReport rep s =
    if s.gang.role = .leader ∧ rep.state ≠ 2#8 then clearBoard (reportedPart rep s) else reportedPart rep s := rfl

theorem takeReport_heard (rep : GangReport) (s : Part) : (takeReport rep s).gang.heard = (reportedPart rep s).gang.heard := by
  rw [takeReport_eq]
  split
  · exact clearBoard_heard _
  · rfl

/-- R123: only a leader whose partner is not UP clears its board. -/
theorem takeReport_plain {rep : GangReport} {s : Part} (h : s.gang.role ≠ .leader ∨ rep.state = 2#8) :
    takeReport rep s = reportedPart rep s :=
  if_neg fun ⟨leader, down⟩ => h.elim (fun other => other leader) down

theorem takeReport_clears {rep : GangReport} {s : Part} (leader : s.gang.role = .leader) (down : rep.state ≠ 2#8) :
    takeReport rep s = clearBoard (reportedPart rep s) := if_pos ⟨leader, down⟩

theorem clearBoard_entry (s : Part) (k : Fin 8) :
    (clearBoard s).gang.board.get k = ⟨(s.gang.board.get k).round, .idle⟩ := by
  rw [clearBoard_gang]
  exact Tbl.get_map _ _ _

/-! ## The answers of a board (R119; log 44) -/

/-- R119: the answer that the partner's board shows for one ref. -/
def boardAnswer (rep : GangReport) (ref : Fin 8) (s : Part) : Part :=
  match readStatusCode (rep.board.get ref).status with
  | some st => if (rep.board.get ref).state = 2#2 then takeAnswer ref (rep.board.get ref).round st s else s
  | none => s

theorem boardAnswers_eq (rep : GangReport) (s : Part) :
    boardAnswers rep s = allRefs.foldl (fun t ref => boardAnswer rep ref t) s := rfl

/-- Log 44: a status above 13 is no answer. -/
theorem readStatusCode_none {b : Byte} (h : 13 < b.toNat) : readStatusCode b = none := List.getElem?_eq_none h

section
variable {rep : GangReport} {ref : Fin 8}

theorem boardAnswer_shown {st : Status} (answered : (rep.board.get ref).state = 2#2)
    (status : readStatusCode (rep.board.get ref).status = some st) (s : Part) :
    boardAnswer rep ref s = takeAnswer ref (rep.board.get ref).round st s := by
  simp only [boardAnswer, status, if_pos answered]

theorem boardAnswer_unshown (h : (rep.board.get ref).state ≠ 2#2 ∨ 13 < (rep.board.get ref).status.toNat) (s : Part) :
    boardAnswer rep ref s = s := by
  unfold boardAnswer
  split
  next status =>
    rcases h with held | above
    · exact if_neg held
    · exact absurd ((readStatusCode_none above).symm.trans status) nofun
  next => rfl

/-- What a board entry can do. -/
theorem boardAnswer_cases (rep : GangReport) (ref : Fin 8) (s : Part) :
    boardAnswer rep ref s = s ∨ ∃ st, boardAnswer rep ref s = takeAnswer ref (rep.board.get ref).round st s := by
  unfold boardAnswer
  split
  · split
    · exact .inr ⟨_, rfl⟩
    · exact .inl rfl
  · exact .inl rfl

theorem boardAnswer_frees (rep : GangReport) (ref : Fin 8) (s : Part) : Frees ref s (boardAnswer rep ref s) := by
  rcases boardAnswer_cases rep ref s with e | ⟨st, e⟩ <;> rw [e]
  · exact .refl ref s
  · exact takeAnswer_frees _ _ _ _

/-- The board shows no answer that the ref awaits. -/
theorem boardAnswer_ignored {s : Part} (h : (s.gang.records.get ref).awaiting = false ∨ (rep.board.get ref).state ≠ 2#2 ∨
    (rep.board.get ref).round ≠ (s.gang.records.get ref).round ∨ 13 < (rep.board.get ref).status.toNat) :
    boardAnswer rep ref s = s := by
  rcases h with free | held | other | above
  · rcases boardAnswer_cases rep ref s with e | ⟨st, e⟩
    · exact e
    · rw [e, takeAnswer_ignored (.inl free)]
  · exact boardAnswer_unshown (.inl held) s
  · rcases boardAnswer_cases rep ref s with e | ⟨st, e⟩
    · exact e
    · rw [e, takeAnswer_ignored (.inr (Ne.symm other))]
  · exact boardAnswer_unshown (.inr above) s
end

/-- The answers of a board change the records of the Gang Port alone. -/
theorem boardAnswers_gang (rep : GangReport) (l : List (Fin 8)) (s : Part) :
    (l.foldl (fun t ref => boardAnswer rep ref t) s).gang =
      { s.gang with records := (l.foldl (fun t ref => boardAnswer rep ref t) s).gang.records } := by
  induction l generalizing s with
  | nil => rfl
  | cons x l ih => rw [List.foldl_cons, ih (boardAnswer rep x s), (boardAnswer_frees rep x s).link]

theorem boardAnswers_heard (rep : GangReport) (s : Part) : (boardAnswers rep s).gang.heard = s.gang.heard := by
  rw [boardAnswers_eq, boardAnswers_gang]
  rfl

/-- R119: a ref whose answer the board does not show stands. -/
theorem boardAnswers_stands {rep : GangReport} {k : Fin 8} {s : Part}
    (h : (s.gang.records.get k).awaiting = false ∨ (rep.board.get k).state ≠ 2#2 ∨
      (rep.board.get k).round ≠ (s.gang.records.get k).round ∨ 13 < (rep.board.get k).status.toNat) :
    RefStands k s (boardAnswers rep s) := by
  have stands (l : List (Fin 8)) {u : Part} (before : RefStands k s u) :
      RefStands k s (l.foldl (fun t ref => boardAnswer rep ref t) u) := by
    induction l generalizing u with
    | nil => exact before
    | cons x l ih =>
      refine ih ?_
      by_cases own : x = k
      · subst own
        have ignored : boardAnswer rep x u = u := boardAnswer_ignored (by rw [before.record]; exact h)
        exact (congrArg (RefStands x s) ignored).mpr before
      · exact before.trans ((boardAnswer_frees rep x u).stands own)
  exact stands allRefs (.refl k s)

/-! ## The answered command (R119, R131, R152) -/

/-- R119: a ref is free, in its round, and the response of the command that it served stands in its queue. -/
structure RefAnswered (k : Fin 8) (round : Bool) (r : Rig) (a : Response) (s : Part) : Prop where
  free : (s.gang.records.get k).awaiting = false
  round : (s.gang.records.get k).round = round
  response : a ∈ (s.port.get r).responses

theorem RefAnswered.answer {k : Fin 8} {round : Bool} {r : Rig} {a : Response} {s : Part} (h : RefAnswered k round r a s)
    (x : Fin 8) (other : Bool) (st : Status) : RefAnswered k round r a (takeAnswer x other st s) := by
  have response := (takeAnswer_responses x other st s r).subset h.response
  by_cases own : x = k
  · subst own
    rwa [takeAnswer_ignored (.inl h.free)]
  · have record := (takeAnswer_frees x other st s).record (Ne.symm own)
    exact ⟨by rw [record]; exact h.free, by rw [record]; exact h.round, response⟩

theorem RefAnswered.boardAnswer {k : Fin 8} {round : Bool} {r : Rig} {a : Response} {s : Part}
    (h : RefAnswered k round r a s) (rep : GangReport) (x : Fin 8) : RefAnswered k round r a (boardAnswer rep x s) := by
  rcases boardAnswer_cases rep x s with e | ⟨st, e⟩ <;> rw [e]
  · exact h
  · exact h.answer _ _ _

/-- R119: a command that is proposed as a whole completes as its proposed part ends. -/
theorem endOwner_proposed {s : Part} {r : Rig} {id : Nat} {h : Held} {req : MoveReq} {part : MovePart}
    (found : (s.port.get r).find id = some h) (phase : h.phase = .move ⟨req, none, some part, none⟩)
    (live : part.stage.isEnded = false) (st : Status) (results : List Byte) :
    ⟨id, h.tag, h.code, st, 0, results⟩ ∈ ((endOwner (.command r id true) st results s).port.get r).responses := by
  have own : MoveCmd.part ⟨req, none, some part, none⟩ true = some part := rfl
  obtain ⟨ended, outcome⟩ : (partEnded (MoveCmd.endPart ⟨req, none, some part, none⟩ true part st results).own &&
        partEnded (MoveCmd.endPart ⟨req, none, some part, none⟩ true part st results).gang) = true ∧
      (MoveCmd.endPart ⟨req, none, some part, none⟩ true part st results).outcome = (st, results) := by
    by_cases ok : st = .ok <;>
      simp [MoveCmd.endPart, MoveCmd.setPart, MoveCmd.outcome, partEnded, partResults, Stage.isEnded, ok]
  have completes : endOwner (.command r id true) st results s = respond r id st 0 results (unbind (.command r id true)
      (setPhase r id (.move (MoveCmd.endPart ⟨req, none, some part, none⟩ true part st results)) s)) := by
    simp only [endOwner, moveOf_of_find found phase, own, live, Bool.false_eq_true, if_false, ended, outcome, if_true]
  have held := setPhase_find found (.move (MoveCmd.endPart ⟨req, none, some part, none⟩ true part st results))
  rw [completes, respond_port, if_pos rfl]
  exact (Port.respond_responses _ _ _ _ _ held (by nofun)).symm ▸ List.mem_append_right _ List.mem_cons_self

/-- R119: the answer that a ref awaits completes the command that it serves. -/
theorem takeAnswer_answered {k : Fin 8} {s : Part} {r : Rig} {id : Nat} {h : Held} {req : MoveReq} {mask : Half}
    (awaiting : (s.gang.records.get k).awaiting = true) (serves : (s.gang.records.get k).serves = some (r, id))
    (found : (s.port.get r).find id = some h) (phase : h.phase = .move ⟨req, none, some ⟨mask, .proposed k⟩, none⟩)
    (st : Status) : RefAnswered k (s.gang.records.get k).round r ⟨id, h.tag, h.code, st, 0, answerResults st⟩
      (takeAnswer k (s.gang.records.get k).round st s) := by
  have taken : takeAnswer k (s.gang.records.get k).round st s =
      endOwner (.command r id true) st (answerResults st) (freedPart k s) := by rw [takeAnswer_taken awaiting, serves]
  have record : (takeAnswer k (s.gang.records.get k).round st s).gang.records.get k = (s.gang.records.get k).freed := by
    rw [taken, endOwner_command_gang, freedPart_record, if_pos rfl]
  refine ⟨by rw [record]; rfl, by rw [record]; rfl, ?_⟩
  rw [taken]
  exact endOwner_proposed (s := freedPart k s) found phase rfl _ _

/-- R119, R131: the refusals carry one byte of results. -/
theorem answerResults_eq (st : Status) : answerResults st =
    if st ∈ [Status.badTarget, .isProtected, .busy, .unusable, .notAligned] then [0xFF#8] else [] := by cases st <;> rfl

/-- R119: the board shows the answer that a ref awaits. -/
theorem boardAnswers_answered {rep : GangReport} {k : Fin 8} {s : Part} {r : Rig} {id : Nat} {h : Held} {req : MoveReq}
    {mask : Half} {st : Status} (awaiting : (s.gang.records.get k).awaiting = true)
    (serves : (s.gang.records.get k).serves = some (r, id)) (alone : ServedBy k r id s)
    (found : (s.port.get r).find id = some h) (phase : h.phase = .move ⟨req, none, some ⟨mask, .proposed k⟩, none⟩)
    (answered : (rep.board.get k).state = 2#2) (round : (rep.board.get k).round = (s.gang.records.get k).round)
    (status : readStatusCode (rep.board.get k).status = some st) :
    RefAnswered k (s.gang.records.get k).round r ⟨id, h.tag, h.code, st, 0, answerResults st⟩ (boardAnswers rep s) := by
  refine foldl_reaches (f := fun t ref => boardAnswer rep ref t) (P := RefStands k s) (a := k)
    (fun u x other stands => stands.trans ((boardAnswer_frees rep x u).stands other)) (fun u stands => ?_)
    (fun u x h => h.boardAnswer rep x) (mem_allRefs k) (.refl k s)
  have record := stands.record
  rw [boardAnswer_shown answered status, round, ← record]
  exact takeAnswer_answered (record ▸ awaiting) (record ▸ serves) ((stands.command r id alone).2.trans found) phase st

end Sys2Proof.Machine
end

section
/-! The PROPOSEs that a leader takes (R120): what the checks of a taking look at, and what the board shows then (log 35). -/

namespace Sys2Proof.Machine

/-! ## What the checks look at (R149) -/

/-- Two parts on which the checks of a MOVE_GROUP come to the same. -/
structure JudgedAlike (s t : Part) : Prop where
  tables : t.tables = s.tables
  health : t.health = s.health
  tracker : t.tracker = s.tracker
  pair : t.gang.pair = s.gang.pair
  record : ∀ g, (t.groups.get g).unbound = (s.groups.get g).unbound

theorem JudgedAlike.trans {s t u : Part} (h : JudgedAlike s t) (k : JudgedAlike t u) : JudgedAlike s u :=
  ⟨k.tables.trans h.tables, k.health.trans h.health, k.tracker.trans h.tracker, k.pair.trans h.pair,
    fun g => (k.record g).trans (h.record g)⟩

section
variable {s t : Part} (h : JudgedAlike s t)
include h

theorem JudgedAlike.matchedAs (role : Role) (g : Fin 16) : matchedAs t role g = matchedAs s role g := by
  have pair := h.pair
  simp only [Gang.pair, Prod.mk.injEq] at pair
  obtain ⟨role', state, matched, -⟩ := pair
  rw [Machine.matchedAs, Machine.matchedAs, role', state, matched]

theorem JudgedAlike.groupEntry (g : Fin 16) : groupEntry t g = groupEntry s g := by
  rw [Machine.groupEntry, Machine.groupEntry, h.tables]

theorem JudgedAlike.usable (g : Fin 16) (e : End) : usable t g e = usable s g e := by
  have pair := h.pair
  simp only [Gang.pair, Prod.mk.injEq] at pair
  obtain ⟨-, -, -, partner⟩ := pair
  cases e with
  | dark => rfl
  | rig x => simp only [Machine.usable, rigUsable, isLeading, localUsable, partnerUsable, h.matchedAs, h.groupEntry, h.health, partner]

theorem JudgedAlike.checkAB (mask : Half) (req : MoveReq) : checkAB t mask req = checkAB s mask req := by
  have a : failsA t req.target = failsA s req.target := funext fun g => by simp only [failsA, h.groupEntry]
  have b : failsB t = failsB s := funext fun g => by simp only [failsB, h.groupEntry]
  simp only [Machine.checkAB, a, b]

theorem JudgedAlike.checkCDE (mask : Half) (req : MoveReq) : checkCDE t mask req = checkCDE s mask req := by
  have course (g : Fin 16) : (t.groups.get g).course = (s.groups.get g).course := (unbound_fields (h.record g)).1
  have c : failsC t = failsC s := funext fun g => (unbound_fields (h.record g)).2.2.2.1
  have d : failsD t req.target req.force = failsD s req.target req.force :=
    funext fun g => by simp only [failsD, h.groupEntry, h.usable, course]
  have e : failsE t req.target req.force = failsE s req.target req.force :=
    funext fun g => by simp only [failsE, alignMet, h.groupEntry, h.tracker, course]
  simp only [Machine.checkCDE, c, d, e]

theorem JudgedAlike.checkTaking (mask : Half) (req : MoveReq) : checkTaking t mask req = checkTaking s mask req := by
  simp only [Machine.checkTaking, checkAll, h.checkAB, h.checkCDE]
end

theorem withGang_judged {s : Part} {k : Gang} (h : k.pair = s.gang.pair) : JudgedAlike s { s with gang := k } :=
  ⟨rfl, rfl, rfl, h, fun _ => rfl⟩

theorem dropProposal_gang (ref : Fin 8) (s : Part) : (dropProposal ref s).gang = s.gang :=
  (dropProposal_same ref s).get .gang rfl

/-- R120: a proposal that is dropped takes its bindings from the groups alone. -/
theorem dropProposal_judged (ref : Fin 8) (s : Part) : JudgedAlike s (dropProposal ref s) := by
  have same := dropProposal_same ref s
  refine ⟨same.get .tables rfl, same.get .health rfl, same.get .tracker rfl, by rw [dropProposal_gang], fun g => ?_⟩
  unfold dropProposal
  split
  · exact (unbind_undisturbed _ s).record
  all_goals rfl

/-! ## The board (R120) -/

/-- R120: the button proposal of a partner waits as a press. -/
theorem takePropose_press {p : ProposeMsg} (button : p.ref.val = 8) (s : Part) : takePropose p s =
    { s with gang := { s.gang with presses := s.gang.presses ++ [⟨p.target, p.mask, true⟩] } } :=
  dif_neg (by omega)

/-- R120: the PROPOSE for a ref of the board. -/
theorem takePropose_ref {p : ProposeMsg} {k : Fin 8} (own : p.ref.val = k.val) (s : Part) : takePropose p s =
    if (s.gang.board.get k).round = p.round ∧ (s.gang.board.get k).state.isIdle = false then s
    else if p.mask = 0#16 then
      { setBoard k ⟨p.round, .answered .ok⟩ (dropProposal k s) with
        gang := { (setBoard k ⟨p.round, .answered .ok⟩ (dropProposal k s)).gang with
          answers := pushAnswer (dropProposal k s).gang.answers ⟨k, p.round, .ok⟩ } }
    else holdProposal k p (dropProposal k s) := by
  have ref : (⟨p.ref.val, own ▸ k.isLt⟩ : Fin 8) = k := Fin.ext own
  unfold takePropose
  rw [dif_pos (own ▸ k.isLt), ref]
  rfl

theorem BoardState.isIdle_eq_false {b : BoardState} : b.isIdle = false ↔ b ≠ .idle := by cases b <;> simp [BoardState.isIdle]

/-- R120: a PROPOSE that the board shows already changes nothing. -/
theorem takePropose_again {p : ProposeMsg} {k : Fin 8} (own : p.ref.val = k.val) {s : Part}
    (round : (s.gang.board.get k).round = p.round) (busy : (s.gang.board.get k).state ≠ .idle) : takePropose p s = s := by
  rw [takePropose_ref own, if_pos ⟨round, BoardState.isIdle_eq_false.mpr busy⟩]

section
variable {p : ProposeMsg} {k : Fin 8} (own : p.ref.val = k.val) {s : Part}
  (new : (s.gang.board.get k).round ≠ p.round ∨ (s.gang.board.get k).state = .idle)
include own new

theorem takePropose_new : takePropose p s = if p.mask = 0#16 then
      { setBoard k ⟨p.round, .answered .ok⟩ (dropProposal k s) with
        gang := { (setBoard k ⟨p.round, .answered .ok⟩ (dropProposal k s)).gang with
          answers := pushAnswer (dropProposal k s).gang.answers ⟨k, p.round, .ok⟩ } }
    else holdProposal k p (dropProposal k s) := by
  rw [takePropose_ref own, if_neg]
  rintro ⟨round, busy⟩
  exact new.elim (fun other => other round) (BoardState.isIdle_eq_false.mp busy)

/-- R120: a withdrawal is answered OK. -/
theorem takePropose_withdrawal (empty : p.mask = 0#16) :
    (takePropose p s).gang.board.get k = ⟨p.round, .answered .ok⟩ := by
  rw [takePropose_new own new, if_pos empty]
  exact Tbl.get_set_self _ _ _

/-- R120: a proposal that a check of its taking fails is answered at once. -/
theorem takePropose_answered (asks : p.mask ≠ 0#16) {st : Status} {g : Fin 16}
    (fails : orCheck (checkMatched (dropProposal k s) (.proposal k) p.mask)
      (checkTaking (dropProposal k s) p.mask ⟨p.target, p.force, p.cond⟩) = some (st, g)) :
    (takePropose p s).gang.board.get k = ⟨p.round, .answered st⟩ ∧ ⟨k, p.round, st⟩ ∈ (takePropose p s).gang.answers := by
  have held : (setBoard k ⟨p.round, .held ⟨p.target, p.force, p.cond⟩ ⟨p.mask, startStage ⟨p.target, p.force, p.cond⟩⟩⟩
      (dropProposal k s)).gang.board.get k =
        ⟨p.round, .held ⟨p.target, p.force, p.cond⟩ ⟨p.mask, startStage ⟨p.target, p.force, p.cond⟩⟩⟩ :=
    Tbl.get_set_self _ _ _
  have ended : takePropose p s = endOwner (.proposal k) st (be8 g.val) (setBoard k ⟨p.round,
      .held ⟨p.target, p.force, p.cond⟩ ⟨p.mask, startStage ⟨p.target, p.force, p.cond⟩⟩⟩ (dropProposal k s)) := by
    rw [takePropose_new own new, if_neg asks, holdProposal]
    simp only [fails]
  rw [ended]
  exact endOwner_board held st _

/-- R120: a proposal that passes the checks of its taking is held. -/
theorem takePropose_held (asks : p.mask ≠ 0#16)
    (passes : orCheck (checkMatched (dropProposal k s) (.proposal k) p.mask)
      (checkTaking (dropProposal k s) p.mask ⟨p.target, p.force, p.cond⟩) = none) :
    (takePropose p s).gang.board.get k = ⟨p.round, .held ⟨p.target, p.force, p.cond⟩
      ⟨p.mask, if p.cond = none then .held else .waiting 0⟩⟩ := by
  have held : takePropose p s = setBoard k ⟨p.round, .held ⟨p.target, p.force, p.cond⟩
      ⟨p.mask, startStage ⟨p.target, p.force, p.cond⟩⟩⟩ (dropProposal k s) := by
    rw [takePropose_new own new, if_neg asks, holdProposal]
    simp only [passes]
  rw [held, startStage_eq]
  exact Tbl.get_set_self _ _ _
end

/-- R120: the PROPOSE for a ref changes of the Gang Port the ref's entry of the board and the queue of answers alone. -/
theorem takePropose_gang {p : ProposeMsg} {k : Fin 8} (own : p.ref.val = k.val) (s : Part) :
    (takePropose p s).gang = { s.gang with
      board := (takePropose p s).gang.board, answers := (takePropose p s).gang.answers } ∧
    ∀ j, j ≠ k → (takePropose p s).gang.board.get j = s.gang.board.get j := by
  have shown (e : BoardEntry) : (setBoard k e (dropProposal k s)).gang = { s.gang with board := s.gang.board.set k e } := by
    rw [setBoard, dropProposal_gang]
  have others (e : BoardEntry) (j : Fin 8) (apart : j ≠ k) :
      (setBoard k e (dropProposal k s)).gang.board.get j = s.gang.board.get j := by
    rw [shown]
    exact Tbl.get_set_other _ _ apart
  rw [takePropose_ref own]
  split
  · exact ⟨rfl, fun _ _ => rfl⟩
  · split
    · rw [shown]
      exact ⟨rfl, fun j apart => Tbl.get_set_other _ _ apart⟩
    · unfold holdProposal
      dsimp only
      split
      · refine ⟨(endOwner_ending _ _ _ _).gang.trans (by rw [shown]), fun j apart => ?_⟩
        exact (Sum.inr.inj (endOwner_spares (o := .proposal j) (p := .proposal k) (Ne.symm apart) _ _ _).entry).trans
          (others _ j apart)
      · rw [shown]
        exact ⟨rfl, fun j apart => Tbl.get_set_other _ _ apart⟩

theorem takePropose_other {p : ProposeMsg} {j : Fin 8} (other : p.ref.val ≠ j.val) (s : Part) :
    (takePropose p s).gang.board.get j = s.gang.board.get j := by
  by_cases button : p.ref.val = 8
  · rw [takePropose_press button]
  · have ref : p.ref.val < 8 := by omega
    exact (takePropose_gang (k := ⟨p.ref.val, ref⟩) rfl s).2 j fun e => other (congrArg Fin.val e.symm)

/-! ## The message of a frame (R112) -/

theorem takePropose_heard (p : ProposeMsg) (s : Part) : (takePropose p s).gang.heard = s.gang.heard := by
  by_cases button : p.ref.val = 8
  · rw [takePropose_press button]
    rfl
  · have ref : p.ref.val < 8 := by omega
    rw [(takePropose_gang (k := ⟨p.ref.val, ref⟩) rfl s).1]
    rfl

theorem takeGangMsgIn_heard (m : GangMsg) (s : Part) : (takeGangMsgIn m s).gang.heard = s.gang.heard := by
  unfold takeGangMsgIn
  split
  · unfold takeGangMove
    split <;> rfl
  · exact takePropose_heard _ _
  · rw [(takeAnswer_frees _ _ _ _).link]
    rfl
  all_goals rfl

end Sys2Proof.Machine
end

section
/-! GANG_FRAME_RECEIVED in each role and state of the link (R109, R112, R113, R118 to R120, R123; logs 32, 35, 44, 59, 60). -/

namespace Sys2Proof.Machine

/-! ## An acceptable frame (R112, R113) -/

theorem acceptable_iff (s : Part) (b : List Byte) :
    acceptable s b = true ↔ goodCheck 64 b = true ∧ (byteAt b 2).toNat = s.gang.role.partner.code := by
  rw [acceptable, Bool.and_eq_true, beq_iff_eq]

theorem exec_gangFrame {s : State} (running : s.inReset = false) (b : List Byte) :
    exec (.gangFrameReceived b) s = .next (s.withPart (gangFrame b s.toPart)) :=
  exec_of_running (f := gangFrame b) rfl running

theorem exec_gangFrame_accepted {b : List Byte} {s : State} (running : s.inReset = false) (paired : s.gang.role ≠ .solo)
    (good : goodCheck 64 b = true) (sender : (byteAt b 2).toNat = s.gang.role.partner.code) :
    exec (.gangFrameReceived b) s = .next (s.withPart (acceptFrame b s.toPart)) := by
  rw [exec_gangFrame running, gangFrame, if_neg paired, if_pos ((acceptable_iff s.toPart b).mpr ⟨good, sender⟩)]

section
variable {b : List Byte} {s : Part}

/-- The part in which a follower has heard a frame and has taken the answers of its board. -/
def answeredPart (b : List Byte) (s : Part) : Part := boardAnswers (readReport b) (reportedPart (readReport b) s)

theorem acceptFrame_follower (up : s.gang.state = .up) (follower : s.gang.role = .follower) :
    acceptFrame b s = takeGangMsgIn (readGangMsg b) (answeredPart b s) := by
  have report : takeReport (readReport b) s = reportedPart (readReport b) s := takeReport_plain (.inl (by rw [follower]; nofun))
  simp only [acceptFrame, up, if_pos follower, report, answeredPart]

theorem acceptFrame_leader (up : s.gang.state = .up) (leader : s.gang.role = .leader) :
    acceptFrame b s = takeGangMsgIn (readGangMsg b) (takeReport (readReport b) s) := by
  have other : s.gang.role ≠ .follower := by rw [leader]; nofun
  simp only [acceptFrame, up, if_neg other]

theorem acceptFrame_down (down : s.gang.state = .seeking ∨ s.gang.state = .lost) : acceptFrame b s =
    if 3 ≤ s.gang.goodRun then linkUp (takeReport (readReport b) s)
    else { takeReport (readReport b) s with
      gang := { (takeReport (readReport b) s).gang with goodRun := s.gang.goodRun + 1 } } := by
  rcases down with state | state <;> simp only [acceptFrame, state]

/-- R112, R113: the report of an acceptable frame is held, whatever the frame brings besides. -/
theorem acceptFrame_reported (b : List Byte) (s : Part) : (acceptFrame b s).gang.partner = some (readReport b) ∧
    (acceptFrame b s).gang.silence = 0 ∧ (acceptFrame b s).gang.arrived = true := by
  have taken {k : Gang} (h : k.partner = (takeReport (readReport b) s).gang.partner ∧
      k.silence = (takeReport (readReport b) s).gang.silence ∧ k.arrived = (takeReport (readReport b) s).gang.arrived) :
      k.partner = some (readReport b) ∧ k.silence = 0 ∧ k.arrived = true := by
    have report := takeReport_heard (readReport b) s
    simp only [Gang.heard, Gang.pair, Prod.mk.injEq] at report
    obtain ⟨⟨-, -, -, partner⟩, silence, arrived⟩ := report
    exact ⟨h.1.trans partner, h.2.1.trans silence, h.2.2.trans arrived⟩
  have heard {k : Gang} (h : k.heard = (takeReport (readReport b) s).gang.heard) :
      k.partner = some (readReport b) ∧ k.silence = 0 ∧ k.arrived = true := by
    simp only [Gang.heard, Gang.pair, Prod.mk.injEq] at h
    obtain ⟨⟨-, -, -, partner⟩, silence, arrived⟩ := h
    exact taken ⟨partner, silence, arrived⟩
  unfold acceptFrame
  dsimp only
  split
  · split
    · exact heard ((takeGangMsgIn_heard _ _).trans (boardAnswers_heard _ _))
    · exact heard (takeGangMsgIn_heard _ _)
  · split <;> exact taken ⟨rfl, rfl, rfl⟩
  · split <;> exact taken ⟨rfl, rfl, rfl⟩
  · exact taken ⟨rfl, rfl, rfl⟩

/-- The role and the state that a report finds. -/
theorem takeReport_pair (rep : GangReport) (s : Part) : (takeReport rep s).gang.role = s.gang.role ∧
    (takeReport rep s).gang.state = s.gang.state := by
  have report := takeReport_heard rep s
  simp only [Gang.heard, Gang.pair, Prod.mk.injEq] at report
  obtain ⟨⟨role, state, -⟩, -⟩ := report
  exact ⟨role, state⟩

/-- R113: one of the first three good frames in a row is counted. -/
theorem acceptFrame_counts (down : s.gang.state = .seeking ∨ s.gang.state = .lost) (few : s.gang.goodRun < 3) :
    (acceptFrame b s).gang.goodRun = s.gang.goodRun + 1 ∧ (acceptFrame b s).gang.state = s.gang.state ∧
      noNotice s (acceptFrame b s) := by
  rw [acceptFrame_down down, if_neg few.not_ge]
  have lanes := (takeReport_same (readReport b) s).lanesStand rfl rfl
  exact ⟨rfl, (takeReport_pair _ s).2, lanes.noNotice⟩

/-- R113, R114: the fourth good frame in a row brings the link up. -/
theorem acceptFrame_linksUp (down : s.gang.state = .seeking ∨ s.gang.state = .lost) (run : s.gang.goodRun = 3) :
    (acceptFrame b s).gang.state = .up ∧ (acceptFrame b s).gang.adopt = (s.gang.role == .follower) ∧
      raised (acceptFrame b s) (.gang s.gang.role s.gang.state .up) := by
  obtain ⟨role, state⟩ := takeReport_pair (readReport b) s
  rw [acceptFrame_down down, if_pos run.ge, ← state, ← role]
  exact ⟨rfl, rfl, linkUp_raised _⟩

/-! ## A leader's MOVE (R118) -/

theorem answeredPart_pair (b : List Byte) (s : Part) : (answeredPart b s).gang.role = s.gang.role ∧
    (answeredPart b s).gang.state = s.gang.state ∧ (answeredPart b s).gang.matched = s.gang.matched := by
  have answered := boardAnswers_heard (readReport b) (reportedPart (readReport b) s)
  simp only [Gang.heard, Gang.pair, Prod.mk.injEq] at answered
  obtain ⟨⟨role, state, matched, -⟩, -⟩ := answered
  exact ⟨role, state, matched⟩

theorem takeGangMsgIn_move {u : Part} (follower : u.gang.role = .follower) (m : MoveMsg) :
    takeGangMsgIn (.move m) u = takeGangMove m u := by simp only [takeGangMsgIn, follower]

theorem takeGangMsgIn_answer {u : Part} (follower : u.gang.role = .follower) (a : AnswerMsg) :
    takeGangMsgIn (.answer a) u = takeAnswer a.ref a.round a.status u := by simp only [takeGangMsgIn, follower]

theorem takeGangMsgIn_propose {u : Part} (leader : u.gang.role = .leader) (p : ProposeMsg) :
    takeGangMsgIn (.propose p) u = takePropose p u := by simp only [takeGangMsgIn, leader]

theorem acceptFrame_move {m : MoveMsg} (up : s.gang.state = .up) (follower : s.gang.role = .follower)
    (message : readGangMsg b = .move m) (matched : inMask s.gang.matched m.group = true) :
    (acceptFrame b s).gang.pending.get m.group = some { m with
      start := if 8 < sdiff m.start s.clock.frame then s.clock.frame + 1#32 else m.start } := by
  obtain ⟨role, state, matched'⟩ := answeredPart_pair b s
  have clock : (answeredPart b s).clock = s.clock := (boardAnswers_same _ _).get .clock rfl
  have led : isLed (answeredPart b s) m.group = true := by
    rw [isLed, matchedAs, role, state, matched', up, follower, matched]
    rfl
  rw [acceptFrame_follower up follower, message, takeGangMsgIn_move (role.trans follower), takeGangMove, if_pos led, ← clock]
  exact Tbl.get_set_self _ _ _

/-! ## A follower's PROPOSE (R120, R123) -/

theorem acceptFrame_propose {p : ProposeMsg} (up : s.gang.state = .up) (leader : s.gang.role = .leader)
    (message : readGangMsg b = .propose p) : acceptFrame b s = takePropose p (takeReport (readReport b) s) := by
  rw [acceptFrame_leader up leader, message, takeGangMsgIn_propose ((takeReport_pair _ s).1.trans leader)]

/-- R112, R120: the taking of a PROPOSE comes to what the checks say of the part that has heard the frame. -/
theorem proposal_judged (rep : GangReport) (k : Fin 8) (s : Part) :
    JudgedAlike { s with gang := { s.gang with partner := some rep } } (dropProposal k (reportedPart rep s)) :=
  (withGang_judged (s := { s with gang := { s.gang with partner := some rep } })
    (k := (reportedPart rep s).gang) rfl).trans (dropProposal_judged k _)

theorem proposal_leading (up : s.gang.state = .up) (leader : s.gang.role = .leader) (rep : GangReport) (k : Fin 8)
    (g : Fin 16) : isLeading (dropProposal k (reportedPart rep s)) g = inMask s.gang.matched g := by
  rw [isLeading, (proposal_judged rep k s).matchedAs, matchedAs, leader, up]
  rfl

variable {mask : Half} {req : MoveReq} (up : s.gang.state = .up) (leader : s.gang.role = .leader) (rep : GangReport)
  (k : Fin 8)
include up leader

/-- Log 35: an unmatched group is BAD_TARGET before checks a to e. -/
theorem proposal_unmatched {g : Fin 16} (masked : inMask mask g = true) (unmatched : inMask s.gang.matched g = false) :
    ∃ j, orCheck (checkMatched (dropProposal k (reportedPart rep s)) (.proposal k) mask)
      (checkTaking (dropProposal k (reportedPart rep s)) mask req) = some (.badTarget, j) := by
  obtain ⟨j, fails⟩ := checkMatched_proposal masked ((proposal_leading up leader rep k g).trans unmatched) k
  exact ⟨j, by rw [fails, orCheck]⟩

/-- R120: a proposal for matched groups is judged as a MOVE_GROUP of the leader is. -/
theorem proposal_matched (matched : ∀ g, inMask mask g = true → inMask s.gang.matched g = true) :
    orCheck (checkMatched (dropProposal k (reportedPart rep s)) (.proposal k) mask)
      (checkTaking (dropProposal k (reportedPart rep s)) mask req) =
        checkTaking { s with gang := { s.gang with partner := some rep } } mask req := by
  have own := ownGroups_proposal (fun g masked => (proposal_leading up leader rep k g).trans (matched g masked)) k
  rw [own.matched, orCheck, (proposal_judged rep k s).checkTaking]
end

/-! ## The answers that a follower takes or ignores (R119) -/

section
variable {b : List Byte} {s : Part} {k : Fin 8}

/-- R119: a message that is no answer for the ref leaves it. -/
theorem takeGangMsgIn_stands {m : GangMsg} (follower : s.gang.role = .follower)
    (h : (s.gang.records.get k).awaiting = false ∨ ∀ st, m ≠ .answer ⟨k, (s.gang.records.get k).round, st⟩) :
    RefStands k s (takeGangMsgIn m s) := by
  cases m with
  | none => exact .refl k s
  | move m =>
    rw [takeGangMsgIn_move follower, takeGangMove]
    split
    · exact ⟨rfl, fun _ _ alone => ⟨alone, rfl⟩⟩
    · exact .refl k s
  | propose p =>
    have ignored : takeGangMsgIn (.propose p) s = s := by simp only [takeGangMsgIn, follower]
    rw [ignored]
    exact .refl k s
  | answer a =>
    obtain ⟨ref, round, st⟩ := a
    rw [takeGangMsgIn_answer follower]
    by_cases own : ref = k
    · subst own
      rw [takeAnswer_ignored (h.imp_right fun other same => other st (by rw [same]))]
      exact .refl ref s
    · exact (takeAnswer_frees ref round st s).stands own

/-- R119: once answered, a ref stays free and its command's response stays queued. -/
theorem RefAnswered.message {round : Bool} {r : Rig} {a : Response} (h : RefAnswered k round r a s)
    (follower : s.gang.role = .follower) (m : GangMsg) : RefAnswered k round r a (takeGangMsgIn m s) := by
  cases m with
  | none => exact h
  | move m =>
    rw [takeGangMsgIn_move follower, takeGangMove]
    split
    · exact ⟨h.free, h.round, h.response⟩
    · exact h
  | propose p =>
    have ignored : takeGangMsgIn (.propose p) s = s := by simp only [takeGangMsgIn, follower]
    rwa [ignored]
  | answer a =>
    rw [takeGangMsgIn_answer follower]
    exact h.answer _ _ _

theorem answeredPart_stands (h : (s.gang.records.get k).awaiting = false ∨ ((readReport b).board.get k).state ≠ 2#2 ∨
    ((readReport b).board.get k).round ≠ (s.gang.records.get k).round ∨ 13 < ((readReport b).board.get k).status.toNat) :
    RefStands k s (answeredPart b s) := by
  have reported : RefStands k s (reportedPart (readReport b) s) := ⟨rfl, fun _ _ alone => ⟨alone, rfl⟩⟩
  exact reported.trans (boardAnswers_stands h)
end

/-! ## The statement -/

/-- Settles O53. -/
theorem gangFrameReceived : Obligations.GangFrameReceived := by
  refine ⟨fun b s running => ⟨fun solo => ?solo, fun paired bad => ?bad, fun paired good sender => ?good⟩, ?ignored, ?answered⟩
  case solo =>
    rw [exec_gangFrame running, gangFrame, if_pos solo]
    rfl
  case bad =>
    have unacceptable : ¬acceptable s.toPart b = true := by
      rw [acceptable_iff]
      exact fun ⟨good, sender⟩ => bad.elim (fun fails => Bool.false_ne_true (fails.symm.trans good)) fun other => other sender
    rw [exec_gangFrame running, gangFrame, if_neg paired, if_neg unacceptable]
    rfl
  case good =>
    obtain ⟨partner, silence, arrived⟩ := acceptFrame_reported b s.toPart
    refine ⟨_, exec_gangFrame_accepted running paired good sender, partner, silence, arrived, acceptFrame_counts,
      acceptFrame_linksUp, fun m => acceptFrame_move, ?press, ?cleared, ?proposed⟩
    case press =>
      intro p up leader partnerUp message button
      rw [State.toPart_withPart, acceptFrame_propose up leader message, takeReport_plain (.inr partnerUp),
        takePropose_press button]
      exact ⟨rfl, rfl⟩
    case cleared =>
      intro p up leader down message
      rw [State.toPart_withPart, acceptFrame_propose up leader message, takeReport_clears leader down]
      refine ⟨fun button => ?_, fun k own empty => ?_, fun j other => ?_⟩
      · rw [takePropose_press button, clearBoard_gang]
        rfl
      · exact takePropose_withdrawal own (.inr (by rw [clearBoard_entry])) empty
      · rw [takePropose_other other, clearBoard_entry]
        rfl
    case proposed =>
      intro p k up leader partnerUp message own
      rw [State.toPart_withPart, acceptFrame_propose up leader message, takeReport_plain (.inr partnerUp)]
      have again := takePropose_again (s := reportedPart (readReport b) s.toPart) own
      have answered := takePropose_answered (s := reportedPart (readReport b) s.toPart) own
      have held := takePropose_held (s := reportedPart (readReport b) s.toPart) own
      refine ⟨fun round busy => by rw [again round busy]; rfl, fun new => ⟨fun empty => ?_, fun asks ⟨g, masked, unmatched⟩ => ?_,
        fun st g asks matched fails => ?_, fun asks matched passes => ?_⟩⟩
      · exact takePropose_withdrawal (s := reportedPart (readReport b) s.toPart) own new empty
      · obtain ⟨j, fails⟩ := proposal_unmatched up leader (readReport b) k masked unmatched
        exact (answered new asks fails).1
      · exact answered new asks ((proposal_matched up leader _ k matched).trans fails)
      · exact held new asks ((proposal_matched up leader _ k matched).trans passes)
  case ignored =>
    intro b s k running follower up good sender unanswered
    have paired : s.gang.role ≠ .solo := by rw [follower]; nofun
    have board : RefStands k s.toPart (answeredPart b s.toPart) :=
      answeredPart_stands (unanswered.imp_right And.left)
    have role := (answeredPart_pair b s.toPart).1.trans follower
    have stands := board.trans (takeGangMsgIn_stands (m := readGangMsg b) role
      (by rw [board.record]; exact unanswered.imp_right And.right))
    refine ⟨_, exec_gangFrame_accepted running paired good (by rw [follower]; exact sender), ?_⟩
    rw [State.toPart_withPart, acceptFrame_follower up follower]
    exact ⟨stands.record, fun r id _ alone => (stands.command r id alone).2⟩
  case answered =>
    intro b s k r id h req mask st running follower up good sender awaiting serves alone found phase answer
    have paired : s.gang.role ≠ .solo := by rw [follower]; nofun
    have role := (answeredPart_pair b s.toPart).1.trans follower
    have taken : RefAnswered k (s.gang.records.get k).round r ⟨id, h.tag, h.code, st, 0, answerResults st⟩
        (takeGangMsgIn (readGangMsg b) (answeredPart b s.toPart)) := by
      rcases answer with ⟨shown, round, status⟩ | ⟨held, message⟩
      · exact (boardAnswers_answered (s := reportedPart (readReport b) s.toPart) awaiting serves alone found phase shown
          round status).message role _
      · have board : RefStands k s.toPart (answeredPart b s.toPart) := answeredPart_stands (.inr (.inl held))
        have record := board.record
        rw [message, takeGangMsgIn_answer role, ← record]
        exact takeAnswer_answered (record ▸ awaiting) (record ▸ serves) ((board.command r id alone).2.trans found) phase st
    refine ⟨_, exec_gangFrame_accepted running paired good (by rw [follower]; exact sender), ?_⟩
    rw [State.toPart_withPart, acceptFrame_follower up follower, ← answerResults_eq]
    exact ⟨taken.free, taken.round, taken.response⟩

end Sys2Proof.Machine
end

section
/-! The checks a to e of a MOVE_GROUP in their order (R149). -/

namespace Sys2Proof.Machine

/-! ## The lowest member (R149, R119) -/

/-- What is found first among all the members of a range is the lowest. -/
theorem find?_finRange_eq_some {n : Nat} {p : Fin n → Bool} {i : Fin n} :
    (List.finRange n).find? p = some i ↔ p i = true ∧ ∀ k, k < i → p k = false := by
  rw [List.find?_eq_some_iff_getElem]
  refine and_congr_right fun _ => ⟨?_, fun lower => ?_⟩
  · rintro ⟨j, bound, own, before⟩ k below
    have place : i.val = j := by simp [← own]
    simpa using before k.val (place ▸ Fin.lt_def.mp below)
  · refine ⟨i.val, by simp, by simp, fun j below => ?_⟩
    simpa using lower ⟨j, below.trans i.isLt⟩ below

theorem firstFailing_eq_some {mask : Half} {fails : Fin 16 → Bool} {g : Fin 16} : firstFailing mask fails = some g ↔
    inMask mask g = true ∧ fails g = true ∧ ∀ k, k < g → inMask mask k = true → fails k = false := by
  rw [firstFailing, allGroups, find?_finRange_eq_some, Bool.and_eq_true, and_assoc]
  refine and_congr_right fun _ => and_congr_right fun _ => forall_congr' fun k => imp_congr_right fun _ => ?_
  rw [Bool.and_eq_false_iff]
  cases inMask mask k <;> simp

/-! ## Checks in an order -/

/-- The first status of a list whose check some masked group fails, and the lowest such group. -/
def firstStatus (mask : Half) (fails : Status → Fin 16 → Bool) : List Status → Option (Status × Fin 16)
  | [] => none
  | st :: rest =>
    match firstFailing mask (fails st) with
    | some g => some (st, g)
    | none => firstStatus mask fails rest

section
variable {mask : Half} {fails : Status → Fin 16 → Bool}

theorem firstStatus_eq_none {order : List Status} : firstStatus mask fails order = none ↔
    ∀ st ∈ order, ∀ g, inMask mask g = true → fails st g = false := by
  induction order with
  | nil => exact ⟨nofun, fun _ => rfl⟩
  | cons st rest ih =>
    rw [List.forall_mem_cons, ← firstFailing_eq_none, firstStatus]
    split
    next g found => exact ⟨nofun, fun h => absurd (found.symm.trans h.1) nofun⟩
    next passes => exact ih.trans ⟨fun h => ⟨passes, h⟩, And.right⟩

theorem firstStatus_eq_some {order : List Status} {st : Status} {g : Fin 16} :
    firstStatus mask fails order = some (st, g) ↔ ∃ before after, order = before ++ st :: after ∧
      firstFailing mask (fails st) = some g ∧ firstStatus mask fails before = none := by
  induction order with
  | nil => exact ⟨nofun, fun ⟨before, after, split, _⟩ => absurd split.symm (by simp)⟩
  | cons x rest ih =>
    rw [firstStatus]
    split
    next k found =>
      constructor
      · intro e
        cases e
        exact ⟨[], rest, rfl, found, rfl⟩
      · rintro ⟨before, after, split, first, passed⟩
        cases before with
        | nil =>
          cases split
          rw [Option.some.inj (found.symm.trans first)]
        | cons y before =>
          cases split
          rw [firstStatus, found] at passed
          cases passed
    next passes =>
      rw [ih]
      constructor
      · rintro ⟨before, after, rfl, first, passed⟩
        exact ⟨x :: before, after, rfl, first, by rw [firstStatus, passes]; exact passed⟩
      · rintro ⟨before, after, split, first, passed⟩
        cases before with
        | nil =>
          cases split
          exact absurd (passes.symm.trans first) nofun
        | cons y before =>
          cases split
          rw [firstStatus, passes] at passed
          exact ⟨before, after, rfl, first, passed⟩

theorem mem_of_firstStatus {order : List Status} {st : Status} {g : Fin 16}
    (h : firstStatus mask fails order = some (st, g)) : st ∈ order := by
  obtain ⟨before, after, rfl, -⟩ := firstStatus_eq_some.mp h
  exact List.mem_append_right _ List.mem_cons_self
end

/-! ## The checks a to e -/

/-- The check that a status stands for. -/
def failsAs (s : Part) (req : MoveReq) : Status → Fin 16 → Bool
  | .badTarget => failsA s req.target
  | .isProtected => failsB s
  | .busy => failsC s
  | .unusable => failsD s req.target req.force
  | .notAligned => failsE s req.target req.force
  | .ok | .cancelled | .superseded | .timeout | .unknownCommand | .badLength | .badParam | .locked | .storeFailed =>
    fun _ => false

theorem failsD_iff (s : Part) (target : End) (force : Bool) (g : Fin 16) : failsD s target force g = true ↔
    ∃ x, target = .rig x ∧ (s.groups.get g).course.dest ≠ .rig x ∧ rigUsable s g x = false ∧
      (force = false ∨ (groupEntry s g).mode ≠ .manual) := by
  simp only [failsD, Bool.and_eq_true, Bool.or_eq_true, Bool.not_eq_true', bne_iff_ne, ne_eq, and_assoc]
  cases target with
  | dark => exact ⟨fun h => absurd h.2.1 nofun, fun ⟨_, h, _⟩ => absurd h nofun⟩
  | rig x => exact ⟨fun h => ⟨x, rfl, h⟩, fun ⟨y, e, h⟩ => by cases e; exact h⟩

theorem failsE_iff (s : Part) (target : End) (force : Bool) (g : Fin 16) : failsE s target force g = true ↔
    force = false ∧ (groupEntry s g).requireAlign = true ∧ alignMet s = false ∧
      ∃ x, target = .rig x ∧ (s.groups.get g).course.dest = .rig x.other := by
  have ends : otherEnd target = some (s.groups.get g).course.dest ↔
      ∃ x, target = .rig x ∧ (s.groups.get g).course.dest = .rig x.other := by
    cases target with
    | dark => exact ⟨nofun, fun ⟨_, h, _⟩ => absurd h nofun⟩
    | rig x => exact ⟨fun h => ⟨x, rfl, (Option.some.inj h).symm⟩, fun ⟨y, e, h⟩ => by cases e; rw [h]; rfl⟩
  simp only [failsE, Bool.and_eq_true, Bool.not_eq_true', beq_iff_eq, ends, and_assoc]
  exact and_congr_right fun _ => and_congr_right fun _ => and_comm

/-- R149. -/
theorem failsAs_iff (s : Part) (req : MoveReq) (st : Status) (g : Fin 16) :
    failsAs s req st g = true ↔ failsCheck s req st g := by
  cases st with
  | badTarget => simp [failsAs, failsA, failsCheck]
  | isProtected => exact .rfl
  | busy => exact .rfl
  | unusable => exact failsD_iff s req.target req.force g
  | notAligned => exact failsE_iff s req.target req.force g
  | _ => exact ⟨nofun, nofun⟩

theorem failsAs_eq_false (s : Part) (req : MoveReq) (st : Status) (g : Fin 16) :
    failsAs s req st g = false ↔ ¬failsCheck s req st g := by rw [← failsAs_iff, Bool.not_eq_true]

section
variable (s : Part) (mask : Half) (req : MoveReq)

theorem checkAB_eq : checkAB s mask req = firstStatus mask (failsAs s req) [.badTarget, .isProtected] := by
  simp only [checkAB, firstStatus, failsAs]
  cases firstFailing mask (failsA s req.target) with
  | some g => rfl
  | none => cases firstFailing mask (failsB s) <;> rfl

theorem checkCDE_eq : checkCDE s mask req = firstStatus mask (failsAs s req) [.busy, .unusable, .notAligned] := by
  simp only [checkCDE, firstStatus, failsAs]
  cases firstFailing mask (failsC s) with
  | some g => rfl
  | none =>
    cases firstFailing mask (failsD s req.target req.force) with
    | some g => rfl
    | none => cases firstFailing mask (failsE s req.target req.force) <;> rfl

theorem checkAll_eq : checkAll s mask req =
    firstStatus mask (failsAs s req) [.badTarget, .isProtected, .busy, .unusable, .notAligned] := by
  rw [checkAll, checkAB_eq, checkCDE_eq]
  simp only [firstStatus]
  cases firstFailing mask (failsAs s req .badTarget) with
  | some g => rfl
  | none => cases firstFailing mask (failsAs s req .isProtected) <;> rfl

/-- R149: all of the groups pass all of the checks. -/
theorem checkAll_none_iff : checkAll s mask req = none ↔
    ∀ st ∈ [Status.badTarget, .isProtected, .busy, .unusable, .notAligned], ∀ g, inMask mask g = true →
      ¬failsCheck s req st g := by
  simp only [checkAll_eq, firstStatus_eq_none, failsAs_eq_false]

/-- R149: the first check that some masked group fails, and the lowest such group. -/
theorem checkAll_some_iff (st : Status) (g : Fin 16) : checkAll s mask req = some (st, g) ↔
    ∃ before after, [Status.badTarget, .isProtected, .busy, .unusable, .notAligned] = before ++ st :: after ∧
      inMask mask g = true ∧ failsCheck s req st g ∧ (∀ k, k < g → inMask mask k = true → ¬failsCheck s req st k) ∧
      ∀ st' ∈ before, ∀ k, inMask mask k = true → ¬failsCheck s req st' k := by
  simp only [checkAll_eq, firstStatus_eq_some, firstFailing_eq_some, firstStatus_eq_none, failsAs_eq_false, failsAs_iff,
    and_assoc]

/-- R149: checks a and b are the first two of the five. -/
theorem checkAB_some_iff (st : Status) (g : Fin 16) : checkAB s mask req = some (st, g) ↔
    (st = .badTarget ∨ st = .isProtected) ∧ checkAll s mask req = some (st, g) := by
  rw [checkAll]
  split
  next x fails =>
    rw [fails]
    refine ⟨fun e => ⟨?_, e⟩, And.right⟩
    have mem := mem_of_firstStatus ((checkAB_eq s mask req).symm.trans (fails.trans e))
    simpa using mem
  next passes =>
    refine ⟨fun fails => absurd (passes.symm.trans fails) nofun, fun ⟨first, fails⟩ => ?_⟩
    have mem := mem_of_firstStatus ((checkCDE_eq s mask req).symm.trans fails)
    rcases first with rfl | rfl <;> simp at mem

theorem checkCDE_of_passes (passes : checkAB s mask req = none) : checkCDE s mask req = checkAll s mask req := by
  rw [checkAll, passes]
end

end Sys2Proof.Machine
end

section
/-! A MOVE_GROUP as it is taken (R119, R127, R129, R139, R149 to R151; log 18). -/

namespace Sys2Proof.Machine

/-! ## The message (R129, R139) -/

/-- R139: a message whose checks up to the range check pass is performed. -/
theorem judge_performs {r : Rig} {id : Nat} {msg params : List Byte} {s : Part} {c : Code} {cond : Option (Byte × Half)}
    {cmd : Command} (code : readCode (byteAt msg 1) = some c) (read : readMessage msg = some (params, cond))
    (length : c.lengthOk params = true) (accepts : cond.isSome = true → c.takesCond = true)
    (taken : c.takenAt s.lock.level = true) (idle : (c.waitsForStore && storeBusy s) = false)
    (ok : readCommand c params cond = .ok cmd) : judge r id msg s = perform r id cmd s := by
  simp only [judge, code, read, lengthGate_passes length accepts, taken, idle, ok, Bool.not_true, Bool.false_eq_true,
    if_false]

/-- R129: the condition part behind the four parameters of a MOVE_GROUP. -/
theorem readMessage_conditioned (tag code flags hi lo : Byte) {params : List Byte} (length : params.length = 4) :
    readMessage (tag :: code :: 4#8 :: (params ++ [flags, hi, lo])) = some (params, some (flags, hi ++ lo)) := by
  have tail (i : Nat) : byteAt (params ++ [flags, hi, lo]) (4 + i) = byteAt [flags, hi, lo] i := by
    rw [← length]
    exact byteAt_append_right params _ i
  have flag : byteAt (params ++ [flags, hi, lo]) 4 = flags := tail 0
  have timeout : half (params ++ [flags, hi, lo]) (4 + 1) = hi ++ lo := by
    rw [half, tail 1, Nat.add_assoc 4, tail 2]
    rfl
  have read := readMessage_of_longer tag code 4#8 (params ++ [flags, hi, lo]) (by simp [length])
  rwa [show (4#8 : Byte).toNat = 4 from rfl, List.take_left' length, timeout, flag] at read

/-- R149: what a MOVE_GROUP without a condition part asks for has none. -/
theorem readMoveGroup_plain {params : List Byte} {mask : Half} {req : MoveReq}
    (read : readCommand .moveGroup params none = .ok (.moveGroup mask req)) : req.cond = none := by
  obtain ⟨_, -, read⟩ := except_bind_eq_ok.mp read
  obtain ⟨target, -, read⟩ := except_bind_eq_ok.mp read
  obtain ⟨_, -, read⟩ := except_bind_eq_ok.mp read
  cases read
  rfl

/-- R129, R149: a condition part in range is read behind the same mask and request. -/
theorem readMoveGroup_conditioned {params : List Byte} {mask : Half} {req : MoveReq}
    (read : readCommand .moveGroup params none = .ok (.moveGroup mask req)) {flags : Byte} (inRange : flags.toNat < 16)
    (timeout : Half) : readCommand .moveGroup params (some (flags, timeout)) =
      .ok (.moveGroup mask { req with cond := some (readCond flags timeout) }) := by
  obtain ⟨_, nonzero, read⟩ := except_bind_eq_ok.mp read
  obtain ⟨target, named, read⟩ := except_bind_eq_ok.mp read
  obtain ⟨_, forced, read⟩ := except_bind_eq_ok.mp read
  cases read
  have part : readCondPart (some (flags, timeout)) = .ok (some (readCond flags timeout)) :=
    except_bind_eq_ok.mpr ⟨(), if_pos ((high_nibble_zero_iff flags).mpr (Nat.lt_succ_iff.mp inRange)), rfl⟩
  exact except_bind_eq_ok.mpr ⟨_, nonzero, except_bind_eq_ok.mpr ⟨target, named, except_bind_eq_ok.mpr ⟨_, forced,
    except_bind_eq_ok.mpr ⟨_, part, rfl⟩⟩⟩⟩

/-- A MOVE_GROUP without a condition part or with one, by what its parameters ask for. -/
inductive Asks (params : List Byte) (req : MoveReq) : List Byte → MoveReq → Prop where
  | plain : Asks params req (4#8 :: params) req
  | conditioned (flags hi lo : Byte) (inRange : flags.toNat < 16) :
      Asks params req (4#8 :: (params ++ [flags, hi, lo])) { req with cond := some (readCond flags (hi ++ lo)) }

section
variable {r : Rig} {tag : Byte} {params body : List Byte} {mask : Half} {req asked : MoveReq} {s : State}
  (can : canTake s.toPart r tag) (length : params.length = 4)
  (read : readCommand .moveGroup params none = .ok (.moveGroup mask req)) (asks : Asks params req body asked)
include can length read asks

/-- R127, R139: every MOVE_GROUP in range is taken. -/
theorem exec_moveGroup : exec (.moveGroup r tag body) s = .next (s.withPart
    (takeMove r s.nextId mask asked (occupy r false (tag :: Code.moveGroup.byte :: body) s.toPart))) := by
  have accepted : Code.moveGroup.lengthOk params = true := beq_iff_eq.mpr length
  have code : readCode (byteAt (tag :: Code.moveGroup.byte :: body) 1) = some .moveGroup := readCode_byte .moveGroup
  have row : exec (.moveGroup r tag body) s = takeMessage r tag Code.moveGroup.byte body s := rfl
  cases asks with
  | plain =>
    have message := readMessage_plain tag Code.moveGroup.byte 4#8 params length.symm
    rw [row, takeMessage_eq s r tag _ _ can (List.cons_ne_nil _ _),
      judge_performs code message accepted nofun rfl rfl read]
    rfl
  | conditioned flags hi lo inRange =>
    have message := readMessage_conditioned tag Code.moveGroup.byte flags hi lo length
    rw [row, takeMessage_eq s r tag _ _ can (List.cons_ne_nil _ _),
      judge_performs code message accepted (fun _ => rfl) rfl rfl (readMoveGroup_conditioned read inRange _)]
    rfl
end

/-! ## The taking (R119, R149 to R151; log 18) -/

/-- The slot that a command takes is nothing to the checks. -/
theorem occupy_judged (r : Rig) (reserved : Bool) (msg : List Byte) (s : Part) : JudgedAlike s (occupy r reserved msg s) :=
  ⟨rfl, rfl, rfl, rfl, fun _ => rfl⟩

/-- R119: the groups of a mask that a partner leads. -/
theorem ledMask_eq {s : Part} {mask led : Half}
    (h : ∀ g, inMask led g = true ↔ inMask mask g = true ∧ isLed s g = true) : ledMask s mask = led := by
  refine (eq_maskOf led _ fun g => Bool.eq_iff_iff.mpr ?_).symm
  rw [Bool.and_eq_true]
  exact h g

/-- R119: the lowest free ref. -/
theorem freeRef_lowest {s : Part} {ref : Fin 8} (h : freeRef s = some ref) : (s.gang.records.get ref).awaiting = false ∧
    ∀ k, k < ref → (s.gang.records.get k).awaiting = true := by
  have lowest := find?_finRange_eq_some.mp h
  simpa only [Bool.not_eq_true', Bool.not_eq_false'] using lowest

/-- R149, R151: the checks at the taking, without a condition part and with one. -/
theorem checkTaking_plain {s : Part} {mask : Half} {req : MoveReq} (plain : req.cond = none) :
    checkTaking s mask req = checkAll s mask req := by rw [checkTaking, plain]

section
variable {r : Rig} {id : Nat} {mask led : Half} {req : MoveReq} {s : Part} (parts : ledMask s mask = led)
include parts

/-- Log 18: a check that the local part fails ends the command. -/
theorem takeMove_fails {st : Status} {g : Fin 16} (fails : checkTaking s (mask &&& ~~~led) req = some (st, g)) :
    takeMove r id mask req s = respond r id st 0 (be8 g.val) s := by
  subst parts
  simp only [takeMove, fails]

variable (passes : checkTaking s (mask &&& ~~~led) req = none)
include passes

/-- R150, R151: a command none of whose groups are led is held, or waits. -/
theorem takeMove_local (unled : led = 0#16) : takeMove r id mask req s =
    setPhase r id (.move ⟨req, some ⟨mask, startStage req⟩, .none, .none⟩) s := by
  subst unled
  simp only [takeMove, parts, passes, if_true, holdMove]
  rfl

/-- R119: with no free ref the command ends. -/
theorem takeMove_full (someLed : led ≠ 0#16) (full : freeRef s = none) :
    takeMove r id mask req s = respond r id .busy 0 [0xFF#8] s := by
  subst parts
  simp only [takeMove, passes, if_neg someLed, full]

/-- R119: the led groups are proposed under the lowest free ref. -/
theorem takeMove_proposed (someLed : led ≠ 0#16) {ref : Fin 8} (free : freeRef s = some ref) : takeMove r id mask req s =
    setPhase r id (.move ⟨req, if mask &&& ~~~led = 0#16 then .none else some ⟨mask &&& ~~~led, startStage req⟩,
      some ⟨led, .proposed ref⟩, .none⟩) (propose r id ref led req s) := by
  subst parts
  simp only [takeMove, passes, if_neg someLed, free, holdMove]
  rfl
end

section
variable {r : Rig} {tag : Byte} (body : List Byte) {s : Part} (young : ∀ h ∈ (s.port.get r).slots, h.id < s.nextId)
include young

theorem respond_moveGroup (st : Status) (named : List Byte) :
    respond r s.nextId st 0 named (occupy r false (tag :: Code.moveGroup.byte :: body) s) =
      answeredAs s r tag 0x40#8 st 0 named :=
  respond_taken s r tag 0x40#8 _ st 0 named young rfl rfl

theorem setPhase_moveGroup (ph : Phase) : setPhase r s.nextId ph (occupy r false (tag :: Code.moveGroup.byte :: body) s) =
    heldAs s r tag 0x40#8 ph :=
  setPhase_taken s r tag 0x40#8 _ ph young rfl rfl
end

/-! ## The obligation -/

/-- R149, R151: the two forms of a MOVE_GROUP, with the checks of each and the stage where its parts start. -/
theorem asks_of_form {params body : List Byte} {req asked : MoveReq} {mask checked : Half}
    {check : Option (Status × Fin 16)} {start : Stage} {s : Part}
    (read : readCommand .moveGroup params none = .ok (.moveGroup mask req))
    (form : (body = 4#8 :: params ∧ asked = req ∧ check = checkAll s checked req ∧ start = .held) ∨
      (∃ (flags hi lo : Byte) (c : Cond), flags.toNat < 16 ∧ c = readCond flags (hi ++ lo) ∧
        body = 4#8 :: (params ++ [flags, hi, lo]) ∧ asked = { req with cond := some c } ∧
        check = checkAB s checked req ∧ start = .waiting 0)) :
    Asks params req body asked ∧ checkTaking s checked asked = check ∧ startStage asked = start ∧
      asked.target = req.target ∧ asked.force = req.force := by
  obtain ⟨rfl, rfl, rfl, rfl⟩ | ⟨flags, hi, lo, c, inRange, rfl, rfl, rfl, rfl, rfl⟩ := form
  · have plain := readMoveGroup_plain read
    exact ⟨.plain, checkTaking_plain plain, by rw [startStage_eq, if_pos plain], rfl, rfl⟩
  · exact ⟨.conditioned flags hi lo inRange, rfl, rfl, rfl, rfl⟩

/-- What a PROPOSE made for a command says of it and of its record (R119). -/
theorem propose_records (r : Rig) (id : Nat) (ref : Fin 8) (mask : Half) (req : MoveReq) (s : Part) :
    (propose r id ref mask req s).gang.records.get ref = ⟨true, !(s.gang.records.get ref).round, some (r, id), none,
      some ⟨ref.castLE (by omega), !(s.gang.records.get ref).round, mask, req.target, req.force, req.cond⟩⟩ :=
  Tbl.get_set_self ..

theorem propose_queued (r : Rig) (id : Nat) (ref : Fin 8) (mask : Half) (req : MoveReq) (s : Part) :
    (propose r id ref mask req s).gang.proposes.getLast? = some ⟨ref.castLE (by omega),
      !(s.gang.records.get ref).round, mask, req.target, req.force, req.cond⟩ :=
  List.getLast?_concat ..

/-- Settles O42. -/
theorem moveGroupIsTaken : Obligations.MoveGroupIsTaken := by
  refine ⟨?_, fun s mask req order listed => ?_⟩
  · intro r tag params body mask led req asked check start s can length read leads form
    obtain ⟨asks, checks, starts, target, force⟩ := asks_of_form read form
    have ⟨_, _, _, young⟩ := can
    have judged := occupy_judged r false (tag :: Code.moveGroup.byte :: body) s.toPart
    have parts : ledMask (occupy r false (tag :: Code.moveGroup.byte :: body) s.toPart) mask = led := ledMask_eq leads
    rw [exec_moveGroup can length read asks]
    rw [← judged.checkTaking] at checks
    refine ⟨fun st g fails => ?_, fun passes => ⟨fun unled => ?_, fun someLed full => ?_, fun ref someLed free => ?_⟩⟩
    · rw [takeMove_fails parts (checks.trans fails), respond_moveGroup body young]
      rfl
    · rw [takeMove_local parts (checks.trans passes) unled, starts, setPhase_moveGroup body young]
    · rw [takeMove_full parts (checks.trans passes) someLed full, respond_moveGroup body young]
    · obtain ⟨isFree, lower⟩ := freeRef_lowest free
      have held := setPhase_moveGroup (s := propose r s.nextId ref led asked s.toPart) (tag := tag) body young
      rw [(takeMove_proposed (id := s.nextId) parts (checks.trans passes) someLed free).trans (held _), starts]
      have proposed := propose_records r s.nextId ref led asked s.toPart
      have queued := propose_queued r s.nextId ref led asked s.toPart
      refine ⟨_, rfl, rfl, isFree, lower, ?_, ?_, ?_, _, queued, rfl,
        rfl, rfl, target, force, rfl⟩
      · exact congrArg PropRecord.awaiting proposed
      · exact congrArg PropRecord.round proposed
      · exact congrArg PropRecord.serves proposed
  · subst listed
    exact ⟨checkAll_none_iff s mask req, fun st g => ⟨checkAll_some_iff s mask req st g, checkAB_some_iff s mask req st g,
      checkCDE_of_passes s mask req⟩⟩

end Sys2Proof.Machine
end

section
/-! The ref of a cancelled command (R119, log 51). -/

namespace Sys2Proof.Machine

/-! ## A ref and the queue of PROPOSEs -/

/-- Every record of a ref holds a PROPOSE of that ref. -/
def MessagesNamed (a : Gang) : Prop := ∀ (j : Fin 8) p, (a.records.get j).message = some p → p.ref.val = j.val

/-- A ref's record and the PROPOSEs queued for it are as they were. -/
structure RefKept (k : Fin 8) (a b : Gang) : Prop where
  record : b.records.get k = a.records.get k
  queued : ∀ x : ProposeMsg, x.ref.val = k.val → (x ∈ b.proposes ↔ x ∈ a.proposes)

/-- R119, log 51: a ref is free when its PROPOSE was never sent, and awaits the answer to a withdrawal when it was. -/
structure RefWithdrawn (k : Fin 8) (a b : Gang) : Prop where
  unsent : (a.records.get k).sentAt = none → (b.records.get k).awaiting = false ∧ (b.records.get k).serves = none ∧
    (b.records.get k).round = (a.records.get k).round ∧ ∀ x ∈ b.proposes, x.ref.val ≠ k.val
  sent : ∀ sent p p', (a.records.get k).sentAt = some sent → (a.records.get k).message = some p →
    p' = { p with round := !(a.records.get k).round, mask := 0#16 } →
    b.records.get k = ⟨true, !(a.records.get k).round, none, none, some p'⟩ ∧
      p' ∈ b.proposes ∧ ∀ x ∈ b.proposes, x.ref.val = k.val → x = p'

section
variable {k : Fin 8} {a b c : Gang}

theorem RefKept.refl (k : Fin 8) (a : Gang) : RefKept k a a := ⟨rfl, fun _ _ => .rfl⟩

theorem RefKept.trans (h : RefKept k a b) (l : RefKept k b c) : RefKept k a c :=
  ⟨l.record.trans h.record, fun x own => (l.queued x own).trans (h.queued x own)⟩

theorem RefKept.withdrawn (h : RefKept k a b) (l : RefWithdrawn k b c) : RefWithdrawn k a c := by
  refine ⟨?_, ?_⟩ <;> rw [← h.record]
  · exact l.unsent
  · exact l.sent

theorem RefWithdrawn.kept (h : RefWithdrawn k a b) (named : MessagesNamed a) (l : RefKept k b c) : RefWithdrawn k a c := by
  refine ⟨fun fresh => ?_, fun sent p p' sentAt message eq => ?_⟩ <;> rw [l.record]
  · obtain ⟨free, serves, round, none⟩ := h.unsent fresh
    exact ⟨free, serves, round, fun x mem own => none x ((l.queued x own).mp mem) own⟩
  · obtain ⟨record, queued, only⟩ := h.sent sent p p' sentAt message eq
    have own : p'.ref.val = k.val := eq ▸ named k p message
    exact ⟨record, (l.queued p' own).mpr queued, fun x mem own => only x ((l.queued x own).mp mem) own⟩
end

/-! ## The withdrawal -/

/-- The PROPOSE that withdraws one that was sent (log 51). -/
def withdrawal (c : PropRecord) : Option ProposeMsg :=
  match c.sentAt, c.message with
  | some _, some p => some { p with round := !c.round, mask := 0#16 }
  | none, _ | some _, none => none

/-- The record of a ref whose command is cancelled. -/
def withdrawnRecord (c : PropRecord) : PropRecord :=
  match withdrawal c with
  | some p => ⟨true, !c.round, none, none, some p⟩
  | none => { c with awaiting := false, serves := none, sentAt := none, message := none }

/-- The Gang Engine once the command of a ref is cancelled. -/
def withdrawnGang (k : Fin 8) (a : Gang) : Gang :=
  { a with
    records := a.records.set k (withdrawnRecord (a.records.get k))
    proposes := a.proposes.filter (fun x => x.ref != k.castLE (by omega)) ++ (withdrawal (a.records.get k)).toList }

theorem withdraw_gang (k : Fin 8) (s : Part) : (withdraw k s).gang = withdrawnGang k s.gang := by
  unfold withdraw withdrawnGang withdrawnRecord withdrawal
  dsimp only
  split <;> simp [*]

theorem withdrawal_unsent {c : PropRecord} (fresh : c.sentAt = none) : withdrawal c = none := by
  rw [withdrawal, fresh]

theorem withdrawal_sent {c : PropRecord} {sent : Word} {p : ProposeMsg} (sentAt : c.sentAt = some sent)
    (message : c.message = some p) : withdrawal c = some { p with round := !c.round, mask := 0#16 } := by
  rw [withdrawal, sentAt, message]

/-- A withdrawal is of the same ref as what it withdraws. -/
theorem withdrawal_ref {c : PropRecord} {p' : ProposeMsg} (made : withdrawal c = some p') :
    ∃ p, c.message = some p ∧ p'.ref = p.ref := by
  unfold withdrawal at made
  split at made
  next p _ message =>
    cases made
    exact ⟨p, message, rfl⟩
  next => cases made
  next => cases made

theorem ref_ne_castLE (x : ProposeMsg) (k : Fin 8) : (x.ref != k.castLE (by omega)) = true ↔ x.ref.val ≠ k.val := by
  rw [bne_iff_ne, ne_eq, Fin.ext_iff, Fin.val_castLE]

theorem mem_withdrawnGang {x : ProposeMsg} {k : Fin 8} {a : Gang} : x ∈ (withdrawnGang k a).proposes ↔
    (x ∈ a.proposes ∧ x.ref.val ≠ k.val) ∨ withdrawal (a.records.get k) = some x := by
  simp only [withdrawnGang, List.mem_append, List.mem_filter, ref_ne_castLE, Option.mem_toList]

section
variable {a : Gang} (named : MessagesNamed a) (j : Fin 8)
include named

theorem withdrawal_named {x : ProposeMsg} (made : withdrawal (a.records.get j) = some x) : x.ref.val = j.val := by
  obtain ⟨p, message, ref⟩ := withdrawal_ref made
  rw [ref]
  exact named j p message

theorem withdrawnGang_named : MessagesNamed (withdrawnGang j a) := by
  intro i p message
  rw [withdrawnGang, Tbl.get_set] at message
  by_cases own : i = j
  · rw [if_pos own, withdrawnRecord] at message
    split at message
    next p' made =>
      cases message
      rw [own]
      exact withdrawal_named named j made
    next => cases message
  · rw [if_neg own] at message
    exact named i p message

/-- A withdrawal is nothing to the other refs. -/
theorem withdrawnGang_kept {k : Fin 8} (other : j ≠ k) : RefKept k a (withdrawnGang j a) := by
  refine ⟨Tbl.get_set_other _ _ other.symm, fun x own => ?_⟩
  have apart : x.ref.val ≠ j.val := fun e => other (Fin.ext (e.symm.trans own))
  rw [mem_withdrawnGang]
  constructor
  · rintro (⟨mem, -⟩ | made)
    · exact mem
    · exact absurd (withdrawal_named named j made) apart
  · exact fun mem => .inl ⟨mem, apart⟩

end

/-- R119, log 51. -/
theorem withdrawnGang_withdrawn (k : Fin 8) (a : Gang) : RefWithdrawn k a (withdrawnGang k a) := by
  have record : (withdrawnGang k a).records.get k = withdrawnRecord (a.records.get k) := Tbl.get_set_self ..
  refine ⟨fun fresh => ?_, fun sent p p' sentAt message eq => ?_⟩
  · have none := withdrawal_unsent fresh
    rw [record, withdrawnRecord, none]
    refine ⟨rfl, rfl, rfl, fun x mem => ?_⟩
    obtain ⟨-, apart⟩ | made := mem_withdrawnGang.mp mem
    · exact apart
    · exact absurd (none.symm.trans made) nofun
  · have made := withdrawal_sent sentAt message
    rw [← eq] at made
    rw [record, withdrawnRecord, made]
    refine ⟨rfl, mem_withdrawnGang.mpr (.inr made), fun x mem own => ?_⟩
    obtain ⟨-, apart⟩ | of := mem_withdrawnGang.mp mem
    · exact absurd own apart
    · exact Option.some.inj (of.symm.trans made)

end Sys2Proof.Machine
end

section
/-! CANCEL (R119, R155, R156; log 17 and 51). -/

namespace Sys2Proof.Machine

/-! ## The slots of a port -/

/-- Where the commands of a port have different numbers, a number finds its command. -/
theorem find_of_mem {p : Port} (apart : (p.slots.map fun h => h.id).Nodup) {h : Held} (mem : h ∈ p.slots) :
    p.find h.id = some h := by
  unfold Port.find
  generalize p.slots = l at apart mem ⊢
  induction l with
  | nil => cases mem
  | cons x l ih =>
    rw [List.map_cons, List.nodup_cons] at apart
    obtain ⟨fresh, apart⟩ := apart
    obtain rfl | mem := List.mem_cons.mp mem
    · exact List.find?_cons_of_pos (beq_self_eq_true _)
    · have other : x.id ≠ h.id := fun e => fresh (List.mem_map.mpr ⟨h, mem, e.symm⟩)
      simpa [List.find?_cons, other] using ih apart mem

theorem Port.mem_respond {p : Port} {x : Held} (mem : x ∈ p.slots) {id : Nat} (spared : x.id ≠ id ∨ x.phase = .done)
    (st : Status) (i : Nat) (results : List Byte) : x ∈ (p.respond id st i results).slots := by
  have stays : (if x.id == id then { x with phase := .done } else x) = x := by
    obtain other | isDone := spared
    · exact if_neg (mt beq_iff_eq.mp other)
    · rw [← isDone, ite_self]
  unfold Port.respond
  split
  · exact mem
  · split
    · exact mem
    · exact List.mem_map.mpr ⟨x, mem, stays⟩

/-! ## One cancelled command -/

/-- The ref under which a held command waits for the leader. -/
def heldRef (h : Held) : Option (Fin 8) :=
  match h.phase with
  | .move ⟨_, _, some ⟨_, .proposed k⟩, _⟩ => some k
  | _ => none

theorem heldRef_eq_some {h : Held} {k : Fin 8} :
    heldRef h = some k ↔ ∃ m mask, h.phase = .move m ∧ m.gang = some ⟨mask, .proposed k⟩ := by
  unfold heldRef
  split
  next phase =>
    rw [phase]
    simp only [Option.some.injEq]
    exact ⟨fun e => ⟨_, _, rfl, by rw [e]⟩, fun ⟨m, mask, e, gang⟩ => by cases e; cases gang; rfl⟩
  next other => exact ⟨nofun, fun ⟨m, mask, e, gang⟩ => by
      obtain ⟨_, _, _, _⟩ := m
      cases gang
      exact absurd e (other _ _ _ _ _)⟩

/-- The Gang Engine once a held command is cancelled. -/
def cancelledGang (h : Held) (a : Gang) : Gang :=
  match heldRef h with
  | some k => withdrawnGang k a
  | none => a

/-- R155: a held command of a port has completed with CANCELLED. -/
structure Cancels (r : Rig) (h : Held) (s t : Part) : Prop where
  found : (s.port.get r).find h.id = some h
  undone : h.phase ≠ .done
  port : t.port.get r = (s.port.get r).respond h.id .cancelled 0 []
  writes : t.writes = s.writes.filter fun w => !(h.phase == .pendingWrite && w.owner == some (r, h.id))
  bound : ∀ g o, (t.groups.get g).binding = some o → (s.groups.get g).binding = some o
  unbound : ∀ m, h.phase = .move m → ∀ g b, (t.groups.get g).binding ≠ some (.command r h.id b)
  gang : t.gang = cancelledGang h s.gang

theorem unbind_bound {p o : Owner} {s : Part} {g : Fin 16} (h : ((unbind p s).groups.get g).binding = some o) :
    (s.groups.get g).binding = some o := by
  rw [unbind_binding] at h
  split at h
  · cases h
  · exact h

theorem withdrawPart_gang {m : MoveCmd} {h : Held} (phase : h.phase = .move m) (s : Part) :
    (withdrawPart m.gang s).gang = cancelledGang h s.gang := by
  rw [cancelledGang, heldRef, phase]
  obtain ⟨req, own, gang, first⟩ := m
  cases gang with
  | none => rfl
  | some part =>
    obtain ⟨mask, stage⟩ := part
    cases stage with
    | proposed k => exact withdraw_gang k s
    | _ => rfl

/-- R155, R156: a CANCEL completes a held command. -/
theorem cancelOne_cancels {r : Rig} {h : Held} {s : Part} (found : (s.port.get r).find h.id = some h)
    (cancellable : h.phase = .pendingWrite ∨ ∃ m, h.phase = .move m) : Cancels r h s (cancelOne r h.id s) := by
  obtain pending | ⟨m, moving⟩ := cancellable
  · have step : cancelOne r h.id s = respond r h.id .cancelled 0 []
        { s with writes := s.writes.filter fun w => w.owner != some (r, h.id) } := by
      simp only [cancelOne, found, pending]
    rw [step]
    have none : heldRef h = none := by rw [heldRef, pending]
    refine ⟨found, by rw [pending]; nofun, ?_, ?_, fun _ _ => id, ?_, ?_⟩
    · exact (respond_port ..).trans (if_pos rfl)
    · rw [pending]
      rfl
    · exact fun m e => absurd (pending.symm.trans e) nofun
    · rw [cancelledGang, none]
      rfl
  · have step : cancelOne r h.id s = respond r h.id .cancelled 0 [] (withdrawPart m.gang
        (unbind (.command r h.id true) (unbind (.command r h.id false) s))) := by
      simp only [cancelOne, found, moving]
    rw [step]
    have same := withdrawPart_same m.gang (unbind (.command r h.id true) (unbind (.command r h.id false) s))
    have groups := same.get .groups rfl
    refine ⟨found, by rw [moving]; nofun, ?_, ?_, ?_, ?_, ?_⟩
    · refine (respond_port ..).trans ((if_pos rfl).trans ?_)
      rw [show _ = _ from same.get .port rfl]
      rfl
    · rw [moving]
      exact (same.get .writes rfl).trans (List.filter_eq_self.mpr fun _ _ => rfl).symm
    · intro g o bound
      rw [show (respond ..).groups = _ from groups] at bound
      exact unbind_bound (unbind_bound bound)
    · intro _ _ g b bound
      rw [show (respond ..).groups = _ from groups] at bound
      cases b with
      | true => exact unbind_free _ _ g bound
      | false => exact unbind_free _ _ g (unbind_bound bound)
    · exact withdrawPart_gang moving _

section
variable {r : Rig} {h : Held} {s t : Part} (c : Cancels r h s t)
include c

theorem Cancels.find_other {i : Nat} (other : i ≠ h.id) : (t.port.get r).find i = (s.port.get r).find i := by
  rw [c.port, Port.respond_find _ _ _ _ _ other]

theorem Cancels.slot {x : Held} (mem : x ∈ (s.port.get r).slots) (spared : x.id ≠ h.id ∨ x.phase = .done) :
    x ∈ (t.port.get r).slots := by
  rw [c.port]
  exact Port.mem_respond mem spared _ _ _

theorem Cancels.completed : { h with phase := .done } ∈ (t.port.get r).slots := by
  have found := Port.find_respond _ c.found c.undone .cancelled 0 []
  rw [← c.port] at found
  exact List.mem_of_find?_eq_some found

theorem Cancels.response : ⟨h.id, h.tag, h.code, .cancelled, 0, []⟩ ∈ (t.port.get r).responses := by
  rw [c.port, Port.respond_responses _ _ _ _ _ c.found c.undone]
  exact List.mem_append_right _ List.mem_cons_self

theorem Cancels.grows : (s.port.get r).responses <+: (t.port.get r).responses := by
  rw [c.port]
  exact Port.respond_grows ..

theorem Cancels.named (named : MessagesNamed s.gang) : MessagesNamed t.gang := by
  rw [c.gang, cancelledGang]
  split
  · exact withdrawnGang_named named _
  · exact named

theorem Cancels.kept (named : MessagesNamed s.gang) {k : Fin 8} (other : heldRef h ≠ some k) :
    RefKept k s.gang t.gang := by
  rw [c.gang, cancelledGang]
  split
  next j ref => exact withdrawnGang_kept named j fun e => other (ref.trans (congrArg some e))
  next => exact .refl k _

theorem Cancels.withdrawn {k : Fin 8} (own : heldRef h = some k) : RefWithdrawn k s.gang t.gang := by
  rw [c.gang, cancelledGang, own]
  exact withdrawnGang_withdrawn k s.gang
end

/-! ## The cancelled commands in their order -/

/-- R155: commands of a port have completed with CANCELLED, one after the other. -/
inductive CancelsAll (r : Rig) : List Held → Part → Part → Prop where
  | nil (s : Part) : CancelsAll r [] s s
  | cons {h : Held} {hs : List Held} {s t u : Part} (step : Cancels r h s t) (rest : CancelsAll r hs t u) :
      CancelsAll r (h :: hs) s u

theorem cancelOnes_cancelAll {r : Rig} {hs : List Held} (apart : (hs.map fun h => h.id).Nodup) {s : Part}
    (found : ∀ h ∈ hs, (s.port.get r).find h.id = some h)
    (cancellable : ∀ h ∈ hs, h.phase = .pendingWrite ∨ ∃ m, h.phase = .move m) :
    CancelsAll r hs s ((hs.map fun h => h.id).foldl (fun t i => cancelOne r i t) s) := by
  induction hs generalizing s with
  | nil => exact .nil s
  | cons h hs ih =>
    obtain ⟨foundHead, found⟩ := List.forall_mem_cons.mp found
    obtain ⟨head, cancellable⟩ := List.forall_mem_cons.mp cancellable
    obtain ⟨fresh, apart⟩ := List.nodup_cons.mp apart
    have step := cancelOne_cancels foundHead head
    refine .cons step (ih apart (fun x mem => ?_) cancellable)
    have other : x.id ≠ h.id := fun e => fresh (List.mem_map.mpr ⟨x, mem, e⟩)
    rw [step.find_other other]
    exact found x mem

/-- The commands before one, the command, and those after it. -/
theorem CancelsAll.split {r : Rig} {before after : List Held} {h : Held} {s u : Part}
    (c : CancelsAll r (before ++ h :: after) s u) :
    ∃ a b, CancelsAll r before s a ∧ Cancels r h a b ∧ CancelsAll r after b u := by
  induction before generalizing s with
  | nil =>
    obtain _ | ⟨step, rest⟩ := c
    exact ⟨_, _, .nil _, step, rest⟩
  | cons x before ih =>
    obtain _ | ⟨step, rest⟩ := c
    obtain ⟨a, b, early, own, late⟩ := ih rest
    exact ⟨a, b, .cons step early, own, late⟩

section
variable {r : Rig} {hs : List Held} {s t : Part} (c : CancelsAll r hs s t)
include c

theorem CancelsAll.find_other {i : Nat} (other : ∀ h ∈ hs, i ≠ h.id) :
    (t.port.get r).find i = (s.port.get r).find i := by
  induction c with
  | nil => rfl
  | cons step _ ih =>
    obtain ⟨head, other⟩ := List.forall_mem_cons.mp other
    exact (ih other).trans (step.find_other head)

theorem CancelsAll.slot {x : Held} (mem : x ∈ (s.port.get r).slots)
    (spared : (∀ h ∈ hs, x.id ≠ h.id) ∨ x.phase = .done) : x ∈ (t.port.get r).slots := by
  induction c with
  | nil => exact mem
  | cons step _ ih =>
    rw [List.forall_mem_cons] at spared
    exact ih (step.slot mem (spared.imp_left And.left)) (spared.imp_left And.right)

theorem CancelsAll.grows : (s.port.get r).responses <+: (t.port.get r).responses := by
  induction c with
  | nil => exact List.prefix_rfl
  | cons step _ ih => exact step.grows.trans ih

/-- R156: the writes that stay in the queue, in their places. -/
theorem CancelsAll.writes : t.writes =
    s.writes.filter fun w => !hs.any fun h => h.phase == .pendingWrite && w.owner == some (r, h.id) := by
  induction c with
  | nil => exact (List.filter_eq_self.mpr fun _ _ => rfl).symm
  | cons step _ ih =>
    rw [ih, step.writes, List.filter_filter]
    refine List.filter_congr fun w _ => ?_
    rw [List.any_cons, Bool.not_or, Bool.and_comm]

theorem CancelsAll.bound {g : Fin 16} {o : Owner} (h : (t.groups.get g).binding = some o) :
    (s.groups.get g).binding = some o := by
  induction c with
  | nil => exact h
  | cons step _ ih => exact step.bound g o (ih h)

theorem CancelsAll.named (named : MessagesNamed s.gang) : MessagesNamed t.gang := by
  induction c with
  | nil => exact named
  | cons step _ ih => exact ih (step.named named)

theorem CancelsAll.kept (named : MessagesNamed s.gang) {k : Fin 8} (other : ∀ h ∈ hs, heldRef h ≠ some k) :
    RefKept k s.gang t.gang := by
  induction c with
  | nil => exact .refl k _
  | cons step _ ih =>
    obtain ⟨head, other⟩ := List.forall_mem_cons.mp other
    exact (step.kept named head).trans (ih (step.named named) other)

/-- R119, log 51: the ref of a cancelled command that no other cancelled command waits under. -/
theorem CancelsAll.withdrawn (apart : (hs.map fun h => h.id).Nodup) (named : MessagesNamed s.gang) {h : Held}
    (mem : h ∈ hs) {k : Fin 8} (own : heldRef h = some k) (only : ∀ x ∈ hs, heldRef x = some k → x.id = h.id) :
    RefWithdrawn k s.gang t.gang := by
  obtain ⟨before, after, rfl⟩ := List.append_of_mem mem
  obtain ⟨a, b, early, step, late⟩ := c.split
  rw [List.map_append, List.map_cons, List.nodup_middle, List.nodup_cons, List.mem_append, not_or] at apart
  obtain ⟨⟨notBefore, notAfter⟩, -⟩ := apart
  have othersBefore : ∀ x ∈ before, heldRef x ≠ some k := fun x mem ref =>
    notBefore (List.mem_map.mpr ⟨x, mem, only x (List.mem_append_left _ mem) ref⟩)
  have othersAfter : ∀ x ∈ after, heldRef x ≠ some k := fun x mem ref =>
    notAfter (List.mem_map.mpr ⟨x, mem, only x (List.mem_append_right _ (List.mem_cons_of_mem _ mem)) ref⟩)
  have namedBefore := early.named named
  have withdrawn := (step.withdrawn own).kept namedBefore (late.kept (step.named namedBefore) othersAfter)
  exact (early.kept named othersBefore).withdrawn withdrawn
end

/-- R155, R156: what has become of a cancelled command. -/
theorem CancelsAll.cancelled {r : Rig} {hs : List Held} {s t : Part} (c : CancelsAll r hs s t) {h : Held} (mem : h ∈ hs) :
    { h with phase := .done } ∈ (t.port.get r).slots ∧
      ⟨h.id, h.tag, h.code, .cancelled, 0, []⟩ ∈ (t.port.get r).responses ∧
      ∀ m, h.phase = .move m → ∀ g b, (t.groups.get g).binding ≠ some (.command r h.id b) := by
  obtain ⟨before, after, rfl⟩ := List.append_of_mem mem
  obtain ⟨a, b, -, step, late⟩ := c.split
  exact ⟨late.slot step.completed (.inr rfl), late.grows.subset step.response,
    fun m moving g b bound => step.unbound m moving g b (late.bound bound)⟩

end Sys2Proof.Machine
end

section
/-! A CANCEL as it is taken (R155, R156). -/

namespace Sys2Proof.Machine

/-! ## The scopes (R155) -/

/-- The scope that the two parameters name, and what it selects. -/
theorem scope_of_form {scope named : Byte} {selected : Held → Bool}
    (form : (scope = 0#8 ∧ named ≠ 0xFF#8 ∧ selected = fun h => h.tag == named &&
        match h.phase with
        | .pendingWrite | .move _ => true
        | .taken | .saving | .done => false) ∨
      (scope = 1#8 ∧ selected = fun h =>
        match h.phase with
        | .move m => !m.executed
        | .pendingWrite | .taken | .saving | .done => false) ∨
      (scope = 2#8 ∧ selected = fun h =>
        match h.phase with
        | .pendingWrite | .move _ => true
        | .taken | .saving | .done => false)) :
    ∃ sc : Scope, readCommand .cancel [scope, named] none = .ok (.cancel sc) ∧ ∀ h, sc.selects h = selected h := by
  obtain ⟨rfl, given, rfl⟩ | ⟨rfl, rfl⟩ | ⟨rfl, rfl⟩ := form
  · refine ⟨.tag named, except_bind_eq_ok.mpr ⟨(), if_pos (bne_iff_ne.mpr given), rfl⟩, fun h => ?_⟩
    cases phase : h.phase <;> simp [Scope.selects, phase]
  · exact ⟨.waiting, rfl, fun h => by cases phase : h.phase <;> simp [Scope.selects, phase]⟩
  · exact ⟨.all, rfl, fun h => by cases phase : h.phase <;> simp [Scope.selects, phase]⟩

/-- R155: only pending writes and moves are selected. -/
theorem cancellable_of_selects {sc : Scope} {h : Held} (selected : sc.selects h = true) :
    h.phase = .pendingWrite ∨ ∃ m, h.phase = .move m := by
  cases phase : h.phase with
  | pendingWrite => exact .inl rfl
  | move m => exact .inr ⟨m, rfl⟩
  | taken => simp [Scope.selects, phase] at selected
  | saving => simp [Scope.selects, phase] at selected
  | done => simp [Scope.selects, phase] at selected

/-- Log 17: a command without a proposed part has executed once its own part has. -/
theorem executed_own_iff {m : MoveCmd} {mask : Half} {st : Stage} (own : m.own = some ⟨mask, st⟩) (gang : m.gang = none)
    (first : m.first = none) :
    m.executed = true ↔ (∃ bound frame, st = .executed bound frame) ∨ ∃ results, st = .ended results := by
  rw [MoveCmd.executed, own, gang, first]
  cases st <;> simp [partExecuted]

/-! ## The taking -/

/-- The slot of a CANCEL just taken. -/
def cancelSlot (s : Part) (tag : Byte) : Held := ⟨s.nextId, tag, Code.cancel.byte, false, .taken⟩

/-- The part in which a CANCEL is carried out. -/
def cancelling (r : Rig) (tag scope named : Byte) (s : Part) : Part :=
  occupy r false [tag, Code.cancel.byte, 2#8, scope, named] s

theorem cancelling_slots (r : Rig) (tag scope named : Byte) (s : Part) :
    ((cancelling r tag scope named s).port.get r).slots = (s.port.get r).slots ++ [cancelSlot s tag] :=
  congrArg Port.slots (PerRig.get_set_self ..)

theorem mem_cancelling {r : Rig} {s : Part} {h : Held} (mem : h ∈ (s.port.get r).slots) (tag scope named : Byte) :
    h ∈ ((cancelling r tag scope named s).port.get r).slots := by
  rw [cancelling_slots]
  exact List.mem_append_left _ mem

/-- R155: a CANCEL in range is carried out under every lock and at every time. -/
theorem exec_cancel {r : Rig} {tag scope named : Byte} {sc : Scope} {s : State} (can : canTake s.toPart r tag)
    (read : readCommand .cancel [scope, named] none = .ok (.cancel sc)) :
    exec (.cancel r tag [2#8, scope, named]) s =
      .next (s.withPart (takeCancel r s.nextId sc (cancelling r tag scope named s.toPart))) := by
  have row : exec (.cancel r tag [2#8, scope, named]) s = takeMessage r tag Code.cancel.byte [2#8, scope, named] s := rfl
  rw [row, takeMessage_eq s r tag _ _ can (List.cons_ne_nil _ _), judge_passes _ r _ tag 2#8 .cancel [scope, named]
    (.cancel sc) rfl rfl rfl rfl read]
  rfl

/-- The commands that a CANCEL selects are those that were held before it. -/
theorem cancelling_selected (r : Rig) (tag scope named : Byte) (sc : Scope) (s : Part) :
    ((cancelling r tag scope named s).port.get r).slots.filter (fun h => sc.selects h) =
      (s.port.get r).slots.filter fun h => sc.selects h := by
  rw [cancelling_slots, List.filter_append]
  exact List.append_nil _

section
variable {r : Rig} {tag scope named : Byte} {sc : Scope} {s : Part}
  (young : ∀ h ∈ (s.port.get r).slots, h.id < s.nextId) (apart : ((s.port.get r).slots.map fun h => h.id).Nodup)
include young apart

theorem cancelling_apart : (((cancelling r tag scope named s).port.get r).slots.map fun h => h.id).Nodup := by
  rw [cancelling_slots, List.map_append, List.map_singleton, List.nodup_append_comm, List.singleton_append,
    List.nodup_cons]
  refine ⟨fun mem => ?_, apart⟩
  obtain ⟨h, held, own⟩ := List.mem_map.mp mem
  exact absurd own (young h held).ne

/-- R155, R156: a CANCEL completes what it selects, then itself. -/
theorem takeCancel_cancelAll : ∃ u, CancelsAll r ((s.port.get r).slots.filter fun h => sc.selects h)
      (cancelling r tag scope named s) u ∧
    takeCancel r s.nextId sc (cancelling r tag scope named s) =
      respond r s.nextId .ok 0 (be8 ((s.port.get r).slots.filter fun h => sc.selects h).length) u := by
  refine ⟨_, cancelOnes_cancelAll (apart.sublist (List.filter_sublist.map _))
    (fun h mem => find_of_mem (cancelling_apart young apart) (mem_cancelling (List.mem_of_mem_filter mem) tag scope named))
    fun h mem => cancellable_of_selects (List.mem_filter.mp mem).2, ?_⟩
  rw [takeCancel, cancelling_selected, List.length_map]

/-- R155: the number of the CANCEL finds its slot until it completes. -/
theorem cancelling_found {u : Part} (all : CancelsAll r ((s.port.get r).slots.filter fun h => sc.selects h)
    (cancelling r tag scope named s) u) : (u.port.get r).find s.nextId = some (cancelSlot s tag) := by
  have own : cancelSlot s tag ∈ ((cancelling r tag scope named s).port.get r).slots := by
    rw [cancelling_slots]
    exact List.mem_append_right _ List.mem_cons_self
  have other : ∀ h ∈ (s.port.get r).slots.filter fun h => sc.selects h, s.nextId ≠ h.id :=
    fun h mem => (young h (List.mem_of_mem_filter mem)).ne'
  rw [all.find_other other]
  exact find_of_mem (cancelling_apart young apart) own
end

/-- R155, R156: a CANCEL completes what it selects, then itself. -/
theorem exec_cancel_all {r : Rig} {tag scope named : Byte} {sc : Scope} {s : State} (can : canTake s.toPart r tag)
    (apart : ((s.port.get r).slots.map fun h => h.id).Nodup)
    (read : readCommand .cancel [scope, named] none = .ok (.cancel sc)) :
    ∃ t u, exec (.cancel r tag [2#8, scope, named]) s = .next t ∧
      CancelsAll r ((s.port.get r).slots.filter fun h => sc.selects h) (cancelling r tag scope named s.toPart) u ∧
      t.port.get r = (u.port.get r).respond s.nextId .ok 0
        (be8 ((s.port.get r).slots.filter fun h => sc.selects h).length) ∧
      t.writes = u.writes ∧ t.groups = u.groups ∧ t.gang = u.gang := by
  have ⟨_, _, _, young⟩ := can
  obtain ⟨u, all, taken⟩ := takeCancel_cancelAll (tag := tag) (scope := scope) (named := named) (sc := sc) young apart
  have run := exec_cancel can read
  rw [taken] at run
  exact ⟨_, u, run, all, (respond_port ..).trans (if_pos rfl), rfl, rfl, rfl⟩

/-! ## The obligation -/

/-- Settles O44. -/
theorem cancelAll : Obligations.CancelAll := by
  intro r tag scope named selected s can apart form
  refine ⟨fun m own mask st eq gang first staged => executed_own_iff (eq.trans staged) gang first, ?_⟩
  obtain ⟨sc, read, selects⟩ := scope_of_form form
  obtain rfl : selected = fun h => sc.selects h := funext fun h => (selects h).symm
  obtain ⟨t, u, run, all, port, writes, groups, gang⟩ := exec_cancel_all can apart read
  have ⟨_, _, _, young⟩ := can
  have left : t.writes = s.writes.filter fun w => !(s.port.get r).slots.any fun h =>
      sc.selects h && h.phase == .pendingWrite && w.owner == some (r, h.id) := by
    simp only [writes, all.writes, List.any_filter, Bool.and_assoc]
    rfl
  have stands {x : Held} (mem : x ∈ (u.port.get r).slots) (earlier : x.id < s.nextId) : x ∈ (t.port.get r).slots := by
    rw [port]
    exact Port.mem_respond mem (.inl earlier.ne) ..
  refine ⟨t, run, ?_, left, fun h mem => ⟨fun chosen => ?_, fun spared => ?_⟩⟩
  · rw [port, Port.respond_responses _ _ _ _ _ (cancelling_found young apart all) nofun]
    exact List.getLast?_concat ..
  · have mine : h ∈ (s.port.get r).slots.filter fun h => sc.selects h := List.mem_filter.mpr ⟨mem, chosen⟩
    obtain ⟨done, answered, unbound⟩ := all.cancelled mine
    refine ⟨stands done (young h mem), ?_, fun pending w queued owner => ?_, fun ⟨m, moving⟩ => ?_,
      fun m mask k moving proposed named only => ?_⟩
    · rw [port]
      exact (Port.respond_grows ..).subset answered
    · rw [left, List.mem_filter, Bool.not_eq_true', List.any_eq_false] at queued
      obtain ⟨-, unowned⟩ := queued
      exact unowned h mem (by simp [chosen, pending, owner])
    · rw [groups]
      exact unbound m moving
    · have distinct := apart.sublist ((List.filter_sublist (p := fun h => sc.selects h)).map fun h => h.id)
      have alone : ∀ x ∈ (s.port.get r).slots.filter (fun h => sc.selects h), heldRef x = some k → x.id = h.id := by
        intro x among ref
        obtain ⟨m', mask', moving', proposed'⟩ := heldRef_eq_some.mp ref
        exact only x (List.mem_of_mem_filter among) m' mask' moving' proposed'
      have withdrawn := all.withdrawn distinct named mine (heldRef_eq_some.mpr ⟨m, mask, moving, proposed⟩) alone
      rw [gang]
      exact ⟨withdrawn.unsent, withdrawn.sent⟩
  · have other : ∀ x ∈ (s.port.get r).slots.filter (fun h => sc.selects h), h.id ≠ x.id := by
      intro x among same
      obtain ⟨held, selected⟩ := List.mem_filter.mp among
      obtain rfl := Option.some.inj ((find_of_mem apart mem).symm.trans (same ▸ find_of_mem apart held))
      exact absurd (selected.symm.trans spared) nofun
    exact stands (all.slot (mem_cancelling mem tag scope named) (.inl other)) (young h mem)

end Sys2Proof.Machine
end

section
/-! What the operations do to the ports (R124, R128, R131, R135): they raise notices, give phases to held commands and form
responses. -/

namespace Sys2Proof.Machine

/-- From `s` to `t` the ports and the Program Port have seen nothing but raised notices (R135), and phases and responses of
held commands (R131). -/
inductive Serves : Part → Part → Prop
  | stand {s t : Part} (port : t.port = s.port) (lane : t.program.lane = s.program.lane) (nextId : t.nextId = s.nextId) :
      Serves s t
  | notice (n : NoticeBody) (s : Part) : Serves s (raise n s)
  | phase (r : Rig) (id : Nat) (ph : Phase) (s : Part) : Serves s (setPhase r id ph s)
  | response (r : Rig) (id : Nat) (st : Status) (i : Nat) (results : List Byte) (s : Part) :
      Serves s (respond r id st i results s)
  | trans {s t u : Part} (h : Serves s t) (k : Serves t u) : Serves s u

theorem Serves.refl (s : Part) : Serves s s := .stand rfl rfl rfl

theorem Serves.foldl {α : Type} {f : Part → α → Part} (h : ∀ s a, Serves s (f s a)) (l : List α) (s : Part) :
    Serves s (l.foldl f s) := by
  induction l generalizing s with
  | nil => exact .refl s
  | cons a l ih => exact (h s a).trans (ih _)

theorem Serves.ite {s a b : Part} {p : Prop} [Decidable p] (ha : Serves s a) (hb : Serves s b) :
    Serves s (if p then a else b) := by
  split
  · exact ha
  · exact hb

theorem Serves.when {s a : Part} {p : Prop} [Decidable p] (ha : Serves s a) : Serves s (if p then a else s) :=
  .ite ha (.refl s)

/-- The blocks that the ports are held in. -/
def portBlocks : List Block := [.port, .program, .nextId]

theorem portBlocks_stand {F : List Block} {s t : Part} (h : Same F s t)
    (hF : portBlocks.all (fun b => !F.contains b) = true) :
    t.port = s.port ∧ t.program = s.program ∧ t.nextId = s.nextId := by
  simp only [portBlocks, List.all_cons, List.all_nil, Bool.and_eq_true, Bool.not_eq_true', Bool.and_true] at hF
  obtain ⟨port, program, nextId⟩ := hF
  exact ⟨h.get .port port, h.get .program program, h.get .nextId nextId⟩

theorem Same.serves {F : List Block} {s t : Part} (h : Same F s t)
    (hF : portBlocks.all (fun b => !F.contains b) = true) : Serves s t := by
  obtain ⟨port, program, nextId⟩ := portBlocks_stand h hF
  exact .stand port (congrArg Program.lane program) nextId

/-! ## Notices (R135) -/

theorem selectSource_serves (src : Source) (loss : Bool) (s : Part) : Serves s (selectSource src loss s) :=
  ((withClock_same _ s).serves rfl).trans (.notice _ _)

theorem selectBetter_serves (s : Part) : Serves s (selectBetter s) := .when (selectSource_serves _ _ s)

theorem sourceLost_serves (src : Source) (s : Part) : Serves s (sourceLost src s) :=
  .ite (((withClock_same _ s).serves rfl).trans (selectSource_serves _ _ _)) ((withClock_same _ s).serves rfl)

theorem relayChange_serves (byCommand old : Bool) (s : Part) : Serves s (relayChange byCommand old s) :=
  .when (.notice _ s)

theorem setLevel_serves (level : LockLevel) (byKey : Bool) (s : Part) : Serves s (setLevel level byKey s) :=
  .ite (.refl s) (((withLock_same _ s).serves rfl).trans (.notice _ _))

theorem keyChange_serves (line : Bool) (s : Part) : Serves s (keyChange line s) :=
  .ite (((withLock_same _ s).serves rfl).trans (setLevel_serves _ _ _)) ((withLock_same _ s).serves rfl)

theorem keyTurn_serves (line : Bool) (s : Part) : Serves s (keyTurn line s) :=
  .ite ((withLock_same _ s).serves rfl) (.ite (keyChange_serves line s) ((withLock_same _ s).serves rfl))

theorem raiseHealth_serves (x : Rig) (old mid new : Health) (s : Part) : Serves s (raiseHealth x old mid new s) := by
  unfold raiseHealth
  split
  · exact .notice _ s
  · exact .refl s

theorem raiseAlign_serves (old new : Tracker) (corr : Option Correction) (s : Part) :
    Serves s (raiseAlign old new corr s) := .when (.notice _ s)

theorem setGangState_serves (st : GangState) (s : Part) : Serves s (setGangState st s) :=
  ((withGang_same _ s).serves rfl).trans (.notice _ _)

theorem announce_serves (g : Fin 16) (f : Fade) (s : Part) : Serves s (announce g f s) :=
  .ite (.trans (.notice _ s) ((queueMove_same _ _).serves rfl)) (.notice _ s)

theorem completeFade_serves (g : Fin 16) (s : Part) : Serves s (completeFade g s) := by
  unfold completeFade
  split
  · exact .refl s
  · exact .when (((setGroup_same _ _ s).serves rfl).trans (.notice _ _))

/-! ## Owners (R102, R103, R131) -/

theorem setStage_serves (o : Owner) (st : Stage) (s : Part) : Serves s (setStage o st s) := by
  cases o with
  | command r id ganged =>
    unfold setStage
    dsimp only
    split
    · split
      · exact .phase _ _ _ s
      · exact .refl s
    · exact .refl s
  | proposal ref =>
    unfold setStage
    dsimp only
    split
    · exact (withGang_same _ s).serves rfl
    all_goals exact .refl s

theorem endOwner_serves (o : Owner) (st : Status) (results : List Byte) (s : Part) :
    Serves s (endOwner o st results s) := by
  have ended (r : Rig) (id : Nat) (m : MoveCmd) : Serves s (unbind o (setPhase r id (.move m) s)) :=
    .trans (.phase _ _ _ s) ((unbind_same _ _).serves rfl)
  cases o with
  | command r id ganged =>
    unfold endOwner
    dsimp only
    split
    · exact .refl s
    · split
      · exact .refl s
      · exact .ite (.refl s) (.ite ((ended _ _ _).trans (.response _ _ _ _ _ _)) (ended _ _ _))
  | proposal ref =>
    unfold endOwner
    dsimp only
    split
    · exact ((withGang_same _ s).serves rfl).trans ((unbind_same _ _).serves rfl)
    all_goals exact .refl s

theorem supersede_serves (o : Owner) (g : Fin 16) (s : Part) : Serves s (supersede o g s) := by
  unfold supersede
  split
  · exact endOwner_serves _ _ _ s
  · exact .refl s

theorem settleArrivals_serves (s : Part) : Serves s (settleArrivals s) := by
  refine .foldl (fun u o => ?_) _ s
  unfold settleArrival
  refine .when ?_
  split
  · exact endOwner_serves _ _ _ u
  · exact .refl u

theorem supersedeIfElsewhere_serves (g : Fin 16) (s : Part) : Serves s (supersedeIfElsewhere g s) := by
  unfold supersedeIfElsewhere
  split
  · exact .refl s
  · split
    · exact .when (supersede_serves _ _ s)
    · exact .refl s

theorem settleBinding_serves (g : Fin 16) (q : List Request) (s : Part) : Serves s (settleBinding g q s) :=
  (Serves.foldl (fun _ _ => supersede_serves _ _ _) _ s).trans (supersedeIfElsewhere_serves _ _)

theorem refuseRequests_serves (st : Status) (g : Fin 16) (s : Part) : Serves s (refuseRequests st g s) :=
  ((setGroup_same _ _ s).serves rfl).trans (.foldl (fun _ _ => endOwner_serves _ _ _ _) _ _)

theorem bindGroup_serves (o : Owner) (g : Fin 16) (s : Part) : Serves s (bindGroup o g s) := by
  unfold bindGroup
  dsimp only
  refine Serves.trans ?_ ((setGroup_same _ _ _).serves rfl)
  split
  · exact .ite (.refl s) (supersede_serves _ _ s)
  · exact .refl s

theorem executeRun_serves (o : Owner) (req : MoveReq) (mask : Half) (s : Part) :
    Serves s (executeRun o req mask s) := by
  have bound := ((setStage_serves o (.executed (toBind s mask req.target) s.clock.frame) s).trans
    (.foldl (fun t g => bindGroup_serves o g t) (allGroups.filter fun g => inMask (toBind s mask req.target) g) _)).trans
    (.foldl (fun t g => (addRequest_same g ⟨req.target, .command, some o⟩ t).serves rfl)
      (allGroups.filter fun g => inMask mask g) _)
  exact .ite (bound.trans (endOwner_serves _ _ _ _)) bound

theorem runOwner_serves (o : Owner) (s : Part) : Serves s (runOwner o s) := by
  unfold runOwner
  split
  next => exact .refl s
  next req p _ =>
    cases evalRun s o req p with
    | fail st g => exact endOwner_serves _ _ _ s
    | execute => exact executeRun_serves _ _ _ s
    | timeout => exact endOwner_serves _ _ _ s
    | wait n => exact setStage_serves _ _ s
    | idle => exact .refl s

theorem executeIfReady_serves (o : Owner) (s : Part) : Serves s (executeIfReady o s) := by
  unfold executeIfReady
  split
  next req p _ =>
    cases evalRun s o req p with
    | fail st g => exact endOwner_serves _ _ _ s
    | execute => exact executeRun_serves _ _ _ s
    | timeout | wait | idle => exact .refl s
  next => exact .refl s

theorem timeoutIfDue_serves (o : Owner) (s : Part) : Serves s (timeoutIfDue o s) := by
  unfold timeoutIfDue
  split
  next req p _ =>
    cases evalRun s o req p with
    | timeout => exact endOwner_serves _ _ _ s
    | fail | execute | wait | idle => exact .refl s
  next => exact .refl s

/-! ## Groups (R88, R91, R105, R118) -/

theorem requestTurn_serves (l : Lines) (ord : Order) (s : Part) : Serves s (requestTurn l ord s) := by
  have presses (u : Part) : Serves u (pressTurn l ord u) := (pressTurn_same l ord u).serves rfl
  have moves (u : Part) : Serves u (runMoves ord u) := .foldl (fun _ _ => runOwner_serves _ _) _ u
  exact .ite ((presses s).trans (moves _)) ((moves s).trans (presses _))

theorem startMove_serves (m : MoveMsg) (s : Part) : Serves s (startMove m s) := by
  have moved (r : GroupRec) :
      Serves s (Part.setGroup { s with gang := { s.gang with pending := s.gang.pending.set m.group none } } m.group r) :=
    ((withGang_same _ s).serves rfl).trans ((setGroup_same _ _ _).serves rfl)
  unfold startMove
  dsimp only
  split
  · exact ((moved _).trans (.notice _ _)).trans (supersedeIfElsewhere_serves _ _)
  · exact (Serves.ite (moved _) ((moved _).trans (.notice _ _))).trans (supersedeIfElsewhere_serves _ _)

theorem startPendingMove_serves (g : Fin 16) (s : Part) : Serves s (startPendingMove g s) := by
  unfold startPendingMove
  split
  · exact .when (startMove_serves _ s)
  · exact .refl s

theorem takeStart_serves (g : Fin 16) (s : Part) : Serves s (takeStart g s) := by
  have started (r : GroupRec) (n : NoticeBody) : Serves s (raise n ((refuseRequests .busy g s).setGroup g r)) :=
    ((refuseRequests_serves _ _ s).trans ((setGroup_same _ _ _).serves rfl)).trans (.notice _ _)
  exact .when (Serves.ite ((started _ _).trans ((queueMove_same _ _).serves rfl)) (started _ _))

theorem takeOver_serves (s : Part) : Serves s (takeOver s) :=
  (((withTakeover_same _ s).serves rfl).trans (.foldl (fun _ _ => takeStart_serves _ _) _ _)).trans
    (relayChange_serves _ _ _)

theorem takeoverTurn_serves (s : Part) : Serves s (takeoverTurn s) :=
  .ite (.refl s) (.ite (takeOver_serves s) ((withTakeover_same _ s).serves rfl))

theorem decideGroups_serves (takenUp : Fin 16 → Bool) (s : Part) : Serves s (decideGroups takenUp s) := by
  have refused (st : Status) (l : List (Fin 16)) (u : Part) : Serves u (l.foldl (fun s g => refuseRequests st g s) u) :=
    .foldl (fun _ _ => refuseRequests_serves _ _ _) _ u
  unfold decideGroups
  dsimp only
  refine Serves.trans ?_ ((withPanel_same _ _).serves rfl)
  refine Serves.trans ?_ (Serves.foldl (fun _ _ => settleBinding_serves _ _ _) _ _)
  refine Serves.trans (((refused _ _ s).trans (refused _ _ _)).trans ((withGroups_same _ _).serves rfl))
    (Serves.foldl (fun u g => ?_) _ _)
  split
  · exact announce_serves _ _ u
  · exact .refl u

theorem switchTurn_serves (l : Lines) (ord : Order) (s : Part) : Serves s (switchTurn l ord s) := by
  have strays (u : Part) : Serves u (startStrayMoves u) := .foldl (fun _ _ => startPendingMove_serves _ _) _ u
  have moves (u : Part) : Serves u (startPendingMoves u) := .foldl (fun _ _ => startPendingMove_serves _ _) _ u
  have taken := ((requestTurn_serves l ord s).trans (strays _)).trans (takeoverTurn_serves _)
  exact (((taken.trans (decideGroups_serves _ _)).trans (moves _)).trans (settleArrivals_serves _)).trans
    ((publishOnAir_same _).serves rfl)

theorem returnHold_serves (g : Fin 16) (s : Part) : Serves s (returnHold g s) := by
  have set (r : GroupRec) : Serves s (s.setGroup g r) := (setGroup_same g r s).serves rfl
  unfold returnHold
  refine .when (.ite ?_ (set _))
  dsimp only
  split
  · exact ((set _).trans (announce_serves _ _ _)).trans (supersedeIfElsewhere_serves _ _)
  · exact set _

theorem completesAlone_serves (g : Fin 16) (r : GroupRec) (s : Part) :
    Serves s (settleArrivals (completeFade g (s.setGroup g r))) :=
  (((setGroup_same g r s).serves rfl).trans (completeFade_serves _ _)).trans (settleArrivals_serves _)

theorem samplePeriod_serves (s : Part) : Serves s (samplePeriod s) := by
  have formed : Serves s (formSamples (tickFades s)) := ((tickFades_same s).serves rfl).trans (.stand rfl rfl rfl)
  have completed (u : Part) : Serves u (completeFades u) := .foldl (fun _ _ => completeFade_serves _ _) _ u
  exact (((formed.trans (completed _)).trans (settleArrivals_serves _)).trans ((advanceRings_same _).serves rfl)).trans
    ((withClock_same _ _).serves rfl)

/-! ## The Gang Port (R112, R113, R118 to R123) -/

theorem takeAnswer_serves (ref : Fin 8) (round : Bool) (st : Status) (s : Part) :
    Serves s (takeAnswer ref round st s) := by
  have freed : Serves s (freedPart ref s) := (withGang_same _ s).serves rfl
  obtain e | e | ⟨r, id, -, e⟩ := takeAnswer_cases ref round st s <;> rw [e]
  · exact .refl s
  · exact freed
  · exact freed.trans (endOwner_serves _ _ _ _)

theorem boardAnswers_serves (rep : GangReport) (s : Part) : Serves s (boardAnswers rep s) := by
  refine .foldl (fun u ref => ?_) _ s
  dsimp only
  split
  · exact .when (takeAnswer_serves _ _ _ u)
  · exact .refl u

theorem holdProposal_serves (ref : Fin 8) (p : ProposeMsg) (s : Part) : Serves s (holdProposal ref p s) := by
  have boarded (e : BoardEntry) : Serves s (setBoard ref e s) := (setBoard_same ref e s).serves rfl
  unfold holdProposal
  dsimp only
  split
  · exact (boarded _).trans (endOwner_serves _ _ _ _)
  · exact boarded _

theorem takePropose_serves (p : ProposeMsg) (s : Part) : Serves s (takePropose p s) := by
  have dropped (ref : Fin 8) : Serves s (dropProposal ref s) := (dropProposal_same ref s).serves rfl
  unfold takePropose
  dsimp only
  split
  · refine .ite (.refl s) (.ite ?_ ((dropped _).trans (holdProposal_serves _ _ _)))
    exact ((dropped _).trans ((setBoard_same _ _ _).serves rfl)).trans ((withGang_same _ _).serves rfl)
  · exact (withGang_same _ s).serves rfl

theorem takeGangMsgIn_serves (m : GangMsg) (s : Part) : Serves s (takeGangMsgIn m s) := by
  unfold takeGangMsgIn
  split
  · exact (takeGangMove_same _ s).serves rfl
  · exact takePropose_serves _ s
  · exact takeAnswer_serves _ _ _ s
  all_goals exact .refl s

theorem linkUp_serves (s : Part) : Serves s (linkUp s) :=
  ((withGang_same _ s).serves rfl).trans (setGangState_serves _ _)

theorem reclaim_serves (ref : Fin 8) (s : Part) : Serves s (reclaim ref s) := by
  have freed : Serves s (freedPart ref s) := (withGang_same _ s).serves rfl
  unfold reclaim
  dsimp only
  split
  · split
    · exact freed.trans (setStage_serves _ _ _)
    · exact freed
  all_goals exact freed

theorem linkLost_serves (s : Part) : Serves s (linkLost s) := by
  unfold linkLost
  dsimp only
  refine Serves.trans ?_ (sourceLost_serves .gang _)
  refine Serves.trans ?_ (setGangState_serves .lost _)
  refine Serves.trans ?_ ((withGang_same _ _).serves rfl)
  exact ((clearBoard_same s).serves rfl).trans (.foldl (fun t ref => reclaim_serves ref t) allRefs _)

theorem acceptFrame_serves (b : List Byte) (s : Part) : Serves s (acceptFrame b s) := by
  have report : Serves s (takeReport (readReport b) s) := (takeReport_same _ s).serves rfl
  unfold acceptFrame
  dsimp only
  split
  · exact (Serves.ite (report.trans (boardAnswers_serves _ _)) report).trans (takeGangMsgIn_serves _ _)
  · exact .ite (report.trans (linkUp_serves _)) (report.trans ((withGang_same _ _).serves rfl))
  · exact .ite (report.trans (linkUp_serves _)) (report.trans ((withGang_same _ _).serves rfl))
  · exact report

theorem gangFrame_serves (b : List Byte) (s : Part) : Serves s (gangFrame b s) :=
  .ite (.refl s) (.ite (acceptFrame_serves b s) ((withGang_same _ s).serves rfl))

theorem gangTurn_serves (s : Part) : Serves s (gangTurn s) := by
  have silence (u : Part) : Serves u (silenceTurn u) := by
    have counted (k : Gang) : Serves u { u with gang := k } := (withGang_same k u).serves rfl
    exact .ite (.refl u) (.ite (.ite ((counted _).trans (linkLost_serves _))
      ((counted _).trans ((withGang_same _ _).serves rfl))) (counted _))
  exact (((mismatchTurn_same s).serves rfl).trans ((resendTurn_same _).serves rfl)).trans (silence _)

/-! ## Writes (R73, R153, R159, R166) -/

theorem respondOwner_serves (o : Option (Rig × Nat)) (st : Status) (s : Part) : Serves s (respondOwner o st s) := by
  unfold respondOwner
  split
  · exact .response _ _ _ _ _ s
  · exact .refl s

theorem deferredLoad_serves (s : Part) : Serves s (deferredLoad s) := by
  have loaded (k : Store) (t : Tables) : Serves s (writeTables t { s with store := k }) :=
    ((withStore_same k s).serves rfl).trans ((writeTables_same t _).serves rfl)
  exact .ite (loaded _ _) ((loaded _ _).trans (.notice _ _))

theorem applyWrite_serves (w : PendingWrite) (s : Part) : Serves s (applyWrite w s) := by
  obtain ⟨o, act⟩ := w
  have written {F : List Block} {t : Part} (h : Same F s t) (hF : portBlocks.all (fun b => !F.contains b) = true) :
      Serves s (respondOwner o .ok t) := (h.serves hF).trans (respondOwner_serves _ _ _)
  cases act with
  | route first es => exact written (writeRoutes_same _ _ s) rfl
  | group g e => exact written (writeGroup_same _ _ s) rfl
  | watchCause x c e => exact written (writeWatchCause_same _ _ _ s) rfl
  | watchSlots x slots => exact written (writeWatchSlots_same _ _ s) rfl
  | setup new => exact written (writeSetup_same _ s) rfl
  | defaults => exact written (writeTables_same _ s) rfl
  | setMode g mode =>
    unfold applyWrite
    dsimp only
    split
    · exact respondOwner_serves _ _ s
    · exact written (writeMode_same _ _ s) rfl
  | bypass engage =>
    exact (((withPanel_same _ s).serves rfl).trans (relayChange_serves _ _ _)).trans (respondOwner_serves _ _ _)
  | load => exact deferredLoad_serves s

theorem applyWrites_serves (l : List PendingWrite) (s : Part) : Serves s (applyWrites l s) := by
  induction l generalizing s with
  | nil => exact (withWrites_same _ s).serves rfl
  | cons w l ih => exact .ite ((withWrites_same _ s).serves rfl) ((applyWrite_serves w s).trans (ih _))

theorem applyTableWrites_serves (l : List PendingWrite) (s : Part) : Serves s (applyTableWrites l s) := by
  induction l generalizing s with
  | nil => exact (withWrites_same _ s).serves rfl
  | cons w l ih => exact .ite ((applyWrite_serves w s).trans (ih _)) ((withWrites_same _ s).serves rfl)

theorem applyHead_serves (kind : WriteAct → Bool) (s : Part) : Serves s (applyHead kind s) := by
  unfold applyHead
  split
  · exact .when (((withWrites_same _ s).serves rfl).trans (applyWrite_serves _ _))
  · exact .refl s

theorem settleWrites_serves (before : PerRig Health) (s : Part) : Serves s (settleWrites before s) := by
  have settled (x : Rig) (h : Health) (u : Part) : Serves u (settleHealth x h u) :=
    .ite (.refl u) (((setHealth_same _ _ u).serves rfl).trans (raiseHealth_serves _ _ _ _ _))
  exact ((settled .A _ s).trans (settled .B _ _)).trans (selectBetter_serves _)

theorem saveDone_serves (verified : Bool) (s : Part) : Serves s (saveDone verified s) := by
  have answered (r : Rig) (st : Status) (u : Part) : Serves u (respondSave r st u) := by
    unfold respondSave
    split
    · exact .response _ _ _ _ _ u
    · exact .refl u
  have saved : Serves s (saveAnswered verified s) :=
    ((((withStore_same _ s).serves rfl).trans (.notice _ _)).trans (answered .A _ _)).trans (answered .B _ _)
  exact saved.trans ((saveDone_same_answered _ _).serves rfl)

/-! ## The turns of a boundary (R25, R65, R165) -/

theorem owedTurn_serves (s : Part) : Serves s (owedTurn s) :=
  .when (((withStore_same _ s).serves rfl).trans (.notice _ _))

theorem clockTurn_serves (s : Part) : Serves s (clockTurn s) :=
  ((withClock_same _ s).serves rfl).trans (selectBetter_serves _)

theorem watchTurn_serves (ord : Order) (before : PerRig Health) (s : Part) : Serves s (watchTurn ord before s) := by
  have judged (x : Rig) (h : Health) (u : Part) : Serves u (healthTurn x h u) :=
    ((setHealth_same x _ u).serves rfl).trans (raiseHealth_serves _ _ _ _ _)
  have slip (x : Rig) (n : Nat) (u : Part) : Serves u (slipTurn x n u) := (slipTurn_same x n u).serves rfl
  have watch (x : Rig) (h : Health) (first : Bool) (n : Nat) (u : Part) : Serves u (watchRig x h first n u) :=
    .ite ((slip _ _ u).trans (judged _ _ _)) ((judged _ _ u).trans (slip _ _ _))
  exact ((((underrunTurn_same .A s).serves rfl).trans ((underrunTurn_same .B _).serves rfl)).trans
    (watch .A _ _ _ _)).trans (watch .B _ _ _ _)

theorem causeStep_serves (x : Rig) (c : Cause) (src dst : CauseState) (s : Part) :
    Serves s (causeStep x c src dst s) :=
  .when (((setHealth_same _ _ s).serves rfl).trans (raiseHealth_serves _ _ _ _ _))

/-! ## Commands that are judged (R139) -/

theorem acceptWrite_serves (r : Rig) (id : Nat) (act : WriteAct) (s : Part) : Serves s (acceptWrite r id act s) :=
  ((withWrites_same _ s).serves rfl).trans (.phase _ _ _ _)

theorem takeWrite_serves (r : Rig) (id : Nat) (act : WriteAct) (s : Part) : Serves s (takeWrite r id act s) := by
  unfold takeWrite
  split
  · exact .response _ _ _ _ _ s
  · exact acceptWrite_serves _ _ _ s

theorem takeSetMode_serves (r : Rig) (id : Nat) (g : Fin 16) (mode : Mode) (s : Part) :
    Serves s (takeSetMode r id g mode s) := by
  unfold takeSetMode
  split
  · exact .response _ _ _ _ _ s
  · exact acceptWrite_serves _ _ _ s

theorem takeMove_serves (r : Rig) (id : Nat) (mask : Half) (req : MoveReq) (s : Part) :
    Serves s (takeMove r id mask req s) := by
  unfold takeMove
  dsimp only
  split
  · exact .response _ _ _ _ _ s
  · refine .ite (.phase _ _ _ s) ?_
    split
    · exact .response _ _ _ _ _ s
    · exact ((propose_same _ _ _ _ _ s).serves rfl).trans (.phase _ _ _ _)

theorem cancelOne_serves (r : Rig) (id : Nat) (s : Part) : Serves s (cancelOne r id s) := by
  unfold cancelOne
  split
  · exact .refl s
  · split
    · exact ((withWrites_same _ s).serves rfl).trans (.response _ _ _ _ _ _)
    · exact ((((unbind_same _ s).serves rfl).trans ((unbind_same _ _).serves rfl)).trans
        ((withdrawPart_same _ _).serves rfl)).trans (.response _ _ _ _ _ _)
    all_goals exact .refl s

theorem perform_serves (r : Rig) (id : Nat) (c : Command) (s : Part) : Serves s (perform r id c s) := by
  cases c with
  | readHealth x clear => exact .trans (.response _ _ _ _ _ s) ((clearSticky_same _ _ _).serves rfl)
  | readCounts x clear =>
    have answered (results : List Byte) := Serves.response r id .ok 0 results s
    exact .ite ((answered _).trans ((clearCounts_same _ _).serves rfl)) (answered _)
  | write act => exact takeWrite_serves _ _ _ s
  | moveGroup mask req => exact takeMove_serves _ _ _ _ s
  | setMode g mode => exact takeSetMode_serves _ _ _ _ s
  | markRig x fault => exact ((setHealth_same _ _ s).serves rfl).trans (.response _ _ _ _ _ _)
  | cancel sc => exact (Serves.foldl (fun t i => cancelOne_serves r i t) _ s).trans (.response _ _ _ _ _ _)
  | setLock level => exact .ite ((setLevel_serves _ _ s).trans (.response _ _ _ _ _ _)) (.response _ _ _ _ _ s)
  | save => exact ((withStore_same _ s).serves rfl).trans (.phase _ _ _ _)
  | bypass engage => exact acceptWrite_serves _ _ _ s
  | identify | readStatus | readRoute | readGroup | readWatch | readAlign | reset => exact .response _ _ _ _ _ s

theorem judge_serves (r : Rig) (id : Nat) (msg : List Byte) (s : Part) : Serves s (judge r id msg s) := by
  have refused (st : Status) (i : Nat) : Serves s (respond r id st i [] s) := .response _ _ _ _ _ s
  unfold judge
  split
  · exact refused _ _
  · split
    · exact refused _ _
    · refine .ite (refused _ _) (.ite (refused _ _) (.ite (refused _ _) ?_))
      split
      · exact refused _ _
      · exact perform_serves _ _ _ s

end Sys2Proof.Machine
end

section
/-! The bounds of the ports (R128, R135; log 23): what each operation keeps of them, and every step. -/

namespace Sys2Proof.Machine

/-! ## Slots (R127, R128; log 23) -/

/-- What tells the slot of a held command: all of it but what the command is doing. -/
def Held.seat (h : Held) : Nat × Byte × Byte × Bool := (h.id, h.tag, h.code, h.reserved)

/-- Slots that a port can hold, the next number being `n` (R128; log 23). -/
structure SlotsFit (n : Nat) (l : List Held) : Prop where
  general : (l.filter fun h => !h.reserved).length ≤ 8
  reserved : (l.filter fun h => h.reserved).length ≤ 1
  apart : (l.map fun h => h.id).Nodup
  young : ∀ h ∈ l, h.id < n

/-- Both ports hold slots that fit. -/
def PortsFit (s : Part) : Prop := ∀ r, SlotsFit s.nextId (s.port.get r).slots

theorem portsFit_iff (s : Part) : PortsFit s ↔ slotsOk s ∧ idsOk s := by
  constructor
  · exact fun h => ⟨fun r => ⟨(h r).general, (h r).reserved⟩, fun r => ⟨(h r).apart, (h r).young⟩⟩
  · rintro ⟨slots, ids⟩ r
    obtain ⟨general, reserved⟩ := slots r
    obtain ⟨apart, young⟩ := ids r
    exact ⟨general, reserved, apart, young⟩

theorem SlotsFit.nil (n : Nat) : SlotsFit n [] where
  general := by simp
  reserved := by simp
  apart := List.nodup_nil
  young _ mem := absurd mem List.not_mem_nil

theorem SlotsFit.mono {m n : Nat} {l : List Held} (h : SlotsFit m l) (le : m ≤ n) : SlotsFit n l :=
  { h with young := fun x mem => (h.young x mem).trans_le le }

/-- R128: slots that are freed leave room. -/
theorem SlotsFit.sublist {n : Nat} {l l' : List Held} (h : SlotsFit n l) (sub : l'.Sublist l) : SlotsFit n l' where
  general := (sub.filter _).length_le.trans h.general
  reserved := (sub.filter _).length_le.trans h.reserved
  apart := h.apart.sublist (sub.map _)
  young x mem := h.young x (sub.subset mem)

/-- What commands do in their slots is nothing to the bounds. -/
theorem SlotsFit.of_seats {n : Nat} {l l' : List Held} (h : SlotsFit n l) (seats : l'.map Held.seat = l.map Held.seat) :
    SlotsFit n l' := by
  have counted (p : Bool → Bool) :
      (l'.filter fun x => p x.reserved).length = (l.filter fun x => p x.reserved).length := by
    have count (k : List Held) :
        (k.filter fun x => p x.reserved).length = (k.map Held.seat).countP fun x => p x.2.2.2 := by
      rw [List.countP_map, List.countP_eq_length_filter]
      rfl
    rw [count, count, seats]
  have ids : l'.map (fun x => x.id) = l.map fun x => x.id := by
    simpa [Held.seat, Function.comp_def] using congrArg (List.map Prod.fst) seats
  refine ⟨(counted not).trans_le h.general, (counted id).trans_le h.reserved, ids ▸ h.apart, fun x mem => ?_⟩
  have old : x.id ∈ l.map fun x => x.id := ids ▸ List.mem_map_of_mem mem
  obtain ⟨y, among, same⟩ := List.mem_map.mp old
  exact same ▸ h.young y among

/-- R127: a command takes a slot, the next number, and no slot beyond the bounds. -/
theorem SlotsFit.concat {n : Nat} {l : List Held} {x : Held} (h : SlotsFit n l) (number : x.id = n)
    (room : if x.reserved then ∀ y ∈ l, y.reserved = false else (l.filter fun y => !y.reserved).length < 8) :
    SlotsFit (n + 1) (l ++ [x]) := by
  obtain ⟨general, reserved, apart, young⟩ := h
  have counts : ((l ++ [x]).filter fun y => !y.reserved).length ≤ 8 ∧
      ((l ++ [x]).filter fun y => y.reserved).length ≤ 1 := by
    cases kind : x.reserved with
    | false =>
      have below : (l.filter fun y => !y.reserved).length < 8 := by rwa [kind] at room
      exact ⟨by simpa [List.filter_append, kind] using below, by simpa [List.filter_append, kind] using reserved⟩
    | true =>
      have unheld : ∀ y ∈ l, y.reserved = false := by rwa [kind] at room
      exact ⟨by simpa [List.filter_append, kind] using general, by simpa [List.filter_append, kind] using unheld⟩
  refine ⟨counts.1, counts.2, ?_, fun y mem => ?_⟩
  · rw [List.map_append, List.map_singleton, List.nodup_append_comm, List.singleton_append, List.nodup_cons]
    refine ⟨fun mem => ?_, apart⟩
    obtain ⟨y, among, same⟩ := List.mem_map.mp mem
    exact (young y among).ne (same.trans number)
  · obtain old | rfl := List.mem_append.mp mem |>.imp_right List.mem_singleton.mp
    · exact (young y old).trans (Nat.lt_succ_self n)
    · exact number ▸ Nat.lt_succ_self _

/-! ## What serves the ports -/

theorem Port.setPhase_seats (p : Port) (id : Nat) (ph : Phase) :
    (p.setPhase id ph).slots.map Held.seat = p.slots.map Held.seat := by
  refine (List.map_map).trans (List.map_congr_left fun h _ => ?_)
  rw [Function.comp_apply]
  split <;> rfl

theorem Port.respond_seats (p : Port) (id : Nat) (st : Status) (i : Nat) (results : List Byte) :
    (p.respond id st i results).slots.map Held.seat = p.slots.map Held.seat := by
  unfold Port.respond
  split
  · rfl
  · split
    · rfl
    · exact Port.setPhase_seats p id .done

/-- Commands keep their seats. -/
theorem Serves.seats {s t : Part} (h : Serves s t) (r : Rig) :
    (t.port.get r).slots.map Held.seat = (s.port.get r).slots.map Held.seat := by
  induction h with
  | stand port => rw [port]
  | notice n s => rw [(raise_answersStand n s r).1]
  | phase q id ph s =>
    rw [Machine.setPhase, setPort_port, PerRig.get_set]
    split
    next own => rw [own, Port.setPhase_seats]
    next => rfl
  | response q id st i results s =>
    rw [respond_port]
    split
    · exact Port.respond_seats ..
    · rfl
  | trans _ _ h k => exact k.trans h

theorem Serves.nextId {s t : Part} (h : Serves s t) : t.nextId = s.nextId := by
  induction h with
  | stand _ _ nextId => exact nextId
  | trans _ _ h k => exact k.trans h
  | _ => rfl

/-- R135: a full queue drops its oldest notice. -/
theorem Lane.push_bounded {l : Lane} (h : l.notices.length ≤ 8) (n : Notice) : (l.push n).notices.length ≤ 8 := by
  unfold Lane.push
  split
  · simp only [List.length_append, List.length_drop, List.length_singleton]
    omega
  · simp only [List.length_append, List.length_singleton]
    omega

theorem Serves.noticesOk {s t : Part} (h : Serves s t) (hs : noticesOk s) : noticesOk t := by
  induction h with
  | stand port lane => exact ⟨fun r => by rw [port]; exact hs.1 r, by rw [lane]; exact hs.2⟩
  | notice n s =>
    refine ⟨fun r => ?_, Lane.push_bounded hs.2 _⟩
    rw [raise, PerRig.get_map]
    exact Lane.push_bounded (hs.1 r) _
  | phase q id ph s =>
    refine ⟨fun r => ?_, hs.2⟩
    rw [Machine.setPhase, setPort_port, PerRig.get_set]
    split
    next own => exact own ▸ hs.1 r
    next => exact hs.1 r
  | response q id st i results s =>
    obtain ⟨lanes, program⟩ := respond_lanesStand q id st i results s
    exact ⟨fun r => by rw [lanes]; exact hs.1 r, by rw [program]; exact hs.2⟩
  | trans _ _ h k => exact k (h hs)

theorem Serves.portsFit {s t : Part} (h : Serves s t) (hs : PortsFit s) : PortsFit t := fun r => by
  rw [h.nextId]
  exact (hs r).of_seats (h.seats r)

/-! ## What keeps the bounds -/

/-- From `s` to `t` the notice queues and the slots stay within their bounds. -/
structure PortsKeep (s t : Part) : Prop where
  notices : noticesOk s → noticesOk t
  slots : PortsFit s → PortsFit t

theorem Serves.keep {s t : Part} (h : Serves s t) : PortsKeep s t := ⟨h.noticesOk, h.portsFit⟩

theorem PortsKeep.refl (s : Part) : PortsKeep s s := ⟨id, id⟩

theorem PortsKeep.trans {s t u : Part} (h : PortsKeep s t) (k : PortsKeep t u) : PortsKeep s u :=
  ⟨k.notices ∘ h.notices, k.slots ∘ h.slots⟩

theorem PortsKeep.ite {s a b : Part} {p : Prop} [Decidable p] (ha : PortsKeep s a) (hb : PortsKeep s b) :
    PortsKeep s (if p then a else b) := by
  split
  · exact ha
  · exact hb

theorem PortsKeep.when {s a : Part} {p : Prop} [Decidable p] (h : PortsKeep s a) : PortsKeep s (if p then a else s) :=
  .ite h (.refl s)

theorem Same.portsKeep {F : List Block} {s t : Part} (h : Same F s t)
    (hF : portBlocks.all (fun b => !F.contains b) = true) : PortsKeep s t := (h.serves hF).keep

theorem unlessReset_portsKeep {f : Part → Part} (s : Part) (h : PortsKeep s (f s)) : PortsKeep s (unlessReset f s) :=
  .ite (.refl s) h

theorem whenRx_portsKeep {f : Part → Part} (r : Rig) (st : RxState) (s : Part) (h : PortsKeep s (f s)) :
    PortsKeep s (whenRx r st f s) := .when h

/-- A part whose ports and Program Port a reset has cleared (R124). -/
theorem BlocksReset.portsKeep {s t : Part} (h : BlocksReset t) : PortsKeep s t := by
  refine ⟨fun _ => ⟨fun r => ?_, ?_⟩, fun _ r => ?_⟩
  · rw [h.port, PerRig.get_both]
    exact Nat.zero_le _
  · rw [h.program]
    exact Nat.zero_le _
  · rw [h.port, PerRig.get_both]
    exact .nil _

/-- A port that has no more notices and no other commands than before. -/
theorem setPort_portsKeep {r : Rig} {p : Port} {s : Part}
    (notices : p.lane.notices.length ≤ (s.port.get r).lane.notices.length)
    (slots : p.slots.Sublist (s.port.get r).slots) : PortsKeep s (s.setPort r p) := by
  refine ⟨fun ⟨ports, program⟩ => ⟨fun q => ?_, program⟩, fun fit q => ?_⟩
  · rw [setPort_port, PerRig.get_set]
    split
    · exact notices.trans (ports r)
    · exact ports q
  · rw [setPort_port, PerRig.get_set]
    split
    · exact (fit r).sublist slots
    · exact fit q

theorem withProgram_portsKeep {p : Program} {s : Part}
    (notices : p.lane.notices.length ≤ s.program.lane.notices.length) : PortsKeep s { s with program := p } :=
  ⟨fun h => ⟨h.1, notices.trans h.2⟩, id⟩

/-! ## Frames (R128, R132) -/

theorem Lane.choose_notices (l : Lane) (q : List Response) : (l.choose q).2.1.notices.length ≤ l.notices.length := by
  unfold Lane.choose
  split
  · exact Nat.le_refl _
  · split
    · exact Nat.le_refl _
    · split
      next rest e =>
        rw [e]
        exact Nat.le_succ _
      next => exact Nat.le_refl _

theorem Lane.send_notices (l : Lane) (pause : Bool) (q : List Response) :
    (l.send pause q).2.1.notices.length ≤ l.notices.length := by
  unfold Lane.send
  split
  · exact Nat.le_refl _
  · split
    · exact Nat.le_refl _
    · exact Lane.choose_notices l q

theorem Lane.sent_notices (l : Lane) : l.sent.notices = l.notices := by
  unfold Lane.sent
  split
  · split <;> rfl
  · rfl

theorem beginReturn_portsKeep (r : Rig) (s : Part) : PortsKeep s (beginReturn r s) := by
  have chosen : PortsKeep s (sendChunk r s).2 := setPort_portsKeep (Lane.send_notices _ _ _) (.refl _)
  exact chosen.trans (setPort_portsKeep (Nat.le_refl _) (.refl _))

theorem beginFrames_portsKeep (s : Part) : PortsKeep s (beginFrames s) :=
  ((beginReturn_portsKeep .A s).trans (beginReturn_portsKeep .B _)).trans
    (withProgram_portsKeep (Lane.send_notices _ _ _))

theorem framesBefore_portsKeep (ord : Order) (s : Part) : PortsKeep s (framesBefore ord s) :=
  (PortsKeep.when (beginFrames_portsKeep s)).trans (.when ((beginGang_same _).portsKeep rfl))

theorem framesAfter_portsKeep (ord : Order) (s : Part) : PortsKeep s (framesAfter ord s) := by
  have header (u : Part) : PortsKeep u (programHeader u) := Serves.keep (.stand rfl rfl rfl)
  exact ((PortsKeep.ite (.refl s) (beginFrames_portsKeep s)).trans
    (.ite (.refl _) ((beginGang_same _).portsKeep rfl))).trans (header _)

theorem endReturn_portsKeep (r : Rig) (s : Part) : PortsKeep s (endReturn r s) := by
  have ended : PortsKeep s (s.setPort r { s.port.get r with out := none, lane := (s.port.get r).lane.sent }) :=
    setPort_portsKeep (congrArg List.length (Lane.sent_notices _)).le (.refl _)
  unfold endReturn
  dsimp only
  split
  · exact .refl s
  · split
    · exact ended
    · refine .ite ?_ ended
      split
      next id resets _ =>
        have freed : PortsKeep s (s.setPort r
            (Port.freeSlot { s.port.get r with out := none, lane := (s.port.get r).lane.sent } id)) :=
          setPort_portsKeep (congrArg List.length (Lane.sent_notices _)).le List.filter_sublist
        exact freed.trans (Serves.keep (.stand rfl rfl rfl))
      next => exact ended

theorem endFrames_portsKeep (s : Part) : PortsKeep s (endFrames s) := by
  have ended (u : Part) : PortsKeep u (endProgram u) := by
    unfold endProgram
    split
    · exact .refl u
    · exact withProgram_portsKeep (congrArg List.length (Lane.sent_notices _)).le
  exact ((endReturn_portsKeep .A s).trans (endReturn_portsKeep .B _)).trans (ended _)

/-! ## Intake (R126, R127) -/

theorem refuseMessage_portsKeep (r : Rig) (tag : Byte) (why : RefuseReason) (s : Part) :
    PortsKeep s (refuseMessage r tag why s) := setPort_portsKeep (Nat.le_refl _) (.refl _)

theorem setAssembly_portsKeep (r : Rig) (a : Assembly) (s : Part) : PortsKeep s (setAssembly r a s) :=
  setPort_portsKeep (Nat.le_refl _) (.refl _)

theorem refuseGathered_portsKeep (r : Rig) (why : RefuseReason) (s : Part) : PortsKeep s (refuseGathered r why s) := by
  unfold refuseGathered
  split
  · exact refuseMessage_portsKeep _ _ _ s
  all_goals exact .refl s

theorem handLoss_portsKeep (r : Rig) (s : Part) : PortsKeep s (handLoss r s) := by
  unfold handLoss
  split
  · exact (refuseGathered_portsKeep _ _ s).trans (setAssembly_portsKeep _ _ _)
  all_goals exact .refl s

/-- R128: there is a slot of the kind that a command takes. -/
def HasRoom (p : Port) (reserved : Bool) : Prop :=
  if reserved then ∀ h ∈ p.slots, h.reserved = false else 0 < p.free

theorem occupy_portsKeep {r : Rig} {reserved : Bool} {s : Part} (room : HasRoom (s.port.get r) reserved)
    (msg : List Byte) : PortsKeep s (occupy r reserved msg s) := by
  refine ⟨fun ⟨ports, program⟩ => ⟨fun q => ?_, program⟩, fun fit q => ?_⟩
  · rw [occupy, setPort_port, PerRig.get_set]
    split
    · exact ports r
    · exact ports q
  · rw [occupy, setPort_port, PerRig.get_set]
    split
    · refine (fit r).concat rfl ?_
      cases reserved
      · exact Nat.lt_of_sub_pos room
      · exact room
    · exact (fit q).mono (Nat.le_succ _)

theorem reservedFree_iff (p : Port) : reservedFree p = true ↔ ∀ h ∈ p.slots, h.reserved = false := by
  simp [reservedFree]

theorem intake_portsKeep (r : Rig) (msg : List Byte) (s : Part) : PortsKeep s (intake r msg s) := by
  have taken {reserved : Bool} (room : HasRoom (s.port.get r) reserved) :
      PortsKeep s (judge r s.nextId msg (occupy r reserved msg s)) :=
    (occupy_portsKeep room msg).trans (judge_serves _ _ _ _).keep
  unfold intake
  split
  · exact refuseMessage_portsKeep _ _ _ s
  · split
    next free => exact taken free
    next =>
      split
      next cancel => exact taken ((reservedFree_iff _).mp cancel.2)
      next => exact refuseMessage_portsKeep _ _ _ s

theorem handChunk_portsKeep (r : Rig) (c : List Byte) (s : Part) : PortsKeep s (handChunk r c s) := by
  have cleared (why : RefuseReason) (a : Assembly) : PortsKeep s (setAssembly r a (refuseGathered r why s)) :=
    (refuseGathered_portsKeep _ _ s).trans (setAssembly_portsKeep _ _ _)
  have set (a : Assembly) : PortsKeep s (setAssembly r a s) := setAssembly_portsKeep _ _ s
  unfold handChunk
  dsimp only
  split
  · exact .refl s
  · exact cleared _ _
  · exact refuseMessage_portsKeep _ _ _ s
  · exact refuseMessage_portsKeep _ _ _ s
  · exact .ite (cleared _ _) (set _)
  · exact .refl s
  · exact .ite (cleared _ _) ((set _).trans (intake_portsKeep _ _ _))
  · exact set _
  · exact (cleared _ _).trans (intake_portsKeep _ _ _)
  · exact set _
  · exact refuseMessage_portsKeep _ _ _ s
  · exact cleared _ _
  · exact set _

/-! ## Receivers (R11 to R19) -/

theorem takeGood_portsKeep (r : Rig) (f : ForwardFrame) (relock : Bool) (s : Part) :
    PortsKeep s (takeGood r f relock s) :=
  (((setRx_same _ _ s).portsKeep rfl).trans ((writeFrame_same _ _ _).portsKeep rfl)).trans (handChunk_portsKeep _ _ _)

theorem takeBad_portsKeep (r : Rig) (s : Part) : PortsKeep s (takeBad r s) := by
  have recorded := (handLoss_portsKeep r s).trans ((setRx_same r (s.rx.get r).takeBad _).portsKeep rfl)
  unfold takeBad
  dsimp only
  split
  · exact recorded.trans ((writeFrame_same _ _ _).portsKeep rfl)
  · exact recorded

theorem takeGap_portsKeep (r : Rig) (k : Nat) (f : ForwardFrame) (s : Part) : PortsKeep s (takeGap r k f s) :=
  ((handLoss_portsKeep r s).trans ((fillFrames_same _ _ _).portsKeep rfl)).trans (takeGood_portsKeep _ _ _ _)

theorem takeResync_portsKeep (r : Rig) (f : ForwardFrame) (s : Part) : PortsKeep s (takeResync r f s) :=
  (((handLoss_portsKeep r s).trans ((flushRing_same _ _).portsKeep rfl)).trans ((setRx_same _ _ _).portsKeep rfl)).trans
    (takeGood_portsKeep _ _ _ _)

theorem verifyGood_portsKeep (r : Rig) (f : ForwardFrame) (s : Part) : PortsKeep s (verifyGood r f s) := by
  have recorded (rx : Receiver) : PortsKeep s (s.setRx r rx) := (setRx_same _ _ s).portsKeep rfl
  exact PortsKeep.ite ((recorded _).trans (takeGood_portsKeep _ _ _ _)) ((recorded _).trans (handChunk_portsKeep _ _ _))

theorem leaveLocked_portsKeep (r : Rig) (st : RxState) (s : Part) : PortsKeep s (leaveLocked r st s) :=
  (((((setRx_same _ _ s).portsKeep rfl).trans ((flushRing_same _ _).portsKeep rfl)).trans
    ((setHealth_same _ _ _).portsKeep rfl)).trans (handLoss_portsKeep _ _)).trans (sourceLost_serves _ _).keep

theorem activityLost_portsKeep (r : Rig) (s : Part) : PortsKeep s (activityLost r s) := by
  have recorded (rx : Receiver) (u : Part) : PortsKeep u (u.setRx r rx) := (setRx_same _ _ u).portsKeep rfl
  unfold activityLost
  dsimp only
  split
  · exact (recorded _ s).trans (leaveLocked_portsKeep _ _ _)
  · exact ((recorded _ s).trans (handLoss_portsKeep _ _)).trans (recorded _ _)
  all_goals exact (recorded _ s).trans (recorded _ _)

/-! ## The boundary -/

theorem trackerTurn_portsKeep (ord : Order) (s : Part) : PortsKeep s (trackerTurn ord s) := by
  have requested : PortsKeep s (requestPart ord s) := ((withTracker_same _ s).portsKeep rfl).trans
    (lossTurn_keeps PortsKeep.refl PortsKeep.trans
      (fun _ _ _ u => ((setRx_same _ _ u).portsKeep rfl).trans (leaveLocked_portsKeep _ _ _)) ord _)
  have align (o n : Tracker) (c : Option Correction) (t : Tracker) (u : Part) :
      PortsKeep u (raiseAlign o n c { u with tracker := t }) :=
    ((withTracker_same t u).portsKeep rfl).trans (raiseAlign_serves _ _ _ _).keep
  cases h : (derivedTracker s).side s.tables.setup.reference with
  | none =>
    rw [trackerTurn_of_none ord s h]
    exact requested.trans (align _ _ _ _ _)
  | some side =>
    rw [trackerTurn_of_some ord s side.1 side.2 h]
    exact (requested.trans ((moveRing_same _ _ _).portsKeep rfl)).trans (align _ _ _ _ _)

theorem commandReset_portsKeep (l : Lines) (s : Part) : PortsKeep s (commandReset l s) :=
  (commandReset_blocksReset l s).portsKeep

theorem openBoundary_portsKeep (l : Lines) (s : Part) : PortsKeep s (openBoundary l s) := by
  have opened (u : Part) : PortsKeep u (promote (owedTurn (adoptTurn (countTurn u)))) :=
    ((((countTurn_same u).portsKeep rfl).trans ((adoptTurn_same _).portsKeep rfl)).trans (owedTurn_serves _).keep).trans
      ((promote_same _).portsKeep rfl)
  exact ((endFrames_portsKeep s).trans (.when (commandReset_portsKeep l _))).trans (opened _)

theorem boundaryTurns_portsKeep (l : Lines) (ord : Order) (s : Part) : PortsKeep s (boundaryTurns l ord s) := by
  have clocked : Serves s (clockTurn (matchTurn (writesTurn (keyTurn l.key s)))) :=
    (((keyTurn_serves _ s).trans (applyWrites_serves _ _)).trans ((matchTurn_same _).serves rfl)).trans
      (clockTurn_serves _)
  exact (((clocked.trans (watchTurn_serves _ _ _)).keep.trans (trackerTurn_portsKeep _ _)).trans
    (switchTurn_serves _ _ _).keep).trans (gangTurn_serves _).keep

theorem boundary_portsKeep (l : Lines) (ord : Order) (s : Part) : PortsKeep s (boundary l ord s) := by
  rw [boundary_eq]
  exact (((openBoundary_portsKeep l s).trans (framesBefore_portsKeep _ _)).trans (boundaryTurns_portsKeep _ _ _)).trans
    (framesAfter_portsKeep _ _)

/-! ## Every command -/

theorem powerOn_portsKeep (l : Lines) (s : Part) : PortsKeep s (powerOn l s) := by
  cases h : s.inReset
  case false =>
    rw [powerOn_of_running l s h]
    exact (endReset_blocksReset l _ (powerCleared_blocksReset s)).portsKeep
  case true =>
    rw [powerOn_of_asserted l s h]
    exact (powerCleared_blocksReset s).portsKeep

/-- R128, R135: each command keeps the bounds of the ports. -/
theorem partAfter_portsKeep (c : Instr) (s : State) : PortsKeep s.toPart (partAfter c s) := by
  have running {f : Part → Part} (e : exec c s = onPart (unlessReset f) s) (h : Serves s.toPart (f s.toPart)) :
      PortsKeep s.toPart (partAfter c s) := by
    rw [partAfter_of_unlessReset e]
    exact unlessReset_portsKeep _ h.keep
  have inState {r : Rig} {st : RxState} {f : Part → Part} (h : PortsKeep s.toPart (f s.toPart)) :
      PortsKeep s.toPart (unlessReset (whenRx r st f) s.toPart) := unlessReset_portsKeep _ (whenRx_portsKeep _ _ _ h)
  have message (r : Rig) (tag code : Byte) (body : List Byte) :
      PortsKeep s.toPart (unlessReset (intake r (tag :: code :: body)) s.toPart) :=
    unlessReset_portsKeep _ (intake_portsKeep _ _ _)
  cases c with
  | powerOnReset l => exact powerOn_portsKeep _ _
  | lineResetAssert => exact unlessReset_portsKeep _ (lineAssert_blocksReset _).portsKeep
  | lineResetEnd l => exact .when ((endReset_same _ _).portsKeep rfl)
  | commandReset l => exact unlessReset_portsKeep _ (.when (commandReset_portsKeep _ _))
  | localFrameBoundary l ord => exact unlessReset_portsKeep _ (boundary_portsKeep _ _ _)
  | outputSamplePeriod => exact running rfl (samplePeriod_serves _)
  | fadeComplete g =>
    refine running rfl ?_
    split
    · exact .when (completesAlone_serves _ _ _)
    · exact .refl _
  | lineActivityLost x => exact .ite ((setRx_same _ _ _).portsKeep rfl) (activityLost_portsKeep _ _)
  | verifyGoodFrame x f => exact inState (verifyGood_portsKeep _ _ _)
  | verifyFailed x => exact inState ((handLoss_portsKeep _ _).trans ((setRx_same _ _ _).portsKeep rfl))
  | goodFrame x f => exact inState (.when (takeGood_portsKeep _ _ _ _))
  | badCheckFrame x => exact inState (takeBad_portsKeep _ _)
  | missingSyncWord x =>
    exact inState (.ite (leaveLocked_portsKeep _ _ _) ((takeBad_portsKeep _ _).trans ((setRx_same _ _ _).portsKeep rfl)))
  | sequenceGap x f => exact inState (.when (takeGap_portsKeep _ _ _ _))
  | resync x f => exact inState (.when (takeResync_portsKeep _ _ _))
  | refSignalLost =>
    have lost (k : FrameClock) : PortsKeep s.toPart { s.toPart with clock := k } := (withClock_same _ _).portsKeep rfl
    exact .ite (lost _) ((lost _).trans (sourceLost_serves _ _).keep)
  | sourceQualified src => exact running rfl (.when (((withClock_same _ _).serves rfl).trans (selectBetter_serves _)))
  | causeConfirmed x k | causeCleared x k => exact running rfl (causeStep_serves _ _ _ _ _)
  | returnHoldExpiry g => exact running rfl (returnHold_serves _ _)
  | takeover => exact running rfl (.when (takeOver_serves _))
  | keyStateChange => exact running rfl (.when (keyChange_serves _ _))
  | writeTakesEffect => exact running rfl ((applyTableWrites_serves _ _).trans (settleWrites_serves _ _))
  | setModeTakesEffect | bypassTakesEffect => exact running rfl (applyHead_serves _ _)
  | moveGroupExecute name => exact running rfl (.foldl (fun _ _ => executeIfReady_serves _ _) _ _)
  | moveGroupTimeout name => exact running rfl (.foldl (fun _ _ => timeoutIfDue_serves _ _) _ _)
  | saveComplete verified => exact .when (saveDone_serves _ _).keep
  | deferredLoad =>
    refine running rfl ?_
    split
    · exact .when ((applyHead_serves _ _).trans (settleWrites_serves _ _))
    · exact .refl _
  | gangFrameReceived b => exact running rfl (gangFrame_serves _ _)
  | gangLinkUp => exact running rfl (.when (linkUp_serves _))
  | gangLinkLost => exact running rfl (.when (((withGang_same _ _).serves rfl).trans (linkLost_serves _)))
  | gangMoveStart g => exact running rfl ((startPendingMove_serves _ _).trans (settleArrivals_serves _))
  | identify | readStatus | readHealth | readCounts | readRoute | readGroup | readWatch | readAlign | writeRoute |
      writeGroup | writeWatch | writeSetup | restoreDefaults | moveGroup | setMode | markRig | cancel | setLock | save |
      bypass | reset | unknownCommand => exact message _ _ _ _
  | returnFrameSent r => exact unlessReset_portsKeep _ (endReturn_portsKeep _ _)
  | _ => exact (partAfter_same _ s).portsKeep rfl

/-- Settles O5. -/
theorem noticeQueuesStayBounded : Obligations.NoticeQueuesStayBounded := fun s t hs hstep =>
  step_keeps (P := noticesOk) (fun c s => (partAfter_portsKeep c s).notices) s t hs hstep

/-- Settles O6. -/
theorem slotsStayBounded : Obligations.SlotsStayBounded := fun s t slots ids hstep =>
  (portsFit_iff t.toPart).mp (step_keeps (P := PortsFit) (fun c s => (partAfter_portsKeep c s).slots) s t
    ((portsFit_iff s.toPart).mpr ⟨slots, ids⟩) hstep)

end Sys2Proof.Machine
end

section
/-! Intake (R126 to R128): what a complete message makes of its port. -/

namespace Sys2Proof.Machine

/-! ## What intake decides -/

/-- R126: a message too short, or of the tag that no command has. -/
theorem intake_of_broken {r : Rig} {msg : List Byte} {s : Part} (h : msg.length < 3 ∨ byteAt msg 0 = 0xFF#8) :
    intake r msg s = refuseMessage r (refusedTag msg) .broken s := if_pos h

/-- R127: no slot is free for the message. -/
theorem intake_of_noSlot {r : Rig} {msg : List Byte} {s : Part} (h : ¬(msg.length < 3 ∨ byteAt msg 0 = 0xFF#8))
    (full : (s.port.get r).free = 0)
    (denied : byteAt msg 1 ≠ Code.cancel.byte ∨ ∃ h ∈ (s.port.get r).slots, h.reserved = true) :
    intake r msg s = refuseMessage r (refusedTag msg) .noSlot s := by
  have noCancel : ¬(byteAt msg 1 = Code.cancel.byte ∧ reservedFree (s.port.get r) = true) := by
    rintro ⟨cancel, free⟩
    obtain other | ⟨held, mem, reserved⟩ := denied
    · exact other cancel
    · exact Bool.false_ne_true (((reservedFree_iff _).mp free held mem).symm.trans reserved)
  rw [intake, if_neg h, if_neg full.not_gt, if_neg noCancel]

/-- R127: the command takes a general slot, and the reserved one only where no general slot is free. -/
theorem intake_of_room {r : Rig} {msg : List Byte} {s : Part} (h : ¬(msg.length < 3 ∨ byteAt msg 0 = 0xFF#8))
    (room : 0 < (s.port.get r).free ∨
      (byteAt msg 1 = Code.cancel.byte ∧ ∀ h ∈ (s.port.get r).slots, h.reserved = false)) :
    intake r msg s =
      judge r s.nextId msg (occupy r (decide ((s.port.get r).free = 0)) msg s) := by
  rw [intake, if_neg h]
  by_cases free : 0 < (s.port.get r).free
  · rw [if_pos free, decide_eq_false free.ne']
  · obtain ⟨cancel, unheld⟩ := room.resolve_left free
    rw [if_neg free, if_pos ⟨cancel, (reservedFree_iff _).mpr unheld⟩, decide_eq_true (Nat.eq_zero_of_not_pos free)]

/-! ## What a taken command leaves -/

theorem Port.respond_refused (p : Port) (id : Nat) (st : Status) (i : Nat) (results : List Byte) :
    (p.respond id st i results).refTag = p.refTag ∧ (p.respond id st i results).refReason = p.refReason := by
  unfold Port.respond
  split
  · exact ⟨rfl, rfl⟩
  · split <;> exact ⟨rfl, rfl⟩

/-- R126: nothing but a refusal changes the intake status of a port. -/
theorem Serves.refused {s t : Part} (h : Serves s t) (r : Rig) :
    (t.port.get r).refTag = (s.port.get r).refTag ∧ (t.port.get r).refReason = (s.port.get r).refReason := by
  induction h with
  | stand port =>
    rw [port]
    exact ⟨rfl, rfl⟩
  | notice n s =>
    rw [raise, PerRig.get_map]
    exact ⟨rfl, rfl⟩
  | phase q id ph s =>
    rw [Machine.setPhase, setPort_port, PerRig.get_set]
    split
    next own => exact own ▸ ⟨rfl, rfl⟩
    next => exact ⟨rfl, rfl⟩
  | response q id st i results s =>
    rw [respond_port]
    split
    · exact Port.respond_refused ..
    · exact ⟨rfl, rfl⟩
  | trans _ _ h k => exact ⟨k.1.trans h.1, k.2.trans h.2⟩

theorem occupy_port (r : Rig) (reserved : Bool) (msg : List Byte) (s : Part) :
    (occupy r reserved msg s).port.get r = { s.port.get r with
      slots := (s.port.get r).slots ++ [⟨s.nextId, byteAt msg 0, byteAt msg 1, reserved, .taken⟩] } :=
  PerRig.get_set_self ..

/-- From `s` to `t` port `r` has taken a command into a slot, and refused nothing. -/
def TakenIn (r : Rig) (tag code : Byte) (reserved : Bool) (s t : Part) : Prop :=
  t.nextId = s.nextId + 1 ∧ (t.port.get r).slots.length = (s.port.get r).slots.length + 1 ∧
    (t.port.get r).refTag = (s.port.get r).refTag ∧ (t.port.get r).refReason = (s.port.get r).refReason ∧
    ∃ h ∈ (t.port.get r).slots, h.id = s.nextId ∧ h.tag = tag ∧ h.code = code ∧ h.reserved = reserved

/-- R127: a command holds its slot, however it is judged. -/
theorem judge_takenIn (r : Rig) (tag code : Byte) (body : List Byte) (reserved : Bool) (s : Part) :
    TakenIn r tag code reserved s
      (judge r s.nextId (tag :: code :: body) (occupy r reserved (tag :: code :: body) s)) := by
  have served := judge_serves r s.nextId (tag :: code :: body) (occupy r reserved (tag :: code :: body) s)
  have seats := served.seats r
  obtain ⟨refTag, refReason⟩ := served.refused r
  rw [occupy_port] at seats refTag refReason
  have count := congrArg List.length seats
  rw [List.length_map, List.length_map, List.length_append, List.length_singleton] at count
  have new : (s.nextId, tag, code, reserved) ∈ ((judge r s.nextId (tag :: code :: body)
      (occupy r reserved (tag :: code :: body) s)).port.get r).slots.map Held.seat := by
    rw [seats, List.map_append]
    exact List.mem_append_right _ (List.mem_singleton.mpr rfl)
  obtain ⟨h, mem, seat⟩ := List.mem_map.mp new
  obtain ⟨number, hasTag, hasCode, kind⟩ : h.id = s.nextId ∧ h.tag = tag ∧ h.code = code ∧ h.reserved = reserved := by
    simpa [Held.seat] using seat
  exact ⟨served.nextId, count, refTag, refReason, h, mem, number, hasTag, hasCode, kind⟩

/-! ## Messages -/

/-- A message by the row that carries it. -/
theorem exec_carrier {r : Rig} {tag code : Byte} {body : List Byte} {i : Instr} {s : State} (h : s.inReset = false)
    (row : (∃ c : Code, code = c.byte ∧ i = rowOf c r tag body) ∨
      (code ∉ commandCodes ∧ i = .unknownCommand r tag code body)) :
    exec i s = .next (s.withPart (intake r (tag :: code :: body) s.toPart)) := by
  obtain ⟨c, rfl, rfl⟩ | ⟨-, rfl⟩ := row
  · exact exec_of_running (exec_rowOf c r tag body s) h
  · exact exec_of_running (f := intake r (tag :: code :: body)) rfl h

/-- R126: the messages that are broken. -/
theorem broken_iff (tag code : Byte) (body : List Byte) :
    ((tag :: code :: body).length < 3 ∨ byteAt (tag :: code :: body) 0 = 0xFF#8) ↔ body = [] ∨ tag = 0xFF#8 := by
  refine or_congr ?_ Iff.rfl
  rw [List.length_cons, List.length_cons, ← List.length_eq_zero_iff]
  omega

/-- Settles O36. -/
theorem intakeOfMessages : Obligations.Intake := by
  intro r tag code body i s running row
  rw [exec_carrier running row]
  have whole (content : body ≠ []) (named : tag ≠ 0xFF#8) :=
    mt (broken_iff tag code body).mp (not_or.mpr ⟨content, named⟩)
  refine ⟨fun broken => ?_, fun content named full denied => ?_, fun content named _ room => ?_⟩
  · rw [intake_of_broken ((broken_iff tag code body).mpr broken)]
    rfl
  · rw [intake_of_noSlot (whole content named) full denied]
    rfl
  · obtain ⟨number, count, refTag, refReason, h, mem, id, hasTag, hasCode, kind⟩ :=
      judge_takenIn r tag code body (decide ((s.port.get r).free = 0)) s.toPart
    refine ⟨_, rfl, ?_⟩
    rw [intake_of_room (whole content named) room]
    exact ⟨number, count, refTag, refReason, h, mem, id, hasTag, hasCode, by rw [kind, decide_eq_true_iff]⟩

end Sys2Proof.Machine
end

section
/-! Return frames: the records of responses and notices (R131, R136, R137), the chunks of a lane (R132, R133) and the end of
a return frame (R128, R134). -/

namespace Sys2Proof.Machine

/-! ## Records (R131, R136, R137) -/

theorem Response.bytes_eq (a : Response) : a.bytes = [a.tag, a.code, BitVec.ofNat 8 a.status.code, BitVec.ofNat 8 a.index,
    BitVec.ofNat 8 a.results.length] ++ a.results := rfl

theorem Notice.bytes_eq (frame : Word) (b : NoticeBody) (gap : Bool) : Notice.bytes ⟨frame, b⟩ gap =
    [0xFF#8, BitVec.ofNat 8 b.bytes.1, BitVec.ofNat 8 (bit gap)] ++ be32 frame ++ b.bytes.2 := rfl

/-- R137: the longest body of a notice is that of a move of the tracker. -/
theorem NoticeBody.bytes_length_le (b : NoticeBody) : b.bytes.2.length ≤ 21 := by
  cases b with
  | align old new stable corr =>
    cases corr <;> simp [NoticeBody.bytes, be8, beInt, be32_length]
  | _ => simp [NoticeBody.bytes, be8, be16_length]

/-- R136, R137: a notice is sent in one chunk. -/
theorem Notice.bytes_length_le (n : Notice) (gap : Bool) : (n.bytes gap).length ≤ 30 := by
  have body := n.body.bytes_length_le
  rw [Notice.bytes_eq n.frame n.body gap, List.length_append, List.length_append, be32_length]
  exact Nat.add_le_add_left (body.trans (by decide : 21 ≤ 23)) 7

/-! ## Chunks (R5, R132) -/

theorem chunk_take (type : Byte) (rest : List Byte) : chunk type (rest.take 30) =
    [type, BitVec.ofNat 8 (min 30 rest.length)] ++ rest.take 30 ++ List.replicate (30 - rest.length) 0#8 := by
  have pad : 30 - min 30 rest.length = 30 - rest.length := by omega
  rw [chunk, List.length_take, pad]

theorem chunk_payload (type : Byte) (payload : List Byte) :
    (chunk type payload).drop 2 = payload ++ List.replicate (30 - payload.length) 0#8 := rfl

/-- R132: the payload of a message's first chunk. -/
theorem nextChunk_start_payload (kind : SendKind) (bytes : List Byte) :
    ((nextChunk ⟨kind, bytes, 0⟩).1.drop 2).take (min 30 bytes.length) = bytes.take 30 := by
  rw [nextChunk, chunk_payload]
  exact List.take_left' List.length_take

/-- R132: a message of one chunk. -/
theorem nextChunk_single (kind : SendKind) (bytes : List Byte) (short : bytes.length ≤ 30) :
    nextChunk ⟨kind, bytes, 0⟩ =
      ([4#8, BitVec.ofNat 8 bytes.length] ++ bytes ++ List.replicate (30 - bytes.length) 0#8, bytes.length) := by
  simp only [nextChunk, List.drop_zero, if_pos short, if_true, Nat.min_eq_right short, Nat.zero_add,
    List.take_of_length_le short]
  rfl

/-! ## What a lane sends (R132, R133) -/

theorem Lane.send_of_cancelFirst {l : Lane} (h : l.cancelFirst = true) (pause : Bool) (q : List Response) :
    l.send pause q = (cancelChunk, { l with cancelFirst := false }, q) := if_pos h

theorem Lane.send_of_paused {l : Lane} (h : l.cancelFirst = false) (q : List Response) :
    l.send true q = (emptyChunk, l, q) := by
  rw [Lane.send, if_neg (Bool.eq_false_iff.mp h), if_pos rfl]

theorem Lane.send_of_free {l : Lane} (h : l.cancelFirst = false) (q : List Response) : l.send false q = l.choose q := by
  rw [Lane.send, if_neg (Bool.eq_false_iff.mp h), if_neg Bool.false_ne_true]

theorem Lane.choose_of_inSend {l : Lane} {m : InSend} (h : l.inSend = some m) (q : List Response) :
    l.choose q = ((nextChunk m).1, { l with inSend := some { m with sent := (nextChunk m).2 } }, q) := by
  unfold Lane.choose
  rw [h]

theorem Lane.choose_of_response {l : Lane} (h : l.inSend = none) (a : Response) (more : List Response) :
    l.choose (a :: more) =
      ((nextChunk ⟨.response a.id (a.code == Code.reset.byte && a.status == .ok), a.bytes, 0⟩).1,
        { l with inSend := some ⟨.response a.id (a.code == Code.reset.byte && a.status == .ok), a.bytes,
          min 30 a.bytes.length⟩ }, more) := by
  rw [Lane.choose, h]
  simp only [nextChunk, List.drop_zero, Nat.zero_add]

theorem Lane.choose_of_notice {l : Lane} {n : Notice} {more : List Notice} (h : l.inSend = none)
    (queue : l.notices = n :: more) :
    l.choose [] = ((nextChunk ⟨.notice l.gapPending, n.bytes l.gapPending, 0⟩).1,
      { l with
        notices := more
        gapPending := false
        inSend := some ⟨.notice l.gapPending, n.bytes l.gapPending, (n.bytes l.gapPending).length⟩ }, []) := by
  rw [Lane.choose, h, queue]
  simp only [nextChunk_single _ _ (n.bytes_length_le _)]

theorem Lane.choose_of_nothing {l : Lane} (h : l.inSend = none) (queue : l.notices = []) :
    l.choose [] = (emptyChunk, l, []) := by
  rw [Lane.choose, h, queue]

/-! ## The frame that carries the chunk (R6) -/

theorem sendChunk_port (r : Rig) (s : Part) : (sendChunk r s).2.port.get r = { s.port.get r with
    lane := ((s.port.get r).lane.send (paused s r) (s.port.get r).responses).2.1
    responses := ((s.port.get r).lane.send (paused s r) (s.port.get r).responses).2.2 } := PerRig.get_set_self ..

/-! ## The end of a return frame (R128, R134) -/

theorem InSend.finished_iff (m : InSend) : m.finished = true ↔ 0 < m.sent ∧ m.bytes.length ≤ m.sent := by
  rw [InSend.finished, Bool.and_eq_true, decide_eq_true_iff, decide_eq_true_iff]

theorem Lane.sent_of_unfinished {l : Lane} (h : ∀ m, l.inSend = some m → m.finished = false) : l.sent = l := by
  unfold Lane.sent
  split
  next m inSend => rw [h m inSend, if_neg Bool.false_ne_true]
  next => rfl

theorem Lane.sent_of_finished {l : Lane} {m : InSend} (inSend : l.inSend = some m) (h : m.finished = true) :
    l.sent = { l with inSend := none } := by
  rw [Lane.sent, inSend]
  exact if_pos h

section
variable {r : Rig} {s : Part} {frame : List Byte} (out : (s.port.get r).out = some frame)
include out

/-- R132: the frame carried no last chunk of a message. -/
theorem endReturn_of_unfinished (h : ∀ m, (s.port.get r).lane.inSend = some m → m.finished = false) :
    endReturn r s = s.setPort r { s.port.get r with out := none } := by
  unfold endReturn
  dsimp only
  rw [out, Lane.sent_of_unfinished h]
  dsimp only
  split
  · rfl
  next m inSend => rw [h m inSend, if_neg Bool.false_ne_true]

/-- R128, R134: the frame carried the last chunk of a response. -/
theorem endReturn_of_response {m : InSend} {id : Nat} {resets : Bool} (inSend : (s.port.get r).lane.inSend = some m)
    (last : m.finished = true) (kind : m.kind = .response id resets) :
    endReturn r s = { s.setPort r (Port.freeSlot { s.port.get r with
        out := none, lane := { (s.port.get r).lane with inSend := none } } id) with
      resetRequested := s.resetRequested || resets } := by
  unfold endReturn
  dsimp only
  rw [out, Lane.sent_of_finished inSend last, inSend]
  dsimp only
  rw [if_pos last, kind]

/-- R132: the frame carried a notice. -/
theorem endReturn_of_notice {m : InSend} {gap : Bool} (inSend : (s.port.get r).lane.inSend = some m)
    (last : m.finished = true) (kind : m.kind = .notice gap) :
    endReturn r s = s.setPort r { s.port.get r with
      out := none, lane := { (s.port.get r).lane with inSend := none } } := by
  unfold endReturn
  dsimp only
  rw [out, Lane.sent_of_finished inSend last, inSend]
  dsimp only
  rw [if_pos last, kind]

end

theorem exec_returnFrameSent (r : Rig) {s : State} (h : s.inReset = false) :
    exec (.returnFrameSent r) s = .next (s.withPart (endReturn r s.toPart)) :=
  exec_of_running (f := endReturn r) rfl h

/-- Settles O45. -/
theorem returnFrameSent : Obligations.ReturnFrameSent := by
  refine ⟨Response.bytes_eq, rfl, ?records, ⟨rfl, rfl⟩, ?ends, ?sends, ?begins⟩
  case records =>
    rintro frame gap record rfl
    exact ⟨fun _ _ _ _ _ _ _ _ => Notice.bytes_eq .., fun _ _ _ _ _ _ _ => Notice.bytes_eq ..,
      fun _ _ _ _ _ => ⟨Notice.bytes_eq .., Notice.bytes_eq ..⟩, fun _ _ _ => Notice.bytes_eq ..,
      fun _ _ _ => Notice.bytes_eq .., fun _ _ _ => Notice.bytes_eq .., fun _ _ => Notice.bytes_eq ..,
      fun _ _ => Notice.bytes_eq ..⟩
  case ends =>
    intro r s frame running out
    rw [exec_returnFrameSent r running]
    refine ⟨fun idle => ?_, fun m inSend more => ?_, fun m id resets inSend begun last kind => ?_,
      fun m gap inSend begun last kind => ?_⟩
    · rw [endReturn_of_unfinished out fun m inSend => absurd (idle.symm.trans inSend) nofun]
      rfl
    · have unfinished : m.finished = false :=
        Bool.eq_false_iff.mpr fun last => ((m.finished_iff.mp last).2.trans_lt more).false
      rw [endReturn_of_unfinished out fun k among => Option.some.inj (inSend.symm.trans among) ▸ unfinished]
      rfl
    · rw [endReturn_of_response out inSend (m.finished_iff.mpr ⟨begun, last⟩) kind]
      refine ⟨_, rfl, rfl, ?_⟩
      simp [Port.freeSlot]
    · rw [endReturn_of_notice out inSend (m.finished_iff.mpr ⟨begun, last⟩) kind]
      rfl
  case sends =>
    refine fun l pause q => ⟨fun owed => Lane.send_of_cancelFirst owed _ _, fun free paused => ?_,
      fun free unpaused => ?_⟩
    · rw [paused]
      exact Lane.send_of_paused free q
    · rw [unpaused, Lane.send_of_free free]
      refine ⟨fun m rest type inSend hrest _ htype => ?_, fun a more idle queue => ?_,
        fun n more idle noResponse queue => ?_, fun idle noResponse queue => ?_⟩
      · subst hrest htype
        rw [Lane.choose_of_inSend inSend, ← chunk_take]
        rfl
      · rw [queue, Lane.choose_of_response idle]
        exact ⟨rfl, rfl, rfl, nextChunk_start_payload _ _⟩
      · rw [noResponse, Lane.choose_of_notice idle queue, nextChunk_single _ _ (n.bytes_length_le _)]
      · rw [noResponse]
        exact Lane.choose_of_nothing idle queue
  case begins =>
    rintro r s _ rfl
    rw [beginReturn_port, sendChunk_port]
    exact ⟨rfl, rfl, _, summaryBytes_length (sendChunk r s).2 r, rfl⟩

end Sys2Proof.Machine
end

section
/-! The Show Lock (R157, R161, R162): what each operation makes of KEY and the level, and that every step keeps an asserted
KEY and the level OPEN apart. -/

namespace Sys2Proof.Machine

/-! ## The level (R157, R161, R162) -/

theorem setLevel_lock (level : LockLevel) (byKey : Bool) (s : Part) :
    (setLevel level byKey s).lock = { s.lock with level } := by
  unfold setLevel
  split
  next same => rw [← same]
  next => rfl

/-- R157: a level asked for that differs from the level in force is taken with its notice. -/
theorem setLevel_of_ne {level : LockLevel} (byKey : Bool) {s : Part} (other : s.lock.level ≠ level) :
    setLevel level byKey s = raise (.lock s.lock.level level byKey) { s with lock := { s.lock with level } } :=
  if_neg other

theorem setLevel_of_eq {level : LockLevel} (byKey : Bool) {s : Part} (same : s.lock.level = level) :
    setLevel level byKey s = s := if_pos same

/-- R157: what SET_LOCK does not take: the release of FROZEN, and the release of GUARDED against an asserted KEY. -/
theorem lockAllows_eq_false (level asked : LockLevel) (key : Bool) : lockAllows level asked key = false ↔
    (level = .frozen ∧ asked ≠ .frozen) ∨ (level = .guarded ∧ asked = .opened ∧ key = true) := by
  cases level with
  | opened => simp [lockAllows]
  | guarded => cases asked <;> simp [lockAllows]
  | frozen => cases asked <;> simp [lockAllows]

theorem takeSetLock_lock (r : Rig) (id : Nat) (asked : LockLevel) (s : Part) : (takeSetLock r id asked s).lock =
    if lockAllows s.lock.level asked s.lock.key then { s.lock with level := asked } else s.lock := by
  unfold takeSetLock
  split
  · exact setLevel_lock asked false s
  · rfl

theorem keyChange_lock (line : Bool) (s : Part) : (keyChange line s).lock =
    { level := if line && s.lock.level == .opened then .guarded else s.lock.level, key := line, count := 0 } := by
  unfold keyChange
  split
  · exact setLevel_lock ..
  · rfl

/-! ## What keeps KEY and OPEN apart -/

/-- From `s` to `t` no asserted KEY comes to stand beside the level OPEN (R162). -/
def KeyGuards (s t : Part) : Prop := lockOk s → lockOk t

theorem KeyGuards.refl (s : Part) : KeyGuards s s := id

theorem KeyGuards.trans {s t u : Part} (h : KeyGuards s t) (k : KeyGuards t u) : KeyGuards s u := k ∘ h

theorem KeyGuards.ite {s a b : Part} {p : Prop} [Decidable p] (ha : KeyGuards s a) (hb : KeyGuards s b) :
    KeyGuards s (if p then a else b) := by
  split
  · exact ha
  · exact hb

theorem KeyGuards.when {s a : Part} {p : Prop} [Decidable p] (h : KeyGuards s a) : KeyGuards s (if p then a else s) :=
  .ite h (.refl s)

/-- KEY and the level are all that the invariant speaks of. -/
theorem keyGuards_of_lock {s t : Part} (key : t.lock.key = s.lock.key) (level : t.lock.level = s.lock.level) :
    KeyGuards s t := fun ok asserted => level ▸ ok (key ▸ asserted)

theorem Same.keyGuards {F : List Block} {s t : Part} (h : Same F s t) (hF : F.contains .lock = false) : KeyGuards s t :=
  have lock : t.lock = s.lock := h.get .lock hF
  keyGuards_of_lock (congrArg ShowLock.key lock) (congrArg ShowLock.level lock)

/-! ## Messages (R157) -/

/-- R157: while KEY is asserted SET_LOCK does not open a level that is not OPEN. -/
theorem takeSetLock_keyGuards (r : Rig) (id : Nat) (asked : LockLevel) (s : Part) :
    KeyGuards s (takeSetLock r id asked s) := by
  intro ok
  rw [lockOk, takeSetLock_lock]
  split
  next allowed =>
    rintro asserted rfl
    have refused : lockAllows s.lock.level .opened s.lock.key = false := by
      rw [lockAllows_eq_false]
      cases level : s.lock.level with
      | opened => exact absurd level (ok asserted)
      | guarded => exact .inr ⟨rfl, rfl, asserted⟩
      | frozen => exact .inl ⟨rfl, nofun⟩
    exact absurd (allowed.symm.trans refused) nofun
  next => exact ok

theorem perform_keyGuards (r : Rig) (id : Nat) (c : Command) (s : Part) : KeyGuards s (perform r id c s) := by
  cases c with
  | setLock level => exact takeSetLock_keyGuards r id level s
  | _ => exact (perform_blocks r id _ s).keyGuards rfl

theorem judge_keyGuards (r : Rig) (id : Nat) (msg : List Byte) (s : Part) : KeyGuards s (judge r id msg s) := by
  have answered (st : Status) (i : Nat) : KeyGuards s (respond r id st i [] s) :=
    (respond_same _ _ _ _ _ _).keyGuards rfl
  unfold judge
  split
  · exact answered _ _
  · split
    · exact answered _ _
    · refine .ite (answered _ _) (.ite (answered _ _) (.ite (answered _ _) ?_))
      split
      · exact answered _ _
      · exact perform_keyGuards _ _ _ _

theorem intake_keyGuards (r : Rig) (msg : List Byte) (s : Part) : KeyGuards s (intake r msg s) := by
  have refused (why : RefuseReason) : KeyGuards s (refuseMessage r (refusedTag msg) why s) :=
    (refuseMessage_same _ _ _ _).keyGuards rfl
  have taken (reserved : Bool) : KeyGuards s (judge r s.nextId msg (occupy r reserved msg s)) :=
    ((occupy_same _ _ _ _).keyGuards rfl).trans (judge_keyGuards _ _ _ _)
  exact .ite (refused _) (.ite (taken _) (.ite (taken _) (refused _)))

theorem handChunk_keyGuards (r : Rig) (c : List Byte) (s : Part) : KeyGuards s (handChunk r c s) :=
  handChunk_keeps (R := KeyGuards) .trans (fun h => h.keyGuards rfl) intake_keyGuards r c s

/-! ## Frames that hand a chunk on (R13, R14, R17, R18) -/

theorem takeGood_keyGuards (r : Rig) (f : ForwardFrame) (relock : Bool) (s : Part) :
    KeyGuards s (takeGood r f relock s) :=
  (((setRx_same _ _ _).keyGuards rfl).trans ((writeFrame_same _ _ _).keyGuards rfl)).trans (handChunk_keyGuards _ _ _)

theorem takeGap_keyGuards (r : Rig) (k : Nat) (f : ForwardFrame) (s : Part) : KeyGuards s (takeGap r k f s) :=
  (((handLoss_same _ _).keyGuards rfl).trans ((fillFrames_same _ _ _).keyGuards rfl)).trans (takeGood_keyGuards _ _ _ _)

theorem takeResync_keyGuards (r : Rig) (f : ForwardFrame) (s : Part) : KeyGuards s (takeResync r f s) :=
  (((handLoss_same _ _).keyGuards rfl).trans ((flushRing_same _ _).keyGuards rfl)).trans
    (((setRx_same _ _ _).keyGuards rfl).trans (takeGood_keyGuards _ _ _ _))

theorem verifyGood_keyGuards (r : Rig) (f : ForwardFrame) (s : Part) : KeyGuards s (verifyGood r f s) :=
  .ite (((setRx_same _ _ _).keyGuards rfl).trans (takeGood_keyGuards _ _ _ _))
    (((setRx_same _ _ _).keyGuards rfl).trans (handChunk_keyGuards _ _ _))

/-! ## The KEY line and the resets (R161, R162) -/

/-- R162: KEY that becomes asserted takes OPEN to GUARDED. -/
theorem keyChange_lockOk (line : Bool) (s : Part) : lockOk (keyChange line s) := by
  rw [lockOk, keyChange_lock]
  rintro rfl
  cases level : s.lock.level <;> simp

theorem keyTurn_keyGuards (line : Bool) (s : Part) : KeyGuards s (keyTurn line s) :=
  .ite (keyGuards_of_lock rfl rfl) (.ite (fun _ => keyChange_lockOk line s) (keyGuards_of_lock rfl rfl))

/-- R161: the level that a reset ends with is OPEN only where KEY is released. -/
theorem endReset_lockOk (l : Lines) (s : Part) : lockOk (endReset l s) := by
  rw [lockOk, endReset_lock]
  intro (asserted : l.key = true)
  rw [levelAfter, asserted]
  split <;> nofun

theorem powerOn_lockOk (l : Lines) (s : Part) : lockOk (powerOn l s) := by
  cases h : s.inReset with
  | false =>
    rw [powerOn_of_running l s h]
    exact endReset_lockOk l _
  | true =>
    rw [powerOn_of_asserted l s h]
    exact nofun

theorem commandReset_lockOk (l : Lines) (s : Part) : lockOk (commandReset l s) := endReset_lockOk l _

/-! ## The boundary -/

theorem openBoundary_keyGuards (l : Lines) (s : Part) : KeyGuards s (openBoundary l s) := by
  have opened (u : Part) : KeyGuards u (promote (owedTurn (adoptTurn (countTurn u)))) :=
    ((((countTurn_same u).keyGuards rfl).trans ((adoptTurn_same _).keyGuards rfl)).trans
      ((owedTurn_same _).keyGuards rfl)).trans ((promote_same _).keyGuards rfl)
  have reset : KeyGuards (endFrames s) (commandReset l (endFrames s)) := fun _ => commandReset_lockOk l _
  exact (((endFrames_same s).keyGuards rfl).trans (.when reset)).trans (opened _)

theorem boundaryTurns_keyGuards (l : Lines) (ord : Order) (s : Part) : KeyGuards s (boundaryTurns l ord s) := by
  have clocked : KeyGuards s (clockTurn (matchTurn (writesTurn (keyTurn l.key s)))) :=
    (((keyTurn_keyGuards l.key s).trans ((writesTurn_same _).keyGuards rfl)).trans
      ((matchTurn_same _).keyGuards rfl)).trans ((clockTurn_same _).keyGuards rfl)
  have tracked := (clocked.trans ((watchTurn_same ord s.health _).keyGuards rfl)).trans
    ((trackerTurn_same ord _).keyGuards rfl)
  exact (tracked.trans ((switchTurn_same l ord _).keyGuards rfl)).trans ((gangTurn_same _).keyGuards rfl)

theorem boundary_keyGuards (l : Lines) (ord : Order) (s : Part) : KeyGuards s (boundary l ord s) := by
  rw [boundary_eq]
  exact (((openBoundary_keyGuards l s).trans ((framesBefore_same ord _).keyGuards rfl)).trans
    (boundaryTurns_keyGuards l ord _)).trans ((framesAfter_same ord _).keyGuards rfl)

/-! ## Every command -/

theorem unlessReset_keyGuards {f : Part → Part} {s : Part} (h : KeyGuards s (f s)) : KeyGuards s (unlessReset f s) :=
  .ite (.refl s) h

/-- R162: each command keeps an asserted KEY and OPEN apart. -/
theorem partAfter_keyGuards (c : Instr) (s : State) : KeyGuards s.toPart (partAfter c s) := by
  have inState {r : Rig} {st : RxState} {f : Part → Part} (h : KeyGuards s.toPart (f s.toPart)) :
      KeyGuards s.toPart (unlessReset (whenRx r st f) s.toPart) := unlessReset_keyGuards (.when h)
  have message (r : Rig) (tag code : Byte) (body : List Byte) :
      KeyGuards s.toPart (unlessReset (intake r (tag :: code :: body)) s.toPart) :=
    unlessReset_keyGuards (intake_keyGuards _ _ _)
  cases c with
  | powerOnReset l => exact fun _ => powerOn_lockOk l _
  | lineResetAssert => exact unlessReset_keyGuards (keyGuards_of_lock rfl rfl)
  | lineResetEnd l => exact .when fun _ => endReset_lockOk l _
  | commandReset l => exact unlessReset_keyGuards (.when fun _ => commandReset_lockOk l _)
  | localFrameBoundary l ord => exact unlessReset_keyGuards (boundary_keyGuards l ord _)
  | keyStateChange => exact unlessReset_keyGuards (.when fun _ => keyChange_lockOk _ _)
  | verifyGoodFrame x f => exact inState (verifyGood_keyGuards _ _ _)
  | goodFrame x f => exact inState (.when (takeGood_keyGuards _ _ _ _))
  | sequenceGap x f => exact inState (.when (takeGap_keyGuards _ _ _ _))
  | resync x f => exact inState (.when (takeResync_keyGuards _ _ _))
  | setLock r tag body => exact message r tag _ body
  | unknownCommand r tag code body => exact message r tag code body
  | _ => exact (partAfter_same _ s).keyGuards rfl

/-- Settles O4: every command keeps KEY and OPEN apart, so every step does. -/
theorem keyGuardsTheLock : Obligations.KeyGuardsTheLock := step_keeps partAfter_keyGuards

end Sys2Proof.Machine
end

section
/-! SET_MODE and BYPASS as they are taken (R153, R159). -/

namespace Sys2Proof.Machine

/-! ## A bit as a byte -/

theorem bitByte_eq (b : Bool) : (if b then 1#8 else 0#8) = BitVec.ofNat 8 (bit b) := by cases b <;> rfl

theorem readBit_bitByte (b : Bool) : readBit (if b then 1#8 else 0#8) = some b := by rw [bitByte_eq, readBit_bit]

/-! ## SET_MODE (R153) -/

/-- R153: PROTECTED comes first. -/
theorem setModeCheck_of_protected {e : GroupEntry} (prot : e.isProtected = true) (r : GroupRec) (mode : Mode) :
    setModeCheck e r mode = some .isProtected := if_pos prot

section
variable {e : GroupEntry} {r : GroupRec} {mode : Mode} (unprotected : e.isProtected = false)
include unprotected

theorem setModeCheck_of_away (fixed : mode = .fixed) (started : r.startPending = false)
    (away : r.course ≠ .steady (.rig e.home)) : setModeCheck e r mode = some .badTarget := by
  rw [setModeCheck, if_neg (Bool.eq_false_iff.mp unprotected), if_pos ⟨fixed, started, away⟩]

theorem setModeCheck_passes (home : mode = .fixed → r.startPending = true ∨ r.course = .steady (.rig e.home)) :
    setModeCheck e r mode = none := by
  rw [setModeCheck, if_neg (Bool.eq_false_iff.mp unprotected), if_neg]
  rintro ⟨fixed, started, away⟩
  exact (home fixed).elim (fun pending => absurd (started.symm.trans pending) nofun) away
end

theorem takeSetMode_of_some {s : Part} {g : Fin 16} {mode : Mode} {st : Status}
    (fails : setModeCheck (groupEntry s g) (s.groups.get g) mode = some st) (r : Rig) (id : Nat) :
    takeSetMode r id g mode s = respond r id st 0 [] s := by simp only [takeSetMode, fails]

theorem takeSetMode_of_none {s : Part} {g : Fin 16} {mode : Mode}
    (passes : setModeCheck (groupEntry s g) (s.groups.get g) mode = none) (r : Rig) (id : Nat) :
    takeSetMode r id g mode s = acceptWrite r id (.setMode g mode) s := by simp only [takeSetMode, passes]

section
variable {r : Rig} {tag b : Byte} {g : Fin 16} {mode : Mode} {s : State} (can : canTake s.toPart r tag)
  (named : readMode b = some mode) (unfrozen : s.lock.level ≠ .frozen)
include can named unfrozen

/-- R139, R153: a SET_MODE in range comes to its own checks below FROZEN. -/
theorem exec_setMode : exec (.setMode r tag [2#8, BitVec.ofNat 8 g.val, b]) s = .next (s.withPart
    (takeSetMode r s.nextId g mode (occupy r false [tag, Code.setMode.byte, 2#8, BitVec.ofNat 8 g.val, b] s.toPart))) :=
  have read : readCommand .setMode [BitVec.ofNat 8 g.val, b] none = .ok (.setMode g mode) :=
    except_bind_eq_ok.mpr ⟨g, congrArg (field 1) (readGroup16_val g),
      except_bind_eq_ok.mpr ⟨mode, congrArg (field 2) named, rfl⟩⟩
  exec_performed .setMode (.setMode g mode) r tag 2#8 _ s can rfl rfl (bne_iff_ne.mpr unfrozen) rfl read

/-- The slot that the command takes is nothing to its checks. -/
theorem exec_setMode_refused {st : Status}
    (fails : setModeCheck (groupEntry s.toPart g) (s.groups.get g) mode = some st) :
    exec (.setMode r tag [2#8, BitVec.ofNat 8 g.val, b]) s =
      .next (s.withPart (answeredAs s.toPart r tag 0x41#8 st 0 [])) := by
  have ⟨_, _, _, young⟩ := can
  rw [exec_setMode can named unfrozen, takeSetMode_of_some (s := occupy r false _ s.toPart) fails,
    respond_taken s.toPart r tag 0x41#8 _ _ _ _ young rfl rfl]

theorem exec_setMode_accepted (passes : setModeCheck (groupEntry s.toPart g) (s.groups.get g) mode = none) :
    exec (.setMode r tag [2#8, BitVec.ofNat 8 g.val, b]) s =
      .next (s.withPart { heldAs s.toPart r tag 0x41#8 .pendingWrite with
        writes := s.writes ++ [⟨some (r, s.nextId), .setMode g mode⟩] }) := by
  have ⟨_, _, _, young⟩ := can
  rw [exec_setMode can named unfrozen, takeSetMode_of_none (s := occupy r false _ s.toPart) passes,
    acceptWrite_taken s.toPart r tag 0x41#8 _ _ young rfl rfl]
end

/-! ## BYPASS (R159) -/

/-- R159: a BYPASS that OPEN takes waits among the pending writes. -/
theorem exec_bypass {r : Rig} {tag : Byte} {s : State} (can : canTake s.toPart r tag) (opened : s.lock.level = .opened)
    (release : Bool) : exec (.bypass r tag [1#8, if release then 1#8 else 0#8]) s =
      .next (s.withPart { heldAs s.toPart r tag 0x46#8 .pendingWrite with
        writes := s.writes ++ [⟨some (r, s.nextId), .bypass !release⟩] }) := by
  have ⟨_, _, _, young⟩ := can
  have read : readCommand .bypass [if release then 1#8 else 0#8] none = .ok (.bypass !release) :=
    except_bind_eq_ok.mpr ⟨release, congrArg (field 1) (readBit_bitByte release), rfl⟩
  have run := exec_performed .bypass (.bypass !release) r tag 1#8 _ s can rfl rfl (opened ▸ takenAt_opened _) rfl read
  rw [perform, acceptWrite_taken s.toPart r tag 0x46#8 _ _ young rfl rfl] at run
  exact run

/-- Settles O41: the two checks of SET_MODE in their order, and the writes that then wait. -/
theorem setModeAndBypassAreTaken : Obligations.SetModeAndBypassAreTaken := by
  intro r tag s can
  refine ⟨fun g b mode named unfrozen => ⟨fun prot => ?_, fun unprotected fixed started away => ?_,
    fun unprotected home => ?_⟩, fun release opened => exec_bypass can opened release⟩
  · exact exec_setMode_refused can named unfrozen (setModeCheck_of_protected prot _ _)
  · exact exec_setMode_refused can named unfrozen (setModeCheck_of_away unprotected fixed started away)
  · exact exec_setMode_accepted can named unfrozen (setModeCheck_passes unprotected home)

end Sys2Proof.Machine
end

section
/-! MARK_RIG, SET_LOCK, SAVE and RESET as they are taken (R154, R157, R158, R160). -/

namespace Sys2Proof.Machine

/-! ## MARK_RIG (R154) -/

/-- R154: the mark is set, and the command answers with it. -/
theorem takeMarkRig_taken (s : Part) (r x : Rig) (tag : Byte) (msg : List Byte) (fault : Bool)
    (young : ∀ k ∈ (s.port.get r).slots, k.id < s.nextId) (h0 : byteAt msg 0 = tag) (h1 : byteAt msg 1 = 0x42#8) :
    takeMarkRig r s.nextId x fault (occupy r false msg s) =
      { answeredAs s r tag 0x42#8 .ok 0 [if fault then 1#8 else 0#8] with
        health := s.health.set x { s.health.get x with mark := fault } } := by
  have result : be8 (bit fault) = [if fault then 1#8 else 0#8] := congrArg (fun b => [b]) (bitByte_eq fault).symm
  rw [takeMarkRig, result]
  exact respond_taken (s.setHealth x { s.health.get x with mark := fault }) r tag 0x42#8 msg .ok 0 _ young h0 h1

theorem exec_markRig {r : Rig} {tag : Byte} {s : State} (can : canTake s.toPart r tag) (x : Rig) (fault : Bool) :
    exec (.markRig r tag [2#8, BitVec.ofNat 8 (rigCode x), if fault then 1#8 else 0#8]) s =
      .next (s.withPart { answeredAs s.toPart r tag 0x42#8 .ok 0 [if fault then 1#8 else 0#8] with
        health := s.health.set x { s.health.get x with mark := fault } }) := by
  have ⟨_, _, _, young⟩ := can
  have read : readCommand .markRig [BitVec.ofNat 8 (rigCode x), if fault then 1#8 else 0#8] none =
      .ok (.markRig x fault) :=
    except_bind_eq_ok.mpr ⟨x, congrArg (field 1) (readRig_rigCode x),
      except_bind_eq_ok.mpr ⟨fault, congrArg (field 2) (readBit_bitByte fault), rfl⟩⟩
  have run := exec_performed .markRig (.markRig x fault) r tag 2#8 _ s can rfl rfl rfl rfl read
  rw [perform, takeMarkRig_taken s.toPart r x tag _ fault young rfl rfl] at run
  exact run

/-! ## SET_LOCK (R157) -/

theorem lockAllows_self (level : LockLevel) (key : Bool) : lockAllows level level key = true := by cases level <;> rfl

/-- R157: the changes of level that SET_LOCK makes: out of OPEN, GUARDED to FROZEN, and GUARDED to OPEN with KEY released. -/
theorem lockAllows_of_change {level asked : LockLevel} {key : Bool}
    (change : (level = .opened ∧ asked ≠ .opened) ∨ (level = .guarded ∧ asked = .frozen) ∨
      (level = .guarded ∧ asked = .opened ∧ key = false)) : lockAllows level asked key = true ∧ level ≠ asked := by
  obtain ⟨rfl, other⟩ | ⟨rfl, rfl⟩ | ⟨rfl, rfl, rfl⟩ := change
  · exact ⟨rfl, other.symm⟩
  · exact ⟨rfl, nofun⟩
  · exact ⟨rfl, nofun⟩

/-- R157: the byte that names a level is its code. -/
theorem code_of_readLevel {b : Byte} {level : LockLevel} (named : readLevel b = some level) : be8 level.code = [b] := by
  unfold readLevel at named
  repeat' split at named
  all_goals cases named
  all_goals subst b; rfl

/-- A notice is raised alike before and after a slot is taken. -/
theorem raise_occupy (n : NoticeBody) (r : Rig) (reserved : Bool) (msg : List Byte) (s : Part) :
    raise n (occupy r reserved msg s) = occupy r reserved msg (raise n s) := by cases r <;> rfl

theorem setLevel_occupy (level : LockLevel) (byKey : Bool) (r : Rig) (reserved : Bool) (msg : List Byte) (s : Part) :
    setLevel level byKey (occupy r reserved msg s) = occupy r reserved msg (setLevel level byKey s) := by
  by_cases same : s.lock.level = level
  · rw [setLevel_of_eq byKey same]
    exact setLevel_of_eq byKey same
  · rw [setLevel_of_ne byKey same, ← raise_occupy]
    exact setLevel_of_ne byKey same

theorem setLevel_slots (level : LockLevel) (byKey : Bool) (s : Part) (r : Rig) :
    ((setLevel level byKey s).port.get r).slots = (s.port.get r).slots := by
  unfold setLevel
  split
  · rfl
  · exact (raise_answersStand _ _ r).1

theorem setLevel_nextId (level : LockLevel) (byKey : Bool) (s : Part) : (setLevel level byKey s).nextId = s.nextId :=
  (setLevel_same level byKey s).get .nextId rfl

/-- R157: a level that is taken is in force as the command answers. -/
theorem takeSetLock_allowed {s : Part} {asked : LockLevel} (allows : lockAllows s.lock.level asked s.lock.key = true)
    {r : Rig} (young : ∀ k ∈ (s.port.get r).slots, k.id < s.nextId) {tag : Byte} {msg : List Byte}
    (h0 : byteAt msg 0 = tag) (h1 : byteAt msg 1 = 0x44#8) :
    takeSetLock r s.nextId asked (occupy r false msg s) =
      answeredAs (setLevel asked false s) r tag 0x44#8 .ok 0 (be8 asked.code) := by
  have taken : takeSetLock r s.nextId asked (occupy r false msg s) =
      respond r s.nextId .ok 0 (be8 asked.code) (setLevel asked false (occupy r false msg s)) := if_pos allows
  have number := setLevel_nextId asked false s
  have later : ∀ k ∈ ((setLevel asked false s).port.get r).slots, k.id < (setLevel asked false s).nextId := by
    rw [setLevel_slots, number]
    exact young
  have answered := respond_taken (setLevel asked false s) r tag 0x44#8 msg .ok 0 (be8 asked.code) later h0 h1
  rw [number] at answered
  rw [taken, setLevel_occupy, answered]

theorem takeSetLock_refused {s : Part} {asked : LockLevel} (refuses : lockAllows s.lock.level asked s.lock.key = false)
    {r : Rig} (young : ∀ k ∈ (s.port.get r).slots, k.id < s.nextId) {tag : Byte} {msg : List Byte}
    (h0 : byteAt msg 0 = tag) (h1 : byteAt msg 1 = 0x44#8) :
    takeSetLock r s.nextId asked (occupy r false msg s) =
      answeredAs s r tag 0x44#8 .locked 0 (be8 s.lock.level.code) :=
  (if_neg (Bool.eq_false_iff.mp refuses)).trans (respond_taken s r tag 0x44#8 msg .locked 0 _ young h0 h1)

section
variable {r : Rig} {tag b : Byte} {asked : LockLevel} {s : State} (can : canTake s.toPart r tag)
  (named : readLevel b = some asked)
include can named

/-- R140, R157: SET_LOCK passes the gates at every level, and its own check looks at the level and KEY. -/
theorem exec_setLock : exec (.setLock r tag [1#8, b]) s = .next (s.withPart
    (takeSetLock r s.nextId asked (occupy r false [tag, Code.setLock.byte, 1#8, b] s.toPart))) :=
  have read : readCommand .setLock [b] none = .ok (.setLock asked) :=
    except_bind_eq_ok.mpr ⟨asked, congrArg (field 1) named, rfl⟩
  exec_performed .setLock (.setLock asked) r tag 1#8 _ s can rfl rfl rfl rfl read

theorem exec_setLock_allowed (allows : lockAllows s.lock.level asked s.lock.key = true) :
    exec (.setLock r tag [1#8, b]) s =
      .next (s.withPart (answeredAs (setLevel asked false s.toPart) r tag 0x44#8 .ok 0 [b])) := by
  have ⟨_, _, _, young⟩ := can
  rw [exec_setLock can named, takeSetLock_allowed allows young (tag := tag) rfl rfl,
    code_of_readLevel named]

theorem exec_setLock_refused (refuses : lockAllows s.lock.level asked s.lock.key = false) :
    exec (.setLock r tag [1#8, b]) s =
      .next (s.withPart (answeredAs s.toPart r tag 0x44#8 .locked 0 [BitVec.ofNat 8 s.lock.level.code])) := by
  have ⟨_, _, _, young⟩ := can
  rw [exec_setLock can named, takeSetLock_refused refuses young rfl rfl]
  rfl

/-- R157: the level in force can be asked for again. -/
theorem exec_setLock_same (same : asked = s.lock.level) :
    exec (.setLock r tag [1#8, b]) s = .next (s.withPart (answeredAs s.toPart r tag 0x44#8 .ok 0 [b])) := by
  have allows : lockAllows s.lock.level asked s.lock.key = true := same ▸ lockAllows_self asked s.lock.key
  rw [exec_setLock_allowed can named allows, setLevel_of_eq false same.symm]

/-- R157: a new level that is taken stands in the lock, its notice at the back of each queue. -/
theorem exec_setLock_changes (allows : lockAllows s.lock.level asked s.lock.key = true) (other : s.lock.level ≠ asked) :
    ∃ t, exec (.setLock r tag [1#8, b]) s = .next t ∧ t.lock = { s.lock with level := asked } ∧
      raised t.toPart (.lock s.lock.level asked false) ∧
      (t.port.get r).responses.getLast? = some ⟨s.nextId, tag, 0x44#8, .ok, 0, [b]⟩ := by
  have notice : raised (setLevel asked false s.toPart) (.lock s.lock.level asked false) := by
    rw [setLevel_of_ne false other]
    exact raised_raise _ _
  have last := answeredAs_last (setLevel asked false s.toPart) r tag 0x44#8 .ok 0 [b]
  rw [setLevel_nextId] at last
  have lanes : LanesStand (setLevel asked false s.toPart)
      (answeredAs (setLevel asked false s.toPart) r tag 0x44#8 .ok 0 [b]) := by
    refine ⟨fun x => ?_, rfl⟩
    rw [answeredAs, setPort_port, PerRig.get_set]
    split
    next own => rw [own]
    next => rfl
  exact ⟨_, exec_setLock_allowed can named allows, setLevel_lock asked false s.toPart, lanes.raised rfl notice, last⟩
end

/-! ## SAVE and RESET (R158, R160) -/

/-- R158, R164: a SAVE is taken at every level; the tables in force are snapshotted. -/
theorem exec_save {r : Rig} {tag : Byte} {s : State} (can : canTake s.toPart r tag) (saved : s.store.save ≠ .saving)
    (loaded : s.store.reload = false) : exec (.save r tag [0#8]) s =
      .next (s.withPart { heldAs s.toPart r tag 0x45#8 .saving with
        store := { s.store with save := .saving, snapshot := some s.tables } }) := by
  have ⟨_, _, _, young⟩ := can
  have idle : storeBusy s.toPart = false := by
    rw [Bool.eq_false_iff, ne_eq, storeBusy_iff, loaded]
    exact not_or.mpr ⟨saved, Bool.false_ne_true⟩
  have row : exec (.save r tag [0#8]) s = takeMessage r tag Code.save.byte [0#8] s := rfl
  have held := setPhase_taken { s.toPart with store := { s.store with save := .saving, snapshot := some s.tables } } r tag
    0x45#8 [tag, Code.save.byte, 0#8] .saving young rfl rfl
  rw [row, takeMessage_eq s r tag _ _ can (List.cons_ne_nil _ _),
    judge_passes (occupy r false _ s.toPart) r _ tag 0#8 .save [] .save rfl rfl rfl idle rfl]
  exact congrArg (fun p : Part => Host.Outcome.next (s.withPart p)) held

/-- Settles O43. -/
theorem markLockSaveReset : Obligations.MarkLockSaveReset := by
  intro r x tag s can
  refine ⟨fun fault => exec_markRig can x fault, fun b asked named => ⟨fun same => exec_setLock_same can named same,
    fun refused => ?_, fun taken => ?_⟩, fun saved loaded => exec_save can saved loaded, fun opened => ?_⟩
  · have refuses := (lockAllows_eq_false s.lock.level asked s.lock.key).mpr refused
    exact exec_setLock_refused can named refuses
  · obtain ⟨allows, other⟩ := lockAllows_of_change taken
    exact exec_setLock_changes can named allows other
  · exact exec_answered .reset .reset r tag 0#8 [] [] s can rfl rfl (opened ▸ takenAt_opened _) rfl rfl rfl

end Sys2Proof.Machine
end
